-- ==== Sys2Proof/Word.lean ====
section
/-! DEFINITION. Bytes, saturating counts, and the small families (one value per well, pump, screen, point) the records
are made of. Quantities of the manual are whole numbers (00_scope.md, Arithmetic): `Int` or `Nat`; what wraps or is
shifted is a `BitVec`. -/

namespace Sys2Proof

/-- A byte on the loop. -/
abbrev Byte := BitVec 8

/-- A node address, 0..63 (R187). -/
abbrev Addr := Nat

/-- A time or a length of time in milliseconds (00_scope.md, Time). -/
abbrev Ms := Nat

/-- A count that stops at `top`. -/
def satInc (top n : Nat) : Nat := if n < top then n + 1 else n

/-- "Clamped to a range" (00_scope.md, Arithmetic). -/
def clampInt (lo hi v : Int) : Int := if v < lo then lo else if hi < v then hi else v

/-- Division truncated toward zero (00_scope.md, Arithmetic). -/
def truncDiv (a b : Int) : Int := Int.tdiv a b

/-- The two wet wells. -/
inductive Well where
  | a | b
  deriving DecidableEq, Repr

/-- The six pumps. -/
inductive Pump where
  | p1 | p2 | p3 | p4 | p5 | p6
  deriving DecidableEq, Repr

/-- The three screens. -/
inductive Screen where
  | s1 | s2 | s3
  deriving DecidableEq, Repr

/-- The two overflow points. -/
inductive Point where
  | one | two
  deriving DecidableEq, Repr

/-- The seventeen station quantities (00_scope.md, Station quantities). -/
inductive Quantity where
  | la1 | la2 | lb1 | lb2 | riv | su1 | su2 | su3 | ov1 | ov2 | fah | fal | fbh | fbl | rh1 | rh2 | rh3
  deriving DecidableEq, Repr

def Well.all : List Well := [.a, .b]
def Pump.all : List Pump := [.p1, .p2, .p3, .p4, .p5, .p6]
def Screen.all : List Screen := [.s1, .s2, .s3]
def Point.all : List Point := [.one, .two]
def Quantity.all : List Quantity :=
  [.la1, .la2, .lb1, .lb2, .riv, .su1, .su2, .su3, .ov1, .ov2, .fah, .fal, .fbh, .fbl, .rh1, .rh2, .rh3]

/-- Position of a pump in a table row, from 0. -/
def Pump.index : Pump → Nat
  | .p1 => 0 | .p2 => 1 | .p3 => 2 | .p4 => 3 | .p5 => 4 | .p6 => 5

def Screen.index : Screen → Nat
  | .s1 => 0 | .s2 => 1 | .s3 => 2

def Well.index : Well → Nat
  | .a => 0 | .b => 1

def Point.index : Point → Nat
  | .one => 0 | .two => 1

/-- One value for each well. -/
structure PerWell (α : Type) where
  a : α
  b : α
  deriving DecidableEq, Repr

/-- One value for each pump. -/
structure PerPump (α : Type) where
  p1 : α
  p2 : α
  p3 : α
  p4 : α
  p5 : α
  p6 : α
  deriving DecidableEq, Repr

/-- One value for each screen. -/
structure PerScreen (α : Type) where
  s1 : α
  s2 : α
  s3 : α
  deriving DecidableEq, Repr

/-- One value for each overflow point. -/
structure PerPoint (α : Type) where
  one : α
  two : α
  deriving DecidableEq, Repr

/-- One value for each station quantity. -/
structure PerQuantity (α : Type) where
  la1 : α
  la2 : α
  lb1 : α
  lb2 : α
  riv : α
  su1 : α
  su2 : α
  su3 : α
  ov1 : α
  ov2 : α
  fah : α
  fal : α
  fbh : α
  fbl : α
  rh1 : α
  rh2 : α
  rh3 : α
  deriving DecidableEq, Repr

/-- Four values, as in a series of start or stop levels. -/
structure Four (α : Type) where
  n1 : α
  n2 : α
  n3 : α
  n4 : α
  deriving DecidableEq, Repr

variable {α : Type}

def PerWell.get (f : PerWell α) : Well → α
  | .a => f.a | .b => f.b
def PerWell.set (f : PerWell α) (w : Well) (x : α) : PerWell α :=
  match w with
  | .a => { f with a := x } | .b => { f with b := x }
/-- The same value for both wells. -/
def PerWell.of (x : α) : PerWell α := ⟨x, x⟩

def PerPump.get (f : PerPump α) : Pump → α
  | .p1 => f.p1 | .p2 => f.p2 | .p3 => f.p3 | .p4 => f.p4 | .p5 => f.p5 | .p6 => f.p6
def PerPump.set (f : PerPump α) (p : Pump) (x : α) : PerPump α :=
  match p with
  | .p1 => { f with p1 := x } | .p2 => { f with p2 := x } | .p3 => { f with p3 := x }
  | .p4 => { f with p4 := x } | .p5 => { f with p5 := x } | .p6 => { f with p6 := x }
/-- The value a function gives each pump. -/
def PerPump.make (g : Pump → α) : PerPump α := ⟨g .p1, g .p2, g .p3, g .p4, g .p5, g .p6⟩

def PerScreen.get (f : PerScreen α) : Screen → α
  | .s1 => f.s1 | .s2 => f.s2 | .s3 => f.s3
def PerScreen.set (f : PerScreen α) (k : Screen) (x : α) : PerScreen α :=
  match k with
  | .s1 => { f with s1 := x } | .s2 => { f with s2 := x } | .s3 => { f with s3 := x }
def PerScreen.of (x : α) : PerScreen α := ⟨x, x, x⟩

def PerPoint.get (f : PerPoint α) : Point → α
  | .one => f.one | .two => f.two
def PerPoint.set (f : PerPoint α) (k : Point) (x : α) : PerPoint α :=
  match k with
  | .one => { f with one := x } | .two => { f with two := x }
def PerPoint.of (x : α) : PerPoint α := ⟨x, x⟩

def PerQuantity.get (f : PerQuantity α) : Quantity → α
  | .la1 => f.la1 | .la2 => f.la2 | .lb1 => f.lb1 | .lb2 => f.lb2 | .riv => f.riv
  | .su1 => f.su1 | .su2 => f.su2 | .su3 => f.su3 | .ov1 => f.ov1 | .ov2 => f.ov2
  | .fah => f.fah | .fal => f.fal | .fbh => f.fbh | .fbl => f.fbl
  | .rh1 => f.rh1 | .rh2 => f.rh2 | .rh3 => f.rh3
def PerQuantity.set (f : PerQuantity α) (q : Quantity) (x : α) : PerQuantity α :=
  match q with
  | .la1 => { f with la1 := x } | .la2 => { f with la2 := x } | .lb1 => { f with lb1 := x }
  | .lb2 => { f with lb2 := x } | .riv => { f with riv := x } | .su1 => { f with su1 := x }
  | .su2 => { f with su2 := x } | .su3 => { f with su3 := x } | .ov1 => { f with ov1 := x }
  | .ov2 => { f with ov2 := x } | .fah => { f with fah := x } | .fal => { f with fal := x }
  | .fbh => { f with fbh := x } | .fbl => { f with fbl := x } | .rh1 => { f with rh1 := x }
  | .rh2 => { f with rh2 := x } | .rh3 => { f with rh3 := x }
/-- The value a function gives each quantity. -/
def PerQuantity.make (g : Quantity → α) : PerQuantity α :=
  ⟨g .la1, g .la2, g .lb1, g .lb2, g .riv, g .su1, g .su2, g .su3, g .ov1, g .ov2,
   g .fah, g .fal, g .fbh, g .fbl, g .rh1, g .rh2, g .rh3⟩

/-- The k-th of four, counted from 1; 0 and numbers above 4 give the last. -/
def Four.get (f : Four α) : Nat → α
  | 1 => f.n1 | 2 => f.n2 | 3 => f.n3 | _ => f.n4
def Four.set (f : Four α) (k : Nat) (x : α) : Four α :=
  match k with
  | 1 => { f with n1 := x } | 2 => { f with n2 := x } | 3 => { f with n3 := x } | _ => { f with n4 := x }

end Sys2Proof
end

