-- ==== Sys2Proof/Vocabulary.lean ====
section
/-! DEFINITION. The names of the manual: states, qualities, reasons, the entries of the banked tables, the bodies of
records, and what events carry. All of it is plain data. -/

namespace Sys2Proof

/-! ## Channels and wells -/

/-- ANALOG or DISCRETE (R1). -/
inductive ChannelKind where
  | analog | discrete
  deriving DecidableEq, Repr

/-- Channel quality (R4, section 1.5). -/
inductive Quality where
  | good | held | lost | suspect
  deriving DecidableEq, Repr

/-- Why a channel became SUSPECT (R14). -/
inductive SuspectCause where
  | rejects | reference | float
  deriving DecidableEq, Repr

/-- Quality of a well level (R22). -/
inductive LevelQuality where
  | good | held | lost
  deriving DecidableEq, Repr

/-- A float as WMU last took it (R19). -/
inductive FloatState where
  | on | off | unknown
  deriving DecidableEq, Repr

/-- The disagreement episode (R23). -/
inductive Episode where
  | none | timing (since : Ms) | logged
  deriving DecidableEq, Repr

/-- DRY or STORM (R137); also the class of a CADENCE frame (R18). -/
inductive StationState where
  | dry | storm
  deriving DecidableEq, Repr

/-- The state of a well (R137). -/
inductive WellState where
  | normal | restricted | fallback
  deriving DecidableEq, Repr

/-- Which value the tide lock was judged from (R137). -/
inductive RiverSource where
  | riv | fallback
  deriving DecidableEq, Repr

/-- An update CU delivers (R5). `stored` says that it results from a stored sample. -/
structure ChannelUpdate where
  value : Option Int
  quality : Quality
  storedAt : Option Ms
  stored : Bool
  deriving DecidableEq, Repr

/-- An update from a channel that holds no value: what a command carries that is written without its update. -/
def ChannelUpdate.absent : ChannelUpdate := ⟨none, .lost, none, false⟩

/-- What a Well Record delivery carries (R25). -/
structure WellDelivery where
  level : Option Int
  quality : LevelQuality
  highFloat : FloatState
  lowFloat : FloatState
  volume : Nat
  aboveTable : Bool
  smoothedInflow : Nat
  inflowGood : Bool
  deriving DecidableEq, Repr

/-! ## Drives and pumps -/

/-- The state a drive reports (R59). -/
inductive DriveState where
  | stopped | starting | running | tripped | localHand | float
  deriving DecidableEq, Repr

/-- Trip causes (R43, section 12.2). -/
inductive TripCause where
  | none | overload | thermal | phase | moisture | other
  deriving DecidableEq, Repr

/-- The action of a DRIVE_CMD (section 12.2). -/
inductive DriveAction where
  | run | stop | reverse | float
  deriving DecidableEq, Repr

/-- The fields of a DRIVE_STAT (R59). -/
structure DriveReport where
  state : DriveState
  floatRunning : Bool
  speed : Nat
  current : Nat
  cause : TripCause
  deriving DecidableEq, Repr

/-- The drive status of a record: UNKNOWN, or the last report with its arrival time (R43). -/
inductive DriveStatus where
  | unknown | known (report : DriveReport) (at_ : Ms)
  deriving DecidableEq, Repr

/-- Why a pump is UNAVAILABLE (R44). -/
inductive Unavailability where
  | localHand | noStatus | skipped | disabled | notFitted
  deriving DecidableEq, Repr

/-- The states of a pump (R44). -/
inductive PumpState where
  | off | startWait | starting | running | stopping | resting | backoff | lockedOut
  | unavailable (why : Unavailability) | float
  deriving DecidableEq, Repr

/-- Who commands a pump (R45). -/
inductive Owner where
  | auto | manual | float
  deriving DecidableEq, Repr

/-- What a requester draws on the Start Budget (R69, R89). -/
inductive ChargeKind where
  | none | start | running | external
  deriving DecidableEq, Repr

/-- The reasons of a REFUSAL (R63, R64). -/
inductive RefusalReason where
  | noPermission | authority | fallback | locked | dry | starts | limit | budget
  deriving DecidableEq, Repr

/-- The assignment of a pump (R46). -/
inductive Assignment where
  | well (w : Well) | notFitted
  deriving DecidableEq, Repr

/-- FIXED or VARIABLE (R46). -/
inductive PumpKind where
  | fixed | variable
  deriving DecidableEq, Repr

/-- The exhaustion policy (R76). -/
inductive ExhaustionPolicy where
  | lockout | skip | persist
  deriving DecidableEq, Repr

/-- How the exit notice names a pump (R146); `turning` is its mark. -/
inductive ExitName where
  | adopted | localHand (turning : Bool) | silent (turning : Bool) | stopped
  deriving DecidableEq, Repr

/-! ## The Start Budget -/

/-- The supply state (R88). -/
inductive Supply where
  | unknown | mains | generator | none
  deriving DecidableEq, Repr

/-- Classes of requests, in rank order (R93). -/
inductive RequestClass where
  | criticalRake | pump | rake
  deriving DecidableEq, Repr

def RequestClass.rank : RequestClass → Nat
  | .criticalRake => 0 | .pump => 1 | .rake => 2

/-- The nine requesters. -/
inductive Requester where
  | pump (p : Pump) | rake (k : Screen)
  deriving DecidableEq, Repr

/-! ## Screens -/

/-- The states of a rake (R101). -/
inductive RakeState where
  | parked | queued | cycling | shed | jamReverse | jamPause | jammed | outOfService
  deriving DecidableEq, Repr

inductive RakePhase where
  | leaving | returning
  deriving DecidableEq, Repr

/-- The last jam cause (R101). -/
inductive JamCause where
  | none | cycleTime | noLeave | overload | fault (cause : TripCause)
  deriving DecidableEq, Repr

/-! ## Overflow -/

/-- The spill states (section 7.4). -/
inductive SpillState where
  | dry | tentative | open_ | closing
  deriving DecidableEq, Repr

/-- The cause flags of an event (R131). -/
structure CauseFlags where
  allPumpsRunning : Bool
  pumpsUnavailable : Bool
  tideLocked : Bool
  screenBlinded : Bool
  supplyLimited : Bool
  fallback : Bool
  sensorDegraded : Bool
  deriving DecidableEq, Repr

def CauseFlags.clear : CauseFlags := ⟨false, false, false, false, false, false, false⟩

/-- The quality flags of an event (R123). -/
structure QualityFlags where
  gap : Bool
  estimated : Bool
  tableChanged : Bool
  deriving DecidableEq, Repr

def QualityFlags.clear : QualityFlags := ⟨false, false, false⟩

/-! ## Storm -/

/-- The storm conditions (R139) that hold at an evaluation. -/
structure StormConditions where
  levelA : Bool
  levelB : Bool
  inflowA : Bool
  inflowB : Bool
  spill1 : Bool
  spill2 : Bool
  tide : Bool
  forced : Bool
  deriving DecidableEq, Repr

/-- Why a STORM_CHANGE was made (R141). -/
inductive StormReason where
  | entered (c : StormConditions) | hold | allowDry
  deriving DecidableEq, Repr

/-! ## Tables (chapter 11) -/

/-- A field whose bytes are a code: a name the manual gives, or a code that names nothing. The value is kept as written
(R177), and a code that names nothing is out of range at commit. -/
inductive Coded (α : Type) where
  | name (x : α) | unnamed (code : Nat)
  deriving DecidableEq, Repr

/-- The eight banked tables (R177). -/
inductive TableId where
  | sampleMap | levelVolume (w : Well) | pumpCurves | weir | stationSetup | gates | sources
  deriving DecidableEq, Repr

/-- An entry of the Sample Map (R1). -/
structure SampleEntry where
  node : Nat
  channel : Nat
  quantity : Coded Quantity
  kind : ChannelKind
  zero : Int
  span : Nat
  windowLow : Nat
  windowHigh : Nat
  expected : Option Nat
  tolerance : Option Nat
  holdLimit : Nat
  invert : Bool
  deriving DecidableEq, Repr

/-- The Sample Map: 24 slots, each empty or an entry (R177). -/
abbrev SampleMap := List (Option SampleEntry)

/-- A level-volume table (R26). -/
structure LevelVolume where
  base : Int
  stepSize : Nat
  volumes : List Nat
  deriving DecidableEq, Repr

/-- PUMP_CURVES: 54 flows, P1's Q[0] to P6's Q[8] (R31, R177). -/
abbrev PumpCurves := List Nat

/-- WEIR: the head step of each point, and 34 flows (R121, R177). -/
structure Weir where
  steps : PerPoint Nat
  flows : List Nat
  deriving DecidableEq, Repr

/-- An entry of SOURCES (R175). -/
structure SourceEntry where
  address : Nat
  ceiling : Nat
  manage : Bool
  manualDrive : Bool
  ackReports : Bool
  deriving DecidableEq, Repr

abbrev Sources := List (Option SourceEntry)

/-- The gate actions (R184). -/
inductive GateAction where
  | pumpEnable | pumpDisable | pumpClear | pumpRelease
  | rakeRun | rakeEnable | rakeDisable | screenClear
  | channelClear | refCheck | rotate | forceStorm | allowDry
  deriving DecidableEq, Repr

/-- The target of a gate (R183). -/
inductive GateTarget where
  | none | pump (p : Pump) | screen (k : Screen) | quantity (q : Quantity) | well (w : Well) | unnamed (code : Nat)
  deriving DecidableEq, Repr

inductive Comparison where
  | above | atOrAbove | below | atOrBelow
  deriving DecidableEq, Repr

/-- A gate's precondition (R183). -/
structure Precondition where
  quantity : Coded Quantity
  comparison : Coded Comparison
  constant : Int
  deriving DecidableEq, Repr

/-- An entry of GATES (R183). -/
structure GateEntry where
  action : Coded GateAction
  target : GateTarget
  authority : Nat
  enabled : Coded Bool
  precondition : Option Precondition
  deriving DecidableEq, Repr

abbrev Gates := List (Option GateEntry)

/-- A Station Setup value as a table entry: a number, or a name where the value is one of a list. -/
inductive SetupValue where
  | num (v : Int) | well (v : Coded Assignment) | kind (v : Coded PumpKind) | policy (v : Coded ExhaustionPolicy)
  deriving DecidableEq, Repr

/-- The Station Setup: one field per row of the setup tables, in the order of R177. Numbers are `Int` because a bank may
hold a value out of range until it is committed. Units are those of the rows. -/
structure Setup where
  surgeBlanking : Int
  referenceInterval : Int
  disagreement : PerWell Int
  highFloat : PerWell Int
  lowFloat : PerWell Int
  balanceInterval : PerWell Int
  smoothing : PerWell Int
  dischargeInvert : Int
  well : PerPump (Coded Assignment)
  kind : PerPump (Coded PumpKind)
  drive : PerPump Int
  startWeight : PerPump Int
  runWeight : PerPump Int
  minRun : PerPump Int
  minRest : PerPump Int
  dryLevel : PerPump Int
  startLevels : PerWell (Four Int)
  stopLevels : PerWell (Four Int)
  maxRunning : PerWell Int
  restrictedStop : PerWell Int
  manualLevel : Int
  startConfirm : PerPump Int
  startsPerHour : PerPump Int
  attemptLimit : PerPump Int
  policy : PerPump (Coded ExhaustionPolicy)
  skipTime : PerPump Int
  minSpeed : PerPump Int
  speedGain : PerPump Int
  slotTime : Int
  refreshPeriod : Int
  deadHeadTime : Int
  mainsCapacity : Int
  generatorCapacity : Int
  supplyMonitor : Int
  rakeDrive : PerScreen Int
  rakeStartWeight : PerScreen Int
  rakeRunWeight : PerScreen Int
  rakeStartDiff : PerScreen Int
  stopDiff : PerScreen Int
  criticalDiff : PerScreen Int
  blindingDiff : PerScreen Int
  leaveTime : PerScreen Int
  maxCycle : PerScreen Int
  reverseTime : PerScreen Int
  pauseTime : PerScreen Int
  jamLimit : PerScreen Int
  dryInterval : Int
  stormInterval : Int
  crest : PerPoint Int
  deadBand : PerPoint Int
  openConfirm : PerPoint Int
  closeConfirm : PerPoint Int
  stormLevel : PerWell Int
  stormInflow : PerWell Int
  stormHold : Int
  tideLock : Int
  riverFallback : Int
  recoveryTime : Int
  telemetryNode : Int
  deriving DecidableEq, Repr

/-- The contents of one bank of one table. -/
inductive TableContents where
  | sampleMap (t : SampleMap) | levelVolume (t : LevelVolume) | pumpCurves (t : PumpCurves) | weir (t : Weir)
  | stationSetup (t : Setup) | gates (t : Gates) | sources (t : Sources)
  deriving DecidableEq, Repr

/-- One entry of a table, as a write carries it and a read returns it (section 12.2). -/
inductive TableEntry where
  | sample (e : Option SampleEntry) | volume (v : Nat) | lvHeader (base : Int) (stepSize : Nat) | flow (v : Nat)
  | setup (v : SetupValue) | gate (e : Option GateEntry) | source (e : Option SourceEntry)
  deriving DecidableEq, Repr

/-- Main or header section (R177). -/
inductive Section where
  | main | header
  deriving DecidableEq, Repr

inductive Direction where
  | up | down
  deriving DecidableEq, Repr

inductive BankName where
  | active | inactive
  deriving DecidableEq, Repr

/-- What a management request names itself by: its source, authority, frame sequence and tag (R176). -/
structure ReqHead where
  source : Addr
  authority : Nat
  frameSeq : BitVec 6
  tag : BitVec 8
  deriving DecidableEq, Repr

/-- The arguments of TABLE_WRITE (R178). -/
structure WriteArgs where
  table : TableId
  sect : Section
  start : Nat
  direction : Direction
  count : Nat
  entries : List TableEntry
  deriving DecidableEq, Repr

/-- The arguments of TABLE_READ (R179). -/
structure ReadArgs where
  table : TableId
  bank : BankName
  sect : Section
  start : Nat
  direction : Direction
  count : Nat
  deriving DecidableEq, Repr

/-- The record a READ_RECORD names (R179). -/
inductive RecordName where
  | well (w : Well) | pump (p : Pump) | screen (k : Screen) | point (o : Point) | channel (q : Quantity)
  | budget | log | loop | station
  deriving DecidableEq, Repr

/-! ## Records of the Event Log (section 9.1) -/

/-- The classes of records. -/
inductive RecordClass where
  | overflow | alarm | notice | lost
  deriving DecidableEq, Repr

/-- A record's body: its kind and the fields its submitting rule names. -/
inductive RecordBody where
  | overflowOpen (point : Point) (number : BitVec 16) (start : Nat) (peakFlow : Nat) (peakHead : Int) (volume : Nat)
      (causes : CauseFlags)
  | overflowClose (point : Point) (number : BitVec 16) (start stop : Nat) (volume peakFlow : Nat) (peakHead : Int)
      (causes : CauseFlags) (flags : QualityFlags)
  | pumpFault (p : Pump) (attempts : Nat) (cause : TripCause)
  | pumpLockout (p : Pump) (cause : TripCause)
  | screenJam (k : Screen) (jams : Nat) (cause : JamCause)
  | sensorLost (q : Quantity)
  | fallbackEnter (w : Well) (quality : LevelQuality)
  | tableStoreFault (t : TableId)
  | pumpTripRetry (p : Pump) (cause : TripCause)
  | stopFailed (p : Pump) (reported : Option DriveState)
  | wear (k : Screen) (baseline last : Nat)
  | uncommandedMotion (k : Screen)
  | disagree (w : Well) (first second : Option Int)
  | sensorRecovered (q : Quantity) (leftQuality : Quality)
  | sensorSuspect (q : Quantity) (cause : SuspectCause)
  | supplyChange (before after : Supply) (capacity committed rakes pumps : Nat)
  | fallbackLeave (w : Well) (adopted localHand silent stopped : Nat)
  | stormChange (state : StationState) (reason : StormReason)
  | tableCommit (t : TableId) (generation : BitVec 32)
  | manual (source : Addr) (p : Pump) (action : DriveAction) (reason : RefusalReason)
  | lost (overflow alarm notice lost : Nat)
  deriving DecidableEq, Repr

/-- The class of a record (section 9.1). -/
def RecordBody.cls : RecordBody → RecordClass
  | .overflowOpen .. | .overflowClose .. => .overflow
  | .pumpFault .. | .pumpLockout .. | .screenJam .. | .sensorLost .. | .fallbackEnter .. | .tableStoreFault .. => .alarm
  | .lost .. => .lost
  | .pumpTripRetry .. | .stopFailed .. | .wear .. | .uncommandedMotion .. | .disagree .. | .sensorRecovered ..
  | .sensorSuspect .. | .supplyChange .. | .fallbackLeave .. | .stormChange .. | .tableCommit .. | .manual .. => .notice

/-- The pages a record occupies (section 9.1). -/
def RecordBody.pages : RecordBody → Nat
  | .overflowOpen .. => 3
  | .overflowClose .. => 5
  | _ => 2

/-- The kind code: the row of the record table of chapter 9, from 1 (R189). -/
def RecordBody.kindCode : RecordBody → Nat
  | .overflowOpen .. => 1 | .overflowClose .. => 2 | .pumpFault .. => 3 | .pumpLockout .. => 4 | .screenJam .. => 5
  | .sensorLost .. => 6 | .fallbackEnter .. => 7 | .tableStoreFault .. => 8 | .pumpTripRetry .. => 9
  | .stopFailed .. => 10 | .wear .. => 11 | .uncommandedMotion .. => 12 | .disagree .. => 13
  | .sensorRecovered .. => 14 | .sensorSuspect .. => 15 | .supplyChange .. => 16 | .fallbackLeave .. => 17
  | .stormChange .. => 18 | .tableCommit .. => 19 | .manual .. => 20 | .lost .. => 21

/-! ## STATUS parts (R161) -/

/-- One well in part 1. -/
structure WellStatus where
  state : WellState
  level : Option Int
  quality : LevelQuality
  smoothedInflow : Nat
  inflowGood : Bool
  deriving DecidableEq, Repr

/-- One screen in part 2. -/
structure ScreenStatus where
  state : RakeState
  blinded : Bool
  differential : Nat
  deriving DecidableEq, Repr

/-- One overflow point in part 3. -/
structure PointStatus where
  spill : SpillState
  slotVolume : Option Nat
  cumulative : Nat
  unconfirmed : Nat
  deriving DecidableEq, Repr

/-- The contents of the four parts. -/
inductive StatusPart where
  | station (clock : BitVec 32) (timeUnset : Bool) (state : StationState) (tideLock : Bool) (supply : Supply)
      (linkDown : Bool) (wells : PerWell WellStatus)
  | plant (pumps : PerPump (PumpState × Owner)) (screens : PerScreen ScreenStatus)
  | overflow (points : PerPoint PointStatus)
  | log (pagesUsed : Nat) (oldest : BitVec 16) (lostOverflow lostAlarm lostNotice lostLost : Nat)
  deriving DecidableEq, Repr

/-! ## Frames -/

/-- A frame as it stands on the line (section 12.1): five header bytes, the payload, the check. -/
structure RawFrame where
  destination : Byte
  source : Byte
  kind : Byte
  control : Byte
  length : Byte
  payload : List Byte
  check : BitVec 16
  deriving DecidableEq, Repr

/-- The results of a management operation (R176). -/
inductive ResultCode where
  | ok | notKnown | denied | badArgument | busy | outOfRange | invalidTable | conflict | disabled | precondition
  deriving DecidableEq, Repr

/-- The standing of a bank in a read (R179). -/
inductive Standing where
  | valid | empty | pending
  deriving DecidableEq, Repr

end Sys2Proof
end

