-- ==== Sys2Proof/Syntax.lean ====
section
/-! DEFINITION. The commands: one constructor for each row of opcode_table.json, with what the event carries. -/

namespace Sys2Proof

inductive Instr where
  -- LP and the supply of the part (chapter 10)
  | powerOn (strap : BitVec 6)
  | forwardOnlyArrival (f : RawFrame)
  | frameArrival (f : RawFrame)
  /-- `finished`: a frame finished leaving; otherwise a frame joined a queue while LOOP OUT was idle. -/
  | loopOutFree (finished : Bool)
  | silenceTimerExpiry
  -- CU (chapter 1)
  | sampleFrame (src : Addr) (payload : List Byte)
  | edgeFrame (src : Addr) (payload : List Byte)
  | stalenessDeadline (q : Quantity)
  | holdDeadline (q : Quantity)
  /-- `first`, `second`: the transducers of the well the contradiction is reported for. -/
  | floatContradiction (w : Well) (first second : Bool := true)
  | surgeNotice (w : Well)
  | referenceIntervalExpiry (q : Quantity)
  | referenceRetry (q : Quantity)
  | referenceTimeout (q : Quantity)
  | cadenceRepeatExpiry (node : Nat)
  | cadenceRetry (node : Nat)
  | stationStateToCu (st : StationState)
  -- WMU (chapter 2)
  /-- `u`: the update of `q`; `first`, `second`: the well's transducer channels as CU holds them at its delivery. -/
  | levelSelection (q : Quantity) (u first second : ChannelUpdate := .absent)
  | disagreeTimeout (w : Well)
  /-- `left`: the well the pump leaves, when it moves. -/
  | pumpFlowNotice (p : Pump) (left : Option Well)
  | balanceExpiry (w : Well)
  | wellRecordDeliveryDc (w : Well) (d : WellDelivery)
  | wellRecordDeliverySc (w : Well) (d : WellDelivery)
  | wellRecordDeliveryOa (w : Well) (d : WellDelivery)
  | wellRecordDeliverySsu (w : Well) (d : WellDelivery)
  -- DC (chapters 3 and 4)
  | driveStat (src : Addr) (payload : List Byte)
  | startDeadlineExpiry (p : Pump)
  | stopDeadlineExpiry (p : Pump)
  | backoffEnd (p : Pump)
  | restEnd (p : Pump)
  | skipEnd (p : Pump)
  | statusDeadlineExpiry (p : Pump)
  | minRunExpiry (p : Pump)
  | startHistoryAging (p : Pump)
  | refreshExpiry (p : Pump)
  | commandRetry (p : Pump)
  | deadHeadExpiry (p : Pump)
  | runSecondsTick (p : Pump)
  | pumpGrant (p : Pump)
  | pumpShed (p : Pump)
  | fallbackEntryDc (w : Well)
  | fallbackExitDc (w : Well) (names : PerPump (Option ExitName))
  | stationStateToDc (st : StationState)
  | wellStateToDc (w : Well) (st : WellState)
  | curveSwitchNotice (w : Well)
  -- SB (chapter 5)
  | startRequest (r : Requester) (cls : RequestClass)
  | requestWithdrawal (r : Requester)
  | chargeTransfer (r : Requester)
  | grantReturn (r : Requester)
  | chargeRelease (r : Requester)
  /-- `convert`: a RUNNING entry becomes EXTERNAL; otherwise an entry NONE does. -/
  | externalCharge (p : Pump) (convert : Bool)
  | stopNotice (p : Pump)
  | shedDecline (r : Requester)
  | supplyStat (src : Addr) (value : Option Supply)
  | fallbackEntrySb (w : Well)
  | fallbackExitSb (w : Well) (names : PerPump (Option ExitName))
  -- SC (chapter 6)
  | upstreamLevelUpdate (k : Screen) (u : ChannelUpdate := .absent)
  /-- `at_`: the arrival time of the EDGE frame. -/
  | homeOffEdge (k : Screen) (at_ : Ms)
  | homeOnEdge (k : Screen) (at_ : Ms)
  | homeQualityNotice (k : Screen) (u : ChannelUpdate := .absent)
  | rakeGrant (k : Screen)
  | rakeDriveStat (src : Addr) (payload : List Byte)
  | rakeShed (k : Screen)
  | leaveDeadlineExpiry (k : Screen)
  | cycleDeadlineExpiry (k : Screen)
  | reverseEnd (k : Screen)
  | pauseEnd (k : Screen)
  | intervalTimerExpiry (k : Screen)
  | hourTimerExpiry
  | rakeRefreshExpiry (k : Screen)
  | rakeCommandRetry (k : Screen)
  | stationStateToSc (st : StationState)
  -- OA (chapter 7)
  | overflowLevelUpdate (o : Point) (u : ChannelUpdate)
  | wellStateToOa (w : Well) (st : WellState)
  -- SSU (chapter 8)
  | rivUpdateSsu (u : ChannelUpdate := .absent)
  | spillStateDelivery (o : Point) (st : SpillState)
  | holdTimerExpiry
  | blindedChange (k : Screen) (flag : Bool)
  | recoveryTimerExpiry (w : Well)
  | statusWaitEnd (w : Well)
  | driveStatusReport (p : Pump) (known : Bool)
  -- ELR (chapter 9)
  | recordSubmission (body : RecordBody)
  | reportRetry
  | reportAck (src : Addr) (payload : List Byte)
  | reportTimerExpiry
  | statusTimerExpiry
  | statusPartRetry
  | stationStateToElr (st : StationState)
  -- MU (chapter 11): `none` stands for arguments that have not the form the operation takes
  | tableWrite (h : ReqHead) (args : Option WriteArgs)
  | tableRead (h : ReqHead) (args : Option ReadArgs)
  | tableDiscard (h : ReqHead) (args : Option TableId)
  | tableCommit (h : ReqHead) (args : Option TableId)
  | readRecord (h : ReqHead) (args : Option (RecordName × Nat))
  | invokeGate (h : ReqHead) (args : Option Nat)
  | setLockLevel (h : ReqHead) (args : Option Nat)
  | setTime (h : ReqHead) (args : Option (BitVec 32))
  | clearCounters (h : ReqHead) (args : Option Unit)
  | restart (h : ReqHead) (args : Option Unit)
  | deferredRestart
  | storeWriteComplete
  | clockAdvance
  | powerLoss
  deriving DecidableEq, Repr

end Sys2Proof
end

