-- ==== Sys2Proof/Decode.lean ====
section
/-! DEFINITION. No row of opcode_table.json gives bits ("fields" of every row is empty): a command is an event of the part, not
a word. So no word spells a command. The bytes of frames are read in Sys2Proof/Machine/Frames.lean. -/

namespace Sys2Proof

/-- The command a word spells by the table's bits: none, for the table gives none. -/
def decodeTableWord (_nbits _w : Nat) : Option Instr := none

end Sys2Proof
end

