-- ==== Sys2Proof/Machine/Records.lean ====
section
/-! DEFINITION. The records of the ten blocks, as chapters 1 to 11 list their fields. Times are of the internal counter
in milliseconds; an absent value is `none`. A timer is held as the time at which it expires, and a flag such as "command
pending" as the time of the next offer, present exactly while the flag is set. -/

namespace Sys2Proof.Machine

/-! ## CU (R4, R18) -/

/-- A channel record (R4). `awaiting` is the reference state: `none` is IDLE, a time is AWAITING with the request time. -/
structure ChannelRecord where
  value : Option Int
  quality : Quality
  storedAt : Option Ms
  arrivedAt : Option Ms
  staleAt : Option Ms
  holdAt : Option Ms
  rejects : Nat
  recovery : Nat
  edgeCount : Option (BitVec 8)
  awaiting : Option Ms
  referenceAt : Option Ms
  referenceRetryAt : Option Ms
  deriving DecidableEq, Repr

/-- The cadence state of a node (R18). `retryAt` is the send-pending flag. -/
structure CadenceState where
  node : Nat
  recorded : StationState
  retryAt : Option Ms
  repeatAt : Option Ms
  deriving DecidableEq, Repr

/-! ## WMU (R19) -/

/-- The Well Record (R19). -/
structure WellRecord where
  level : Option Int
  quality : LevelQuality
  highFloat : FloatState
  lowFloat : FloatState
  volume : Nat
  aboveTable : Bool
  episode : Episode
  established : Bool
  balanceLevel : Option Int
  balanceVolume : Option Nat
  balanceTime : Option Ms
  pumpedLitres : Nat
  remainder : Nat
  integratedAt : Option Ms
  flowSet : PerPump Nat
  rawInflow : Nat
  smoothedInflow : Nat
  inflowGood : Bool
  negativeBalances : Nat
  balanceAt : Option Ms
  pendingLevelVolume : Bool
  pendingCurves : Bool
  deriving DecidableEq, Repr

/-! ## DC (R43, R69) -/

/-- The Pump Record (R43, R69), without the setup copies, which are read from the active Station Setup. -/
structure PumpRecord where
  state : PumpState
  owner : Owner
  disabled : Bool
  lockout : Bool
  interlock : Bool
  drive : DriveStatus
  lastReport : Option DriveReport
  silentRunning : Bool
  statusAt : Option Ms
  lastTrip : TripCause
  runStart : Option Ms
  stopDeferred : Bool
  manualSource : Option Addr
  runSeconds : Nat
  runTickAt : Option Ms
  history : List Ms
  attempts : Nat
  startAt : Option Ms
  stopAt : Option Ms
  stopFailed : Bool
  waitEnd : Option Ms
  charge : ChargeKind
  staged : Nat
  formula : Nat
  applied : Nat
  manual : Option (DriveAction × Nat)
  deadHeadAt : Option Ms
  forcing : Bool
  refreshAt : Option Ms
  retryAt : Option Ms
  count : BitVec 8
  deriving DecidableEq, Repr

/-- What DC holds beside the Pump Records. -/
structure Duty where
  rotation : PerWell (List Pump)
  rotationDue : PerWell Bool
  levelDemand : PerWell Nat
  demand : PerWell Nat
  newCurves : PerWell Bool
  backoff : BitVec 16
  deriving DecidableEq, Repr

/-! ## SB (R89) -/

/-- A charge entry (R89). -/
structure ChargeEntry where
  kind : ChargeKind
  weight : Nat
  releasing : Bool
  deriving DecidableEq, Repr

/-- A request of the Start Queue (R93). -/
structure Request where
  requester : Requester
  cls : RequestClass
  arrival : BitVec 16
  deriving DecidableEq, Repr

/-- The Budget Record (R89). Capacity, committed weight and releasing weight are computed from it. -/
structure Budget where
  supply : Supply
  pumps : PerPump ChargeEntry
  rakes : PerScreen ChargeEntry
  reserve : PerWell Nat
  queue : List Request
  arrivals : BitVec 16
  deriving DecidableEq, Repr

/-! ## SC (R101) -/

/-- The Screen Record (R101). -/
structure ScreenRecord where
  state : RakeState
  phase : Option RakePhase
  differential : Nat
  differentialGood : Bool
  charge : ChargeKind
  requestClass : Option RequestClass
  cycleStart : Option Ms
  captureStart : Option Ms
  leaveAt : Option Ms
  cycleAt : Option Ms
  jamAt : Option Ms
  lastCycle : Option Nat
  minCycle : Option Nat
  maxCycle : Option Nat
  baseline : Option Nat
  baselineSum : Nat
  baselineCount : Nat
  slowRun : Nat
  wearReported : Bool
  cyclesThisHour : Nat
  consecutive : Nat
  jams : Nat
  lastJam : JamCause
  blinded : Bool
  outOfService : Bool
  localHold : Bool
  drive : DriveStatus
  intervalAt : Option Ms
  refreshAt : Option Ms
  retryAt : Option Ms
  count : BitVec 8
  deriving DecidableEq, Repr

/-! ## OA (R123) -/

/-- The open-event slot (R123). -/
structure Slot where
  number : Option (BitVec 16)
  start : Ms
  stop : Option Ms
  volume : Nat
  accumulator : Nat
  peakFlow : Nat
  peakHead : Int
  lastSpill : Ms
  confirmClock : Nat
  causes : CauseFlags
  flags : QualityFlags
  gapOpen : Bool
  deriving DecidableEq, Repr

/-- The Overflow Point Record (R123). `previous` holds the previous flow and sample time. -/
structure PointRecord where
  spill : SpillState
  slot : Option Slot
  previous : Option (Nat × Ms)
  cumulative : Nat
  unconfirmed : Nat
  events : BitVec 16
  pendingSwitch : Bool
  deriving DecidableEq, Repr

/-! ## SSU (R137) -/

/-- The station record (R137), and the spill states as OA last delivered them (R139). -/
structure Station where
  state : StationState
  forced : Bool
  holdAt : Option Ms
  tideLock : Bool
  riverSource : RiverSource
  well : PerWell WellState
  blinded : PerScreen Bool
  recoveryAt : PerWell (Option Ms)
  statusWait : PerWell (Option Ms)
  spillSeen : PerPoint SpillState
  deriving DecidableEq, Repr

/-! ## ELR (R149) -/

/-- A record held in the Event Log: its header and body (R150, R189). -/
structure LogRecord where
  sequence : BitVec 16
  timestamp : BitVec 32
  timeUnset : Bool
  body : RecordBody
  deriving DecidableEq, Repr

/-- What ELR holds (R149). `sendRetryAt` is the send-pending flag; `progress` is the part of the round to offer next. -/
structure EventLog where
  records : List LogRecord
  oldestPosition : Nat
  pagesUsed : Nat
  sequence : BitVec 16
  lostOverflow : Nat
  lostAlarm : Nat
  lostNotice : Nat
  lostLost : Nat
  nextToSend : Option (BitVec 16)
  lastSent : Option (BitVec 16)
  sendRetryAt : Option Ms
  reportAt : Option Ms
  timeout : Nat
  expiries : Nat
  linkDown : Bool
  badAcks : Nat
  statusAt : Option Ms
  round : BitVec 8
  progress : Option Nat
  partRetryAt : Option Ms
  deriving DecidableEq, Repr

/-- The log summary of READ_RECORD: every field but the record bodies (R149). -/
structure LogSummary where
  headers : List (BitVec 16 × Nat × BitVec 32 × Bool)
  rest : EventLog
  deriving DecidableEq, Repr

/-! ## MU (chapter 11) -/

/-- The pending commit (R180). -/
inductive Commit where
  | none | scheduled (t : TableId) (req : ReqHead) | storing (t : TableId) (req : ReqHead) (doneAt : Ms)
  deriving DecidableEq, Repr

/-- The two banks of a table and the EMPTY mark of the active one (R177, R182). -/
structure Banks (α : Type) where
  active : α
  inactive : α
  isEmpty : Bool
  deriving DecidableEq, Repr

/-- The banked tables. -/
structure Tables where
  sampleMap : Banks SampleMap
  levelVolume : PerWell (Banks LevelVolume)
  pumpCurves : Banks PumpCurves
  weir : Banks Weir
  setup : Banks Setup
  gates : Banks Gates
  sources : Banks Sources
  deriving DecidableEq, Repr

/-- A copy in the non-volatile store (R182). -/
structure StoreCopy where
  contents : TableContents
  generation : BitVec 32
  check : BitVec 16
  deriving DecidableEq, Repr

/-- The two copies of one table; a copy never written, or torn, is `none` and fails its check. -/
structure CopyPair where
  first : Option StoreCopy
  second : Option StoreCopy
  deriving DecidableEq, Repr

/-- The non-volatile store (R182). -/
structure Store where
  sampleMap : CopyPair
  levelVolume : PerWell CopyPair
  pumpCurves : CopyPair
  weir : CopyPair
  setup : CopyPair
  gates : CopyPair
  sources : CopyPair
  deriving DecidableEq, Repr

/-- What a power loss leaves of a store copy being overwritten (R182): it may stand as before, hold neither, or be
written. -/
inductive TornWrite where
  | before | torn | written
  deriving DecidableEq, Repr, Inhabited

/-- What MU holds beside the tables and the store. -/
structure Management where
  lockLevel : Nat
  clock : BitVec 32
  timeUnset : Bool
  clockAt : Option Ms
  commit : Commit
  restartWaiting : Option ReqHead
  deriving DecidableEq, Repr

/-! ## Frames the part originates (R171) -/

/-- What READ_RECORD returns (R179): the record as its owner holds it. For a pump its rotation position and setup copies
come with it, for the budget the computed weights, for the loop the numbers of frames in the queues. -/
inductive RecordImage where
  | well (r : WellRecord)
  | pump (r : PumpRecord) (position : Option Nat) (assignment : Coded Assignment) (kind : Coded PumpKind)
      (setupCopies : List Int) (policy : Coded ExhaustionPolicy)
  | screen (r : ScreenRecord)
  | point (quantity : Quantity) (well : Well) (r : PointRecord)
  | channel (q : Quantity) (r : ChannelRecord)
  | budget (r : Budget) (capacity committed releasing : Nat)
  | log (r : LogSummary)
  | loop (ownAddress : Nat) (frames : Nat × Nat × Nat) (consecutiveForwards : Nat) (ownSequence : BitVec 6)
      (counts : List Nat) (loopSilent : Bool) (silenceAt : Option Ms)
  | station (r : Station) (clock : BitVec 32) (timeUnset : Bool) (lockLevel : Nat) (commit : Commit)
  deriving DecidableEq, Repr

/-- The data of an MGMT_RSP. -/
inductive RspData where
  | none
  | written (count : Nat)
  | entries (count : Nat) (standing : Standing) (list : List TableEntry)
  | failing (sect : Section) (index : Nat)
  | pump (p : Pump)
  | screen (k : Screen)
  | record (part parts : Nat) (image : RecordImage)
  deriving DecidableEq, Repr

/-- The payload of a frame the part originates, by kind. -/
inductive OutPayload where
  | driveCmd (action : DriveAction) (speed : Nat) (count : BitVec 8)
  | cadence (cls : StationState) (reference : Option Nat)
  | refusal (drive : Addr) (action : DriveAction) (reason : RefusalReason)
  | mgmtRsp (tag : BitVec 8) (result : ResultCode) (data : RspData)
  | report (r : LogRecord)
  | status (round : BitVec 8) (part : StatusPart)
  deriving DecidableEq, Repr

/-- A frame the part originates, with its header completed at placement (R171): its authority is 0 and its check is
computed from it. -/
structure OutFrame where
  destination : Addr
  source : Addr
  sequence : BitVec 6
  payload : OutPayload
  deriving DecidableEq, Repr

/-- A frame leaving at LOOP OUT: one forwarded, or one inserted. -/
inductive LineFrame where
  | forwarded (f : RawFrame) | inserted (f : OutFrame)
  deriving DecidableEq, Repr

/-! ## LP (R165) -/

/-- The Loop Record (R165), with the frame LOOP OUT carries (R173). -/
structure Loop where
  ownAddress : Nat
  forward : List RawFrame
  control : List OutFrame
  general : List OutFrame
  consecutiveForwards : Nat
  ownSequence : BitVec 6
  checkErrors : Nat
  headerErrors : Nat
  overruns : Nat
  responseDrops : Nat
  broadcastCommands : Nat
  loopSilent : Bool
  silenceAt : Option Ms
  sending : Option LineFrame
  deriving DecidableEq, Repr

end Sys2Proof.Machine
end

