-- ==== Sys2Proof/Config.lean ====
section
/-! DEFINITION. The free values: what the manual does not fix. Each is an opaque constant, so nothing can be proved of
its value. The first group is the bytes the opening file says are "not given in this manual" (log entry 8); the second
the open values of the non-volatile store (log entry 3). -/

namespace Sys2Proof

open Sys2Proof.Machine

/-! ## Codes and arguments read from bytes -/

/-- The supply a SUPPLY_STAT payload names, if it names MAINS, GENERATOR or NONE. -/
opaque Config.supplyField : List Byte → Option Supply
/-- The table a code byte names. -/
opaque Config.tableOfCode : Byte → Option TableId
/-- The table a TABLE_DISCARD or TABLE_COMMIT names. -/
opaque Config.tableArg : List Byte → Option TableId
/-- The record and part a READ_RECORD names. -/
opaque Config.recordArg : List Byte → Option (RecordName × Nat)
/-- The gate an INVOKE_GATE names. -/
opaque Config.gateArg : List Byte → Option Nat
/-- The level a SET_LOCK_LEVEL carries. -/
opaque Config.lockArg : List Byte → Option Nat
/-- The time a SET_TIME carries. -/
opaque Config.timeArg : List Byte → Option (BitVec 32)
/-- Codes of quantities, setup values, gate actions, targets and comparisons. -/
opaque Config.quantityOfCode : Nat → Option Quantity
opaque Config.assignmentOfCode : Int → Option Assignment
opaque Config.pumpKindOfCode : Int → Option PumpKind
opaque Config.policyOfCode : Int → Option ExhaustionPolicy
opaque Config.gateActionOfCode : Nat → Option GateAction
opaque Config.gateTargetOfCode : GateAction → Nat → Option GateTarget
opaque Config.comparisonOfCode : Nat → Option Comparison

/-! ## Bytes of what the part sends -/

opaque Config.cadenceBytes : StationState → Option Nat → List Byte
opaque Config.refusalBytes : Addr → DriveAction → RefusalReason → List Byte
opaque Config.statusBytes : BitVec 8 → StatusPart → List Byte
/-- The data of an MGMT_RSP whose layout is not given; no more than 46 bytes of it are sent (section 12.2). -/
opaque Config.rspDataBytes : RspData → List Byte
/-- The codes a table read returns for names, and for the bank's standing. -/
opaque Config.quantityCode : Quantity → Byte
opaque Config.assignmentCode : Assignment → BitVec 32
opaque Config.pumpKindCode : PumpKind → BitVec 32
opaque Config.policyCode : ExhaustionPolicy → BitVec 32
opaque Config.gateActionCode : GateAction → Byte
opaque Config.gateTargetCode : GateTarget → Byte
opaque Config.comparisonCode : Comparison → Byte
opaque Config.standingCode : Standing → Byte
/-- A byte of the body, by its place, of a record whose layout is not given; the length is the kind's (R189). -/
opaque Config.recordBodyByte : RecordBody → Nat → Byte
/-- How many parts a record is read in, beyond the first (R179). -/
opaque Config.recordPartsBeyondFirst : RecordImage → Nat

/-! ## The non-volatile store -/

/-- The bytes over which a store copy's check is computed (R182). -/
opaque Config.storeImage : TableContents → BitVec 32 → List Byte
/-- The n-th store write's length in ms, read modulo 201: "up to 200 ms" (R181). -/
opaque Config.storeWriteMs : Nat → Nat
/-- What a power loss leaves of a copy being written. -/
opaque Config.tornWrite : Nat → TornWrite

end Sys2Proof
end

