-- ==== Sys2Proof/Machine/SetupTable.lean ====
section
/-! DEFINITION. The Station Setup as a table of numbered values (R177): its keys in index order, what each index holds,
the ranges and defaults of R10, R16, R20, R46, R68, R87, R100, R120, R136 and R148, and the conditions a commit checks
(R180). -/

namespace Sys2Proof.Machine

/-- One Station Setup value (R177). Levels of a series are numbered from 1. -/
inductive SetupKey where
  | surgeBlanking
  | referenceInterval
  | disagreement (w : Well)
  | highFloat (w : Well)
  | lowFloat (w : Well)
  | balanceInterval (w : Well)
  | smoothing (w : Well)
  | dischargeInvert
  | well (p : Pump)
  | kind (p : Pump)
  | drive (p : Pump)
  | startWeight (p : Pump)
  | runWeight (p : Pump)
  | minRun (p : Pump)
  | minRest (p : Pump)
  | dryLevel (p : Pump)
  | startLevels (w : Well) (n : Nat)
  | stopLevels (w : Well) (n : Nat)
  | maxRunning (w : Well)
  | restrictedStop (w : Well)
  | manualLevel
  | startConfirm (p : Pump)
  | startsPerHour (p : Pump)
  | attemptLimit (p : Pump)
  | policy (p : Pump)
  | skipTime (p : Pump)
  | minSpeed (p : Pump)
  | speedGain (p : Pump)
  | slotTime
  | refreshPeriod
  | deadHeadTime
  | mainsCapacity
  | generatorCapacity
  | supplyMonitor
  | rakeDrive (k : Screen)
  | rakeStartWeight (k : Screen)
  | rakeRunWeight (k : Screen)
  | rakeStartDiff (k : Screen)
  | stopDiff (k : Screen)
  | criticalDiff (k : Screen)
  | blindingDiff (k : Screen)
  | leaveTime (k : Screen)
  | maxCycle (k : Screen)
  | reverseTime (k : Screen)
  | pauseTime (k : Screen)
  | jamLimit (k : Screen)
  | dryInterval
  | stormInterval
  | crest (o : Point)
  | deadBand (o : Point)
  | openConfirm (o : Point)
  | closeConfirm (o : Point)
  | stormLevel (w : Well)
  | stormInflow (w : Well)
  | stormHold
  | tideLock
  | riverFallback
  | recoveryTime
  | telemetryNode
  deriving DecidableEq, Repr

/-- The values of one well's series, in order. -/
def seriesKeys (f : Well → Nat → SetupKey) : List SetupKey :=
  Well.all.flatMap fun w => [1, 2, 3, 4].map (f w)

/-- All values in index order: 0 is the surge blanking time (R177). -/
def SetupKey.rows : List (List SetupKey) :=
  [[.surgeBlanking], [.referenceInterval], Well.all.map .disagreement, Well.all.map .highFloat,
   Well.all.map .lowFloat, Well.all.map .balanceInterval, Well.all.map .smoothing, [.dischargeInvert],
   Pump.all.map .well, Pump.all.map .kind, Pump.all.map .drive, Pump.all.map .startWeight, Pump.all.map .runWeight,
   Pump.all.map .minRun, Pump.all.map .minRest, Pump.all.map .dryLevel, seriesKeys .startLevels,
   seriesKeys .stopLevels, Well.all.map .maxRunning, Well.all.map .restrictedStop, [.manualLevel],
   Pump.all.map .startConfirm, Pump.all.map .startsPerHour, Pump.all.map .attemptLimit, Pump.all.map .policy,
   Pump.all.map .skipTime, Pump.all.map .minSpeed, Pump.all.map .speedGain, [.slotTime], [.refreshPeriod],
   [.deadHeadTime], [.mainsCapacity], [.generatorCapacity], [.supplyMonitor], Screen.all.map .rakeDrive,
   Screen.all.map .rakeStartWeight, Screen.all.map .rakeRunWeight, Screen.all.map .rakeStartDiff,
   Screen.all.map .stopDiff, Screen.all.map .criticalDiff, Screen.all.map .blindingDiff, Screen.all.map .leaveTime,
   Screen.all.map .maxCycle, Screen.all.map .reverseTime, Screen.all.map .pauseTime, Screen.all.map .jamLimit,
   [.dryInterval], [.stormInterval], Point.all.map .crest, Point.all.map .deadBand, Point.all.map .openConfirm,
   Point.all.map .closeConfirm, Well.all.map .stormLevel, Well.all.map .stormInflow, [.stormHold], [.tideLock],
   [.riverFallback], [.recoveryTime], [.telemetryNode]]

/-- All values, one list. -/
def SetupKey.all : List SetupKey := SetupKey.rows.flatten

/-- The range of a numeric value; a value that is one of a list has none. -/
def SetupKey.range : SetupKey → Option (Int × Int)
  | .surgeBlanking => some (0, 30)
  | .referenceInterval => some (1, 24)
  | .disagreement _ => some (10, 1000)
  | .highFloat _ => some (-5000, 15000)
  | .lowFloat _ => some (-5000, 15000)
  | .balanceInterval _ => some (5, 60)
  | .smoothing _ => some (0, 4)
  | .dischargeInvert => some (-5000, 15000)
  | .well _ => none
  | .kind _ => none
  | .drive _ => some (1, 62)
  | .startWeight _ => some (1, 15)
  | .runWeight _ => some (1, 15)
  | .minRun _ => some (30, 1800)
  | .minRest _ => some (30, 1800)
  | .dryLevel _ => some (-5000, 15000)
  | .startLevels _ _ => some (-5000, 15000)
  | .stopLevels _ _ => some (-5000, 15000)
  | .maxRunning _ => some (1, 4)
  | .restrictedStop _ => some (-5000, 15000)
  | .manualLevel => some (0, 3)
  | .startConfirm _ => some (5, 120)
  | .startsPerHour _ => some (1, 12)
  | .attemptLimit _ => some (1, 15)
  | .policy _ => none
  | .skipTime _ => some (1, 240)
  | .minSpeed _ => some (30, 100)
  | .speedGain _ => some (0, 100)
  | .slotTime => some (5, 60)
  | .refreshPeriod => some (1, 30)
  | .deadHeadTime => some (5, 120)
  | .mainsCapacity => some (0, 63)
  | .generatorCapacity => some (0, 63)
  | .supplyMonitor => some (1, 62)
  | .rakeDrive _ => some (1, 62)
  | .rakeStartWeight _ => some (1, 15)
  | .rakeRunWeight _ => some (1, 15)
  | .rakeStartDiff _ => some (10, 2000)
  | .stopDiff _ => some (0, 2000)
  | .criticalDiff _ => some (10, 5000)
  | .blindingDiff _ => some (10, 5000)
  | .leaveTime _ => some (5, 60)
  | .maxCycle _ => some (10, 600)
  | .reverseTime _ => some (1, 30)
  | .pauseTime _ => some (1, 120)
  | .jamLimit _ => some (1, 8)
  | .dryInterval => some (5, 240)
  | .stormInterval => some (1, 60)
  | .crest _ => some (-5000, 15000)
  | .deadBand _ => some (0, 50)
  | .openConfirm _ => some (5, 300)
  | .closeConfirm _ => some (60, 3600)
  | .stormLevel _ => some (-5000, 15000)
  | .stormInflow _ => some (0, 50000)
  | .stormHold => some (5, 240)
  | .tideLock => some (-5000, 15000)
  | .riverFallback => some (-5000, 15000)
  | .recoveryTime => some (10, 600)
  | .telemetryNode => some (1, 62)

/-- The value a key holds (R177). -/
def setupGet (t : Setup) : SetupKey → SetupValue
  | .surgeBlanking => .num t.surgeBlanking
  | .referenceInterval => .num t.referenceInterval
  | .disagreement w => .num (t.disagreement.get w)
  | .highFloat w => .num (t.highFloat.get w)
  | .lowFloat w => .num (t.lowFloat.get w)
  | .balanceInterval w => .num (t.balanceInterval.get w)
  | .smoothing w => .num (t.smoothing.get w)
  | .dischargeInvert => .num t.dischargeInvert
  | .well p => .well (t.well.get p)
  | .kind p => .kind (t.kind.get p)
  | .drive p => .num (t.drive.get p)
  | .startWeight p => .num (t.startWeight.get p)
  | .runWeight p => .num (t.runWeight.get p)
  | .minRun p => .num (t.minRun.get p)
  | .minRest p => .num (t.minRest.get p)
  | .dryLevel p => .num (t.dryLevel.get p)
  | .startLevels w n => .num ((t.startLevels.get w).get n)
  | .stopLevels w n => .num ((t.stopLevels.get w).get n)
  | .maxRunning w => .num (t.maxRunning.get w)
  | .restrictedStop w => .num (t.restrictedStop.get w)
  | .manualLevel => .num t.manualLevel
  | .startConfirm p => .num (t.startConfirm.get p)
  | .startsPerHour p => .num (t.startsPerHour.get p)
  | .attemptLimit p => .num (t.attemptLimit.get p)
  | .policy p => .policy (t.policy.get p)
  | .skipTime p => .num (t.skipTime.get p)
  | .minSpeed p => .num (t.minSpeed.get p)
  | .speedGain p => .num (t.speedGain.get p)
  | .slotTime => .num t.slotTime
  | .refreshPeriod => .num t.refreshPeriod
  | .deadHeadTime => .num t.deadHeadTime
  | .mainsCapacity => .num t.mainsCapacity
  | .generatorCapacity => .num t.generatorCapacity
  | .supplyMonitor => .num t.supplyMonitor
  | .rakeDrive k => .num (t.rakeDrive.get k)
  | .rakeStartWeight k => .num (t.rakeStartWeight.get k)
  | .rakeRunWeight k => .num (t.rakeRunWeight.get k)
  | .rakeStartDiff k => .num (t.rakeStartDiff.get k)
  | .stopDiff k => .num (t.stopDiff.get k)
  | .criticalDiff k => .num (t.criticalDiff.get k)
  | .blindingDiff k => .num (t.blindingDiff.get k)
  | .leaveTime k => .num (t.leaveTime.get k)
  | .maxCycle k => .num (t.maxCycle.get k)
  | .reverseTime k => .num (t.reverseTime.get k)
  | .pauseTime k => .num (t.pauseTime.get k)
  | .jamLimit k => .num (t.jamLimit.get k)
  | .dryInterval => .num t.dryInterval
  | .stormInterval => .num t.stormInterval
  | .crest o => .num (t.crest.get o)
  | .deadBand o => .num (t.deadBand.get o)
  | .openConfirm o => .num (t.openConfirm.get o)
  | .closeConfirm o => .num (t.closeConfirm.get o)
  | .stormLevel w => .num (t.stormLevel.get w)
  | .stormInflow w => .num (t.stormInflow.get w)
  | .stormHold => .num t.stormHold
  | .tideLock => .num t.tideLock
  | .riverFallback => .num t.riverFallback
  | .recoveryTime => .num t.recoveryTime
  | .telemetryNode => .num t.telemetryNode

/-- The number of an entry; a name's entry in a numeric place counts as out of every range. -/
def setupNum : SetupValue → Int
  | .num v => v
  | _ => -100000
def setupWell : SetupValue → Coded Assignment
  | .well v => v
  | _ => .unnamed 255
def setupKind : SetupValue → Coded PumpKind
  | .kind v => v
  | _ => .unnamed 255
def setupPolicy : SetupValue → Coded ExhaustionPolicy
  | .policy v => v
  | _ => .unnamed 255

/-- Writing a value at a key (R178): stored whatever it is. -/
def setupPut (t : Setup) (key : SetupKey) (v : SetupValue) : Setup :=
  match key with
  | .surgeBlanking => { t with surgeBlanking := setupNum v }
  | .referenceInterval => { t with referenceInterval := setupNum v }
  | .disagreement w => { t with disagreement := t.disagreement.set w (setupNum v) }
  | .highFloat w => { t with highFloat := t.highFloat.set w (setupNum v) }
  | .lowFloat w => { t with lowFloat := t.lowFloat.set w (setupNum v) }
  | .balanceInterval w => { t with balanceInterval := t.balanceInterval.set w (setupNum v) }
  | .smoothing w => { t with smoothing := t.smoothing.set w (setupNum v) }
  | .dischargeInvert => { t with dischargeInvert := setupNum v }
  | .well p => { t with well := t.well.set p (setupWell v) }
  | .kind p => { t with kind := t.kind.set p (setupKind v) }
  | .drive p => { t with drive := t.drive.set p (setupNum v) }
  | .startWeight p => { t with startWeight := t.startWeight.set p (setupNum v) }
  | .runWeight p => { t with runWeight := t.runWeight.set p (setupNum v) }
  | .minRun p => { t with minRun := t.minRun.set p (setupNum v) }
  | .minRest p => { t with minRest := t.minRest.set p (setupNum v) }
  | .dryLevel p => { t with dryLevel := t.dryLevel.set p (setupNum v) }
  | .startLevels w n => { t with startLevels := t.startLevels.set w ((t.startLevels.get w).set n (setupNum v)) }
  | .stopLevels w n => { t with stopLevels := t.stopLevels.set w ((t.stopLevels.get w).set n (setupNum v)) }
  | .maxRunning w => { t with maxRunning := t.maxRunning.set w (setupNum v) }
  | .restrictedStop w => { t with restrictedStop := t.restrictedStop.set w (setupNum v) }
  | .manualLevel => { t with manualLevel := setupNum v }
  | .startConfirm p => { t with startConfirm := t.startConfirm.set p (setupNum v) }
  | .startsPerHour p => { t with startsPerHour := t.startsPerHour.set p (setupNum v) }
  | .attemptLimit p => { t with attemptLimit := t.attemptLimit.set p (setupNum v) }
  | .policy p => { t with policy := t.policy.set p (setupPolicy v) }
  | .skipTime p => { t with skipTime := t.skipTime.set p (setupNum v) }
  | .minSpeed p => { t with minSpeed := t.minSpeed.set p (setupNum v) }
  | .speedGain p => { t with speedGain := t.speedGain.set p (setupNum v) }
  | .slotTime => { t with slotTime := setupNum v }
  | .refreshPeriod => { t with refreshPeriod := setupNum v }
  | .deadHeadTime => { t with deadHeadTime := setupNum v }
  | .mainsCapacity => { t with mainsCapacity := setupNum v }
  | .generatorCapacity => { t with generatorCapacity := setupNum v }
  | .supplyMonitor => { t with supplyMonitor := setupNum v }
  | .rakeDrive k => { t with rakeDrive := t.rakeDrive.set k (setupNum v) }
  | .rakeStartWeight k => { t with rakeStartWeight := t.rakeStartWeight.set k (setupNum v) }
  | .rakeRunWeight k => { t with rakeRunWeight := t.rakeRunWeight.set k (setupNum v) }
  | .rakeStartDiff k => { t with rakeStartDiff := t.rakeStartDiff.set k (setupNum v) }
  | .stopDiff k => { t with stopDiff := t.stopDiff.set k (setupNum v) }
  | .criticalDiff k => { t with criticalDiff := t.criticalDiff.set k (setupNum v) }
  | .blindingDiff k => { t with blindingDiff := t.blindingDiff.set k (setupNum v) }
  | .leaveTime k => { t with leaveTime := t.leaveTime.set k (setupNum v) }
  | .maxCycle k => { t with maxCycle := t.maxCycle.set k (setupNum v) }
  | .reverseTime k => { t with reverseTime := t.reverseTime.set k (setupNum v) }
  | .pauseTime k => { t with pauseTime := t.pauseTime.set k (setupNum v) }
  | .jamLimit k => { t with jamLimit := t.jamLimit.set k (setupNum v) }
  | .dryInterval => { t with dryInterval := setupNum v }
  | .stormInterval => { t with stormInterval := setupNum v }
  | .crest o => { t with crest := t.crest.set o (setupNum v) }
  | .deadBand o => { t with deadBand := t.deadBand.set o (setupNum v) }
  | .openConfirm o => { t with openConfirm := t.openConfirm.set o (setupNum v) }
  | .closeConfirm o => { t with closeConfirm := t.closeConfirm.set o (setupNum v) }
  | .stormLevel w => { t with stormLevel := t.stormLevel.set w (setupNum v) }
  | .stormInflow w => { t with stormInflow := t.stormInflow.set w (setupNum v) }
  | .stormHold => { t with stormHold := setupNum v }
  | .tideLock => { t with tideLock := setupNum v }
  | .riverFallback => { t with riverFallback := setupNum v }
  | .recoveryTime => { t with recoveryTime := setupNum v }
  | .telemetryNode => { t with telemetryNode := setupNum v }

/-- The defaults stated with each value (R182). -/
def Setup.defaults : Setup where
  surgeBlanking := 3
  referenceInterval := 6
  disagreement := ⟨100, 100⟩
  highFloat := ⟨4200, 4200⟩
  lowFloat := ⟨600, 600⟩
  balanceInterval := ⟨10, 10⟩
  smoothing := ⟨2, 2⟩
  dischargeInvert := 4500
  well := ⟨.name (.well .a), .name (.well .a), .name (.well .a), .name (.well .a), .name (.well .b), .name (.well .b)⟩
  kind := ⟨.name .variable, .name .fixed, .name .fixed, .name .fixed, .name .variable, .name .fixed⟩
  drive := ⟨21, 22, 23, 24, 25, 26⟩
  startWeight := ⟨4, 8, 8, 8, 4, 8⟩
  runWeight := ⟨3, 3, 3, 3, 3, 3⟩
  minRun := ⟨120, 120, 120, 120, 120, 120⟩
  minRest := ⟨180, 180, 180, 180, 180, 180⟩
  dryLevel := ⟨800, 800, 800, 800, 800, 800⟩
  startLevels := ⟨⟨1800, 2200, 2600, 3000⟩, ⟨1800, 2300, 2800, 3300⟩⟩
  stopLevels := ⟨⟨900, 1300, 1700, 2100⟩, ⟨900, 1400, 1900, 2400⟩⟩
  maxRunning := ⟨3, 2⟩
  restrictedStop := ⟨1500, 1500⟩
  manualLevel := 1
  startConfirm := ⟨20, 20, 20, 20, 20, 20⟩
  startsPerHour := ⟨6, 6, 6, 6, 6, 6⟩
  attemptLimit := ⟨4, 4, 4, 4, 4, 4⟩
  policy := ⟨.name .lockout, .name .lockout, .name .lockout, .name .lockout, .name .lockout, .name .lockout⟩
  skipTime := ⟨30, 30, 30, 30, 30, 30⟩
  minSpeed := ⟨40, 40, 40, 40, 40, 40⟩
  speedGain := ⟨20, 20, 20, 20, 20, 20⟩
  slotTime := 15
  refreshPeriod := 5
  deadHeadTime := 20
  mainsCapacity := 48
  generatorCapacity := 24
  supplyMonitor := 30
  rakeDrive := ⟨27, 28, 29⟩
  rakeStartWeight := ⟨4, 4, 4⟩
  rakeRunWeight := ⟨3, 3, 3⟩
  rakeStartDiff := ⟨150, 150, 150⟩
  stopDiff := ⟨60, 60, 60⟩
  criticalDiff := ⟨400, 400, 400⟩
  blindingDiff := ⟨600, 600, 600⟩
  leaveTime := ⟨15, 15, 15⟩
  maxCycle := ⟨90, 90, 90⟩
  reverseTime := ⟨5, 5, 5⟩
  pauseTime := ⟨10, 10, 10⟩
  jamLimit := ⟨3, 3, 3⟩
  dryInterval := 60
  stormInterval := 10
  crest := ⟨4900, 4700⟩
  deadBand := ⟨5, 5⟩
  openConfirm := ⟨30, 30⟩
  closeConfirm := ⟨600, 600⟩
  stormLevel := ⟨3400, 3700⟩
  stormInflow := ⟨1500, 1500⟩
  stormHold := 30
  tideLock := 7500
  riverFallback := 7000
  recoveryTime := 60
  telemetryNode := 40

/-! ## What a commit checks -/

/-- The pump is fitted in this bank. -/
def setupFitted (t : Setup) (p : Pump) : Bool :=
  match t.well.get p with
  | .name (.well _) => true
  | _ => false

/-- The well a pump is assigned to, if any (R46). -/
def setupWellOf (t : Setup) (p : Pump) : Option Well :=
  match t.well.get p with
  | .name (.well w) => some w
  | _ => none

/-- The pumps before p in pump number. -/
def pumpsBefore (p : Pump) : List Pump := Pump.all.take p.index

def screensBefore (k : Screen) : List Screen := Screen.all.take k.index

/-- The value lies within its range (R46, R68, ...). -/
def setupInRange (t : Setup) (key : SetupKey) : Bool :=
  match setupGet t key with
  | .num v => match key.range with
    | some (lo, hi) => decide (lo ≤ v ∧ v ≤ hi)
    | none => false
  | .well c => match c with
    | .name _ => true
    | .unnamed _ => false
  | .kind c => match c with
    | .name _ => true
    | .unnamed _ => false
  | .policy c => match c with
    | .name _ => true
    | .unnamed _ => false

/-- A condition between this value and one earlier in table order holds: the failing entry of a broken condition is the
later of its two (R180). The conditions are those of R20, R46 and R100. -/
def setupPairHolds (t : Setup) : SetupKey → Bool
  | .lowFloat w => decide (t.lowFloat.get w < t.highFloat.get w)
  | .well p =>
    match setupWellOf t p with
    | some w => decide (((pumpsBefore p).filter fun q => setupWellOf t q == some w).length < 4)
    | none => true
  | .drive p =>
    !(setupFitted t p) || (pumpsBefore p).all fun q => !(setupFitted t q) || t.drive.get q != t.drive.get p
  | .runWeight p => decide (t.runWeight.get p ≤ t.startWeight.get p)
  | .startLevels w n => n == 1 || decide ((t.startLevels.get w).get (n - 1) < (t.startLevels.get w).get n)
  | .stopLevels w n =>
    (n == 1 || decide ((t.stopLevels.get w).get (n - 1) < (t.stopLevels.get w).get n))
      && decide ((t.stopLevels.get w).get n < (t.startLevels.get w).get n)
  | .rakeDrive k =>
    ((screensBefore k).all fun j => t.rakeDrive.get j != t.rakeDrive.get k)
      && (Pump.all.all fun p => !(setupFitted t p) || t.drive.get p != t.rakeDrive.get k)
      && t.rakeDrive.get k != t.supplyMonitor
  | .rakeRunWeight k => decide (t.rakeRunWeight.get k ≤ t.rakeStartWeight.get k)
  | .stopDiff k => decide (t.stopDiff.get k < t.rakeStartDiff.get k)
  | .criticalDiff k => decide (t.rakeStartDiff.get k ≤ t.criticalDiff.get k)
  | .blindingDiff k => decide (t.criticalDiff.get k ≤ t.blindingDiff.get k)
  | _ => true

/-- The index of the first value that breaks a condition (R180). -/
def setupFirstFailing (t : Setup) : Option Nat :=
  SetupKey.all.findIdx? fun key => !(setupInRange t key && setupPairHolds t key)

end Sys2Proof.Machine

namespace Sys2Proof

open Sys2Proof.Machine

def Setup.fitted (t : Setup) (p : Pump) : Bool := setupFitted t p
def Setup.wellOf (t : Setup) (p : Pump) : Option Well := setupWellOf t p
def Setup.isVariable (t : Setup) (p : Pump) : Bool := t.kind.get p == .name .variable

/-- The fitted pumps of a well, in ascending number. -/
def Setup.pumpsOf (t : Setup) (w : Well) : List Pump := Pump.all.filter fun p => t.wellOf p == some w

end Sys2Proof
end

