-- ==== Sys2Proof/Machine/Frames.lean ====
section
/-! DEFINITION. The bytes of chapter 12: the check of a frame, the fields of headers and payloads, and the bytes of what the part
sends. Codes the manual does not give are read and written by the free functions of Config. -/

namespace Sys2Proof.Machine

/-! ## The check (R166) -/

/-- One bit of the cyclic redundancy code with generator x^16 + x^12 + x^5 + 1, most significant bit first. -/
def crcShift (r : BitVec 16) : BitVec 16 :=
  if r.msb then (r <<< 1) ^^^ 0x1021#16 else r <<< 1

/-- One byte of the code: the byte enters at the top of the register, then eight shifts. -/
def crcByte (r : BitVec 16) (b : Byte) : BitVec 16 :=
  let x := r ^^^ (b.zeroExtend 16 <<< 8)
  crcShift (crcShift (crcShift (crcShift (crcShift (crcShift (crcShift (crcShift x)))))))

/-- The check over bytes: the register starts at all ones, and is neither reflected nor inverted (R166). -/
def crc16 (bytes : List Byte) : BitVec 16 := bytes.foldl crcByte 0xFFFF#16

/-- Bytes 0 to 4 + n of a frame (section 12.1). -/
def rawCovered (f : RawFrame) : List Byte :=
  f.destination :: f.source :: f.kind :: f.control :: f.length :: f.payload

/-- The payload length lets LP locate the check, and the check is the computed one (R166). -/
def goodCheck (f : RawFrame) : Bool :=
  decide (f.length.toNat ≤ 48) && f.check == crc16 (rawCovered f)

/-! ## Header fields (section 12.1) -/

def rawAuthority (f : RawFrame) : Nat := (f.control >>> 6).toNat
def rawSequence (f : RawFrame) : BitVec 6 := f.control.truncate 6
def rawDestination (f : RawFrame) : Addr := f.destination.toNat
def rawSource (f : RawFrame) : Addr := f.source.toNat

/-- An address no node may hold, or one with bit 7 or 6 set: destination 0, source 0 or 63 (R166, R187). -/
def addressesUnusable (f : RawFrame) : Bool :=
  decide (rawDestination f = 0 ∨ 63 < rawDestination f ∨ rawSource f = 0 ∨ 63 ≤ rawSource f)

/-- The kinds of section 12.1. -/
inductive FrameKind where
  | sample | edge | cadence | driveCmd | driveStat | supplyStat | mgmtReq | mgmtRsp | report | reportAck | status
  | refusal | unknown
  deriving DecidableEq, Repr

def frameKind (b : Byte) : FrameKind :=
  match b.toNat with
  | 1 => .sample | 2 => .edge | 3 => .cadence | 4 => .driveCmd | 5 => .driveStat | 6 => .supplyStat
  | 7 => .mgmtReq | 8 => .mgmtRsp | 9 => .report | 10 => .reportAck | 11 => .status | 12 => .refusal
  | _ => .unknown

/-! ## Numbers of more than one byte: high byte first -/

def word16 (hi lo : Byte) : BitVec 16 := hi ++ lo
def word32 (a b c d : Byte) : BitVec 32 := (a ++ b) ++ (c ++ d)

/-- The bytes of a 16-bit number, high byte first. -/
def bytes16 (v : Nat) : List Byte := [BitVec.ofNat 8 (v / 256), BitVec.ofNat 8 v]
def bytes32 (v : Nat) : List Byte := bytes16 (v / 65536) ++ bytes16 v
def bytes48 (v : Nat) : List Byte := bytes16 (v / 4294967296) ++ bytes32 v

/-! ## Payloads the part takes (section 12.2, R188) -/

/-- One reading of a SAMPLE. -/
structure Reading where
  channel : Nat
  raw : Nat
  range : Bool
  isRef : Bool
  deriving DecidableEq, Repr

/-- A raw field above 4,095 is taken as though RANGE were set; bits 5..4 of byte 0 are ignored (R188). -/
def readingOf (b0 b1 b2 : Byte) : Reading :=
  let raw := (word16 b1 b2).toNat
  ⟨(b0 &&& 0x0F#8).toNat, raw, b0.getLsbD 7 || decide (4095 < raw), b0.getLsbD 6⟩

/-- The readings of whole threes; `none` if bytes are left over. -/
def readingsOf : List Byte → Option (List Reading)
  | [] => some []
  | b0 :: b1 :: b2 :: rest => (readingsOf rest).map (readingOf b0 b1 b2 :: ·)
  | _ => none

/-- A SAMPLE payload: a whole number of readings from 1 to 6 (R6). -/
def sampleReadings (payload : List Byte) : Option (List Reading) :=
  match readingsOf payload with
  | some rs => if rs.length = 0 ∨ 6 < rs.length then none else some rs
  | none => none

/-- An EDGE payload: channel, new state, edge count (R188). -/
def edgeFields : List Byte → Option (Nat × Bool × BitVec 8)
  | [c, st, n] =>
    if 15 < c.toNat ∨ 1 < st.toNat then none else some (c.toNat, st == 1#8, n)
  | _ => none

def tripCauseOf (n : Nat) : TripCause :=
  match n with
  | 0 => .none | 1 => .overload | 2 => .thermal | 3 => .phase | 4 => .moisture | _ => .other

def driveStateOf (n : Nat) : Option DriveState :=
  match n with
  | 0 => some .stopped | 1 => some .starting | 2 => some .running | 3 => some .tripped | 4 => some .localHand
  | 5 => some .float | _ => none

/-- A DRIVE_STAT payload (R188): a trip cause above 5 is OTHER, a speed feedback above 100 is 100. Bits 7 to 1 of the flags are
ignored, the model's choice (log entry 77). -/
def driveReportOf : List Byte → Option DriveReport
  | [st, flags, speed, current, cause] =>
    match driveStateOf st.toNat with
    | some d => some ⟨d, flags.getLsbD 0, min speed.toNat 100, current.toNat, tripCauseOf cause.toNat⟩
    | none => none
  | _ => none

def driveActionOf (n : Nat) : Option DriveAction :=
  match n with
  | 1 => some .run | 2 => some .stop | 3 => some .reverse | 4 => some .float | _ => none

def driveActionCode : DriveAction → Nat
  | .run => 1 | .stop => 2 | .reverse => 3 | .float => 4

/-- The action and speed of a DRIVE_CMD payload; `none` when malformed (R188). -/
def driveCommandOf : List Byte → Option (DriveAction × Nat)
  | [a, speed, _] => (driveActionOf a.toNat).map fun act => (act, speed.toNat)
  | _ => none

/-- The sequence number of a REPORT_ACK: exactly two bytes (R157). -/
def ackSequence : List Byte → Option (BitVec 16)
  | [hi, lo] => some (word16 hi lo)
  | _ => none

/-! ## Management arguments (section 12.2) -/

def signed16 (hi lo : Byte) : Int := (word16 hi lo).toInt

def codedBy {α : Type} (f : Nat → Option α) (code : Nat) : Coded α :=
  match f code with
  | some x => .name x
  | none => .unnamed code

/-- A name of a list value of the Station Setup; a negative code is kept by its two's complement word. -/
def codedSetup {α : Type} (f : Int → Option α) (w : BitVec 32) : Coded α :=
  match f w.toInt with
  | some x => .name x
  | none => .unnamed w.toNat

/-- The setup entry at an index: names where the value is one of a list (R177). -/
def setupEntryOf (index : Nat) (w : BitVec 32) : SetupValue :=
  match SetupKey.all[index]? with
  | some (.well _) => .well (codedSetup Config.assignmentOfCode w)
  | some (.kind _) => .kind (codedSetup Config.pumpKindOfCode w)
  | some (.policy _) => .policy (codedSetup Config.policyOfCode w)
  | _ => .num w.toInt

/-- The 8 bytes of a gate: action 0 marks an empty entry; a precondition quantity of 255 is absent. The other bytes of an empty
entry, and the comparison and constant of an absent precondition, are dropped whatever they hold, the model's choice (log entry
62). An enabled byte of 0 is no, 1 is yes, and any other a code out of range: the model's choice (log entry 76). -/
def gateEntryOf (a t au en q c hi lo : Byte) : Option GateEntry :=
  if a = 0#8 then none
  else
    let action := codedBy Config.gateActionOfCode a.toNat
    let target : GateTarget :=
      match action with
      | .name act => (Config.gateTargetOfCode act t.toNat).getD (.unnamed t.toNat)
      | .unnamed _ => .unnamed t.toNat
    let enabled : Coded Bool := if en = 0#8 then .name false else if en = 1#8 then .name true else .unnamed en.toNat
    let pre : Option Precondition :=
      if q = 255#8 then none
      else some ⟨codedBy Config.quantityOfCode q.toNat, codedBy Config.comparisonOfCode c.toNat, signed16 hi lo⟩
    some ⟨action, target, au.toNat, enabled, pre⟩

/-- The 18 bytes of a Sample Map slot: node address 0 marks an empty slot. Bits 7 to 3 of the options, the bytes of a reference
whose option bit 2 is clear and the other bytes of an empty slot are dropped whatever they hold, the model's choice (log entry
62). -/
def sampleEntryOf : List Byte → Option (Option SampleEntry)
  | [node, ch, q, opt, z1, z0, s1, s0, l1, l0, h1, h0, e1, e0, t1, t0, g1, g0] =>
    if node = 0#8 then some none
    else
      let present := opt.getLsbD 2
      some (some
        { node := node.toNat
          channel := ch.toNat
          quantity := codedBy Config.quantityOfCode q.toNat
          kind := if opt.getLsbD 0 then .discrete else .analog
          zero := signed16 z1 z0
          span := (word16 s1 s0).toNat
          windowLow := (word16 l1 l0).toNat
          windowHigh := (word16 h1 h0).toNat
          expected := if present then some (word16 e1 e0).toNat else none
          tolerance := if present then some (word16 t1 t0).toNat else none
          holdLimit := (word16 g1 g0).toNat
          invert := opt.getLsbD 1 })
  | _ => none

/-- The fixed width of an entry of a table's section (section 12.2). -/
def entryWidth : TableId → Section → Nat
  | .levelVolume _, _ => 4
  | .pumpCurves, _ | .weir, _ => 2
  | .stationSetup, _ => 4
  | .sources, _ => 3
  | .gates, _ => 8
  | .sampleMap, _ => 18

/-- One entry of a table at an index from the bytes of its width. Bits 7 to 3 of a SOURCES entry's permissions and the other
bytes of an empty SOURCES entry are dropped whatever they hold, the model's choice (log entry 62). -/
def entryOf (t : TableId) (sect : Section) (index : Nat) (bs : List Byte) : Option TableEntry :=
  match t, sect, bs with
  | .levelVolume _, .main, [a, b, c, d] => some (.volume (word32 a b c d).toNat)
  | .levelVolume _, .header, [a, b, c, d] => some (.lvHeader (signed16 a b) (word16 c d).toNat)
  | .pumpCurves, _, [a, b] => some (.flow (word16 a b).toNat)
  | .weir, _, [a, b] => some (.flow (word16 a b).toNat)
  | .stationSetup, _, [a, b, c, d] => some (.setup (setupEntryOf index (word32 a b c d)))
  | .sources, _, [a, c, p] =>
    some (.source (if a = 0#8 then none
      else some ⟨a.toNat, c.toNat, p.getLsbD 0, p.getLsbD 1, p.getLsbD 2⟩))
  | .gates, _, [a, b, c, d, e, f, g, h] => some (.gate (gateEntryOf a b c d e f g h))
  | .sampleMap, _, bs => (sampleEntryOf bs).map .sample
  | _, _, _ => none

/-- The index after one step of a direction; `none` below 0 (R178). -/
def nextIndex : Direction → Nat → Option Nat
  | .up, i => some (i + 1)
  | .down, 0 => none
  | .down, i + 1 => some i

/-- `count` entries of the form of the table, one after another, and nothing left over (R178). An entry that will fall
outside the section is read at the last index reached. -/
def entriesOf (t : TableId) (sect : Section) (dir : Direction) : Nat → Nat → List Byte → Option (List TableEntry)
  | 0, _, [] => some []
  | 0, _, _ :: _ => none
  | count + 1, index, bs =>
    let w := entryWidth t sect
    match entryOf t sect index (bs.take w) with
    | some e => (entriesOf t sect dir count ((nextIndex dir index).getD index) (bs.drop w)).map (e :: ·)
    | none => none

def sectionOf (b : Byte) : Option Section := if b = 0#8 then some .main else if b = 1#8 then some .header else none
def directionOf (b : Byte) : Option Direction := if b = 0#8 then some .up else if b = 1#8 then some .down else none
def bankOf (b : Byte) : Option BankName := if b = 0#8 then some .active else if b = 1#8 then some .inactive else none

/-- The arguments of a TABLE_WRITE: five bytes, then the entries. -/
def writeArgsOf : List Byte → Option WriteArgs
  | t :: sect :: start :: dir :: count :: rest =>
    match Config.tableOfCode t, sectionOf sect, directionOf dir with
    | some t, some sect, some dir =>
      (entriesOf t sect dir count.toNat start.toNat rest).map fun es => ⟨t, sect, start.toNat, dir, count.toNat, es⟩
    | _, _, _ => none
  | _ => none

/-- The arguments of a TABLE_READ: five bytes, then the bank. -/
def readArgsOf : List Byte → Option ReadArgs
  | [t, sect, start, dir, count, bank] =>
    match Config.tableOfCode t, sectionOf sect, directionOf dir, bankOf bank with
    | some t, some sect, some dir, some bank => some ⟨t, bank, sect, start.toNat, dir, count.toNat⟩
    | _, _, _, _ => none
  | _ => none

/-- Operations that take no argument. -/
def noArgs : List Byte → Option Unit
  | [] => some ()
  | _ => none

/-- The command a management request's operation and arguments spell. An operation not 1..10 is answered as arguments without
their form are, BAD_ARGUMENT after the checks of source and permission (R176, R188), and travels as such a request (log
entry 22). -/
def requestCommand (h : ReqHead) (op : Byte) (args : List Byte) : Instr :=
  match op.toNat with
  | 1 => .tableWrite h (writeArgsOf args)
  | 2 => .tableRead h (readArgsOf args)
  | 3 => .tableDiscard h (Config.tableArg args)
  | 4 => .tableCommit h (Config.tableArg args)
  | 5 => .readRecord h (Config.recordArg args)
  | 6 => .invokeGate h (Config.gateArg args)
  | 7 => .setLockLevel h (Config.lockArg args)
  | 8 => .setTime h (Config.timeArg args)
  | 9 => .clearCounters h (noArgs args)
  | 10 => .restart h (noArgs args)
  | _ => .readRecord h none

/-! ## Bytes of what the part sends -/

def pointCode : Point → Nat
  | .one => 1 | .two => 2

def flagBits (bits : List Bool) : Byte :=
  BitVec.ofNat 8 ((bits.reverse).foldl (fun acc b => 2 * acc + (if b then 1 else 0)) 0)

def causeBits (c : CauseFlags) : Byte :=
  flagBits [c.allPumpsRunning, c.pumpsUnavailable, c.tideLocked, c.screenBlinded, c.supplyLimited, c.fallback,
    c.sensorDegraded]

def qualityBits (f : QualityFlags) : Byte := flagBits [f.gap, f.estimated, f.tableChanged]

/-- The body of a record (R189). The bytes of the other bodies are not given, but fill the pages of their kind. -/
def bodyBytes : RecordBody → List Byte
  | .overflowOpen point number start peakFlow peakHead volume causes =>
    BitVec.ofNat 8 (pointCode point) :: bytes16 number.toNat ++ [causeBits causes] ++ bytes32 start ++ bytes16 peakFlow
      ++ bytes16 (BitVec.ofInt 16 peakHead).toNat ++ bytes32 volume
  | .overflowClose point number start stop volume peakFlow peakHead causes flags =>
    BitVec.ofNat 8 (pointCode point) :: bytes16 number.toNat ++ [causeBits causes, qualityBits flags] ++ bytes32 start
      ++ bytes32 stop ++ bytes48 volume ++ bytes16 peakFlow ++ bytes16 (BitVec.ofInt 16 peakHead).toNat
      ++ List.replicate 9 0#8
  | .lost o a n l => bytes16 o ++ bytes16 a ++ bytes16 n ++ bytes16 l
  | body => (List.range (8 * body.pages - 8)).map (Config.recordBodyByte body)

/-- A record's header page and body (R189). -/
def recordBytes (r : LogRecord) : List Byte :=
  bytes16 r.sequence.toNat ++ [BitVec.ofNat 8 r.body.kindCode, flagBits [r.timeUnset]] ++ bytes32 r.timestamp.toNat
    ++ bodyBytes r.body

/-- The bytes of a signed 16-bit field. -/
def bytesSigned (v : Int) : List Byte := bytes16 (BitVec.ofInt 16 v).toNat

/-- The byte of a coded field. -/
def codedByte {α : Type} (f : α → Byte) : Coded α → Byte
  | .name x => f x
  | .unnamed code => BitVec.ofNat 8 code

/-- The word of a coded value of the Station Setup. -/
def codedWord {α : Type} (f : α → BitVec 32) : Coded α → BitVec 32
  | .name x => f x
  | .unnamed code => BitVec.ofNat 32 code

/-- The word of a Station Setup value. -/
def setupWord : SetupValue → BitVec 32
  | .num v => BitVec.ofInt 32 v
  | .well v => codedWord Config.assignmentCode v
  | .kind v => codedWord Config.pumpKindCode v
  | .policy v => codedWord Config.policyCode v

/-- The 18 bytes of a used Sample Map slot. -/
def sampleEntryBytes (e : SampleEntry) : List Byte :=
  [BitVec.ofNat 8 e.node, BitVec.ofNat 8 e.channel, codedByte Config.quantityCode e.quantity,
    flagBits [e.kind == .discrete, e.invert, e.expected.isSome]]
    ++ bytesSigned e.zero ++ bytes16 e.span ++ bytes16 e.windowLow ++ bytes16 e.windowHigh
    ++ bytes16 (e.expected.getD 0) ++ bytes16 (e.tolerance.getD 0) ++ bytes16 e.holdLimit

/-- The 8 bytes of a gate. -/
def gateEntryBytes (g : GateEntry) : List Byte :=
  let target := match g.target with
    | .unnamed code => BitVec.ofNat 8 code
    | t => Config.gateTargetCode t
  [codedByte Config.gateActionCode g.action, target, BitVec.ofNat 8 g.authority,
    codedByte (fun b => if b then 1#8 else 0#8) g.enabled]
    ++ match g.precondition with
       | none => [255#8, 0#8, 0#8, 0#8]
       | some x => [codedByte Config.quantityCode x.quantity, codedByte Config.comparisonCode x.comparison]
           ++ bytesSigned x.constant

/-- The bytes of a table entry, in the fixed width of its table and section (section 12.2). -/
def entryBytes : TableEntry → List Byte
  | .sample none => List.replicate 18 0#8
  | .sample (some e) => sampleEntryBytes e
  | .volume v => bytes32 v
  | .lvHeader base stepSize => bytesSigned base ++ bytes16 stepSize
  | .flow v => bytes16 v
  | .setup v => bytes32 (setupWord v).toNat
  | .gate none => List.replicate 8 0#8
  | .gate (some g) => gateEntryBytes g
  | .source none => [0#8, 0#8, 0#8]
  | .source (some e) =>
    [BitVec.ofNat 8 e.address, BitVec.ofNat 8 e.ceiling, flagBits [e.manage, e.manualDrive, e.ackReports]]

/-- The data of an MGMT_RSP (section 12.2): a read's are the count read, the bank's standing and the entries. -/
def rspBytes : RspData → List Byte
  | .none => []
  | .entries count standing list =>
    BitVec.ofNat 8 count :: Config.standingCode standing :: (list.map entryBytes).flatten
  | data => (Config.rspDataBytes data).take 46

def resultCode : ResultCode → Nat
  | .ok => 0 | .notKnown => 1 | .denied => 2 | .badArgument => 3 | .busy => 4 | .outOfRange => 5
  | .invalidTable => 6 | .conflict => 7 | .disabled => 8 | .precondition => 9

/-- The payload bytes of a frame the part originates (section 12.2). A payload is at most 48 bytes long. -/
def payloadBytes : OutPayload → List Byte
  | .driveCmd action speed count => [BitVec.ofNat 8 (driveActionCode action), BitVec.ofNat 8 speed, count]
  | .cadence cls ref => (Config.cadenceBytes cls ref).take 48
  | .refusal drive action reason => (Config.refusalBytes drive action reason).take 48
  | .mgmtRsp tag result data => tag :: BitVec.ofNat 8 (resultCode result) :: rspBytes data
  | .report r => recordBytes r
  | .status round part => (Config.statusBytes round part).take 48

def payloadKind : OutPayload → Nat
  | .driveCmd .. => 4 | .cadence .. => 3 | .refusal .. => 12 | .mgmtRsp .. => 8 | .report .. => 9 | .status .. => 11

/-- A frame the part sends, as it stands on the line: its header completed as R171 states (authority 0), its check
computed. -/
def outRaw (f : OutFrame) : RawFrame :=
  let payload := payloadBytes f.payload
  let r : RawFrame :=
    { destination := BitVec.ofNat 8 f.destination
      source := BitVec.ofNat 8 f.source
      kind := BitVec.ofNat 8 (payloadKind f.payload)
      control := f.sequence.zeroExtend 8
      length := BitVec.ofNat 8 payload.length
      payload := payload
      check := 0 }
  { r with check := crc16 (rawCovered r) }

end Sys2Proof.Machine
end

