-- ==== Sys2Proof/Machine/ResetValues.lean ====
section
/-! DEFINITION. The reset values of each record, as the rule that lists its fields states them. Each function takes what
the value depends on: the active Station Setup, the Sample Map, the time of the reset. -/

namespace Sys2Proof

open Sys2Proof.Machine

/-- A channel record after reset (R4). Its reference interval timer runs when its entry has a reference. -/
def Machine.ChannelRecord.reset (referenceAt : Option Ms) : ChannelRecord where
  value := none
  quality := .lost
  storedAt := none
  arrivedAt := none
  staleAt := none
  holdAt := none
  rejects := 0
  recovery := 0
  edgeCount := none
  awaiting := none
  referenceAt := referenceAt
  referenceRetryAt := none

/-- A Well Record after reset (R19). -/
def Machine.WellRecord.reset (balanceAt : Option Ms) : WellRecord where
  level := none
  quality := .lost
  highFloat := .unknown
  lowFloat := .unknown
  volume := 0
  aboveTable := false
  episode := .none
  established := false
  balanceLevel := none
  balanceVolume := none
  balanceTime := none
  pumpedLitres := 0
  remainder := 0
  integratedAt := none
  flowSet := PerPump.make fun _ => 0
  rawInflow := 0
  smoothedInflow := 0
  inflowGood := false
  negativeBalances := 0
  balanceAt := balanceAt
  pendingLevelVolume := false
  pendingCurves := false

/-- The staged speed a pump leaves reset with: its min speed, or 100 when FIXED (R69). -/
def resetSpeed (t : Setup) (p : Pump) : Nat :=
  if t.isVariable p then (t.minSpeed.get p).toNat else 100

/-- A Pump Record after reset (R43, R69). -/
def Machine.PumpRecord.reset (t : Setup) (now : Ms) (p : Pump) : PumpRecord where
  state := if t.fitted p then .float else .unavailable .notFitted
  owner := if t.fitted p then .float else .auto
  disabled := false
  lockout := false
  interlock := true
  drive := .unknown
  lastReport := none
  silentRunning := false
  statusAt := if t.fitted p then some (now + 15000) else none
  lastTrip := .none
  runStart := none
  stopDeferred := false
  manualSource := none
  runSeconds := 0
  runTickAt := none
  history := []
  attempts := 0
  startAt := none
  stopAt := none
  stopFailed := false
  waitEnd := none
  charge := .none
  staged := resetSpeed t p
  formula := resetSpeed t p
  applied := resetSpeed t p
  manual := none
  deadHeadAt := none
  forcing := false
  refreshAt := if t.fitted p then some (now + t.refreshPeriod.toNat * 1000) else none
  retryAt := none
  count := 0

/-- DC's other state after reset: the lists hold each well's pumps in ascending number (R48), the generator is ACE1 hex
(R74). -/
def Machine.Duty.reset (t : Setup) : Duty where
  rotation := ⟨t.pumpsOf .a, t.pumpsOf .b⟩
  rotationDue := PerWell.of false
  levelDemand := PerWell.of 0
  demand := PerWell.of 0
  newCurves := PerWell.of false
  backoff := 0xACE1#16

/-- An entry that draws nothing (R89). -/
def Machine.ChargeEntry.clear : ChargeEntry := ⟨.none, 0, false⟩

/-- The sum of the running weights of a well's fitted pumps (R89, R92). -/
def reserveOf (t : Setup) (w : Well) : Nat :=
  ((t.pumpsOf w).map fun p => (t.runWeight.get p).toNat).foldl (· + ·) 0

/-- The Budget Record after reset (R89). -/
def Machine.Budget.reset (t : Setup) : Budget where
  supply := .unknown
  pumps := PerPump.make fun _ => .clear
  rakes := PerScreen.of .clear
  reserve := ⟨reserveOf t .a, reserveOf t .b⟩
  queue := []
  arrivals := 0

/-- A screen interval in ms for a station state (R105). -/
def intervalMs (t : Setup) : StationState → Nat
  | .dry => t.dryInterval.toNat * 60000
  | .storm => t.stormInterval.toNat * 60000

/-- A Screen Record after reset (R101). -/
def Machine.ScreenRecord.reset (t : Setup) (now : Ms) (st : StationState) : ScreenRecord where
  state := .parked
  phase := none
  differential := 0
  differentialGood := false
  charge := .none
  requestClass := none
  cycleStart := none
  captureStart := none
  leaveAt := none
  cycleAt := none
  jamAt := none
  lastCycle := none
  minCycle := none
  maxCycle := none
  baseline := none
  baselineSum := 0
  baselineCount := 0
  slowRun := 0
  wearReported := false
  cyclesThisHour := 0
  consecutive := 0
  jams := 0
  lastJam := .none
  blinded := false
  outOfService := false
  localHold := false
  drive := .unknown
  intervalAt := some (now + intervalMs t st)
  refreshAt := some (now + t.refreshPeriod.toNat * 1000)
  retryAt := none
  count := 0

/-- An Overflow Point Record after reset (R123). -/
def Machine.PointRecord.reset : PointRecord where
  spill := .dry
  slot := none
  previous := none
  cumulative := 0
  unconfirmed := 0
  events := 0
  pendingSwitch := false

/-- The tide lock at reset is judged from the river fallback level (R137). -/
def resetTideLock (t : Setup) : Bool := decide (t.tideLock ≤ t.riverFallback)

/-- The station state at reset: STORM if the tide lock is set (R137). -/
def resetStationState (t : Setup) : StationState := if resetTideLock t then .storm else .dry

/-- The station record after reset (R137). -/
def Machine.Station.reset (t : Setup) : Station where
  state := resetStationState t
  forced := false
  holdAt := none
  tideLock := resetTideLock t
  riverSource := .fallback
  well := PerWell.of .fallback
  blinded := PerScreen.of false
  recoveryAt := PerWell.of none
  statusWait := PerWell.of none
  spillSeen := PerPoint.of .dry

/-- The status period (R163). -/
def statusPeriod : StationState → Nat
  | .dry => 300000
  | .storm => 60000

/-- What ELR holds after reset (R149). -/
def Machine.EventLog.reset (now : Ms) (st : StationState) : EventLog where
  records := []
  oldestPosition := 0
  pagesUsed := 0
  sequence := 0
  lostOverflow := 0
  lostAlarm := 0
  lostNotice := 0
  lostLost := 0
  nextToSend := none
  lastSent := none
  sendRetryAt := none
  reportAt := none
  timeout := 30
  expiries := 0
  linkDown := false
  badAcks := 0
  statusAt := some (now + statusPeriod st)
  round := 0
  progress := none
  partRetryAt := none

/-- What MU holds after reset (R176, R180, R185). -/
def Machine.Management.reset (now : Ms) : Management where
  lockLevel := 0
  clock := 0
  timeUnset := true
  clockAt := some (now + 1000)
  commit := .none
  restartWaiting := none

/-- The Loop Record after power-on reset (R165). -/
def Machine.Loop.reset (address : Nat) (now : Ms) : Loop where
  ownAddress := address
  forward := []
  control := []
  general := []
  consecutiveForwards := 0
  ownSequence := 0
  checkErrors := 0
  headerErrors := 0
  overruns := 0
  responseDrops := 0
  broadcastCommands := 0
  loopSilent := false
  silenceAt := some (now + 2000)
  sending := none

/-! ## Tables when no store copy passes (R182) -/

/-- Blank contents: every slot empty, every number 0 (R179). -/
def blankSampleMap : SampleMap := List.replicate 24 none
def blankLevelVolume : LevelVolume := ⟨0, 0, List.replicate 33 0⟩
def blankPumpCurves : PumpCurves := List.replicate 54 0
def blankWeir : Weir := ⟨⟨0, 0⟩, List.replicate 34 0⟩
def blankGates : Gates := List.replicate 32 none
/-- SOURCES with the single entry address 1, ceiling 0, all three permissions (R182), in slot 0: the model's choice of the slot
(log entry 74). -/
def defaultSources : Sources := some ⟨1, 0, true, true, true⟩ :: List.replicate 15 none

variable {α : Type}

/-- Both banks holding one content, valid. -/
def Machine.Banks.valid (x : α) : Banks α := ⟨x, x, false⟩
/-- Both banks blank, the active one EMPTY. -/
def Machine.Banks.empty (x : α) : Banks α := ⟨x, x, true⟩

/-- The tables of a part whose store holds no passing copy (R182). -/
def Machine.Tables.unloaded : Tables where
  sampleMap := .empty blankSampleMap
  levelVolume := PerWell.of (.empty blankLevelVolume)
  pumpCurves := .empty blankPumpCurves
  weir := .empty blankWeir
  setup := .valid Setup.defaults
  gates := .valid blankGates
  sources := .valid defaultSources

/-- A store with no passing copy (log entry 5). -/
def Machine.Store.blank : Store where
  sampleMap := ⟨none, none⟩
  levelVolume := PerWell.of ⟨none, none⟩
  pumpCurves := ⟨none, none⟩
  weir := ⟨none, none⟩
  setup := ⟨none, none⟩
  gates := ⟨none, none⟩
  sources := ⟨none, none⟩

end Sys2Proof
end

