-- ==== Sys2Proof/Machine/State.lean ====
section
/-! DEFINITION. The state of the part: the records of its ten blocks, the events on their way between them, and the queue
of waiting commands. Plain data throughout. -/

namespace Sys2Proof.Machine

/-- The mode the straps select (R164). -/
inductive Mode where
  | full | forwardOnly
  deriving DecidableEq, Repr

/-- The whole part. `raised`, `pending` and `free` are the model's own (log entries 1 and 3); every other field is a
record of a block of 00_scope.md. -/
structure State where
  powered : Bool
  mode : Mode
  now : Ms
  lp : Loop
  channels : PerQuantity ChannelRecord
  nodes : List CadenceState
  blanking : PerWell (Option Ms)
  wells : PerWell WellRecord
  pumps : PerPump PumpRecord
  duty : Duty
  budget : Budget
  screens : PerScreen ScreenRecord
  hourAt : Option Ms
  points : PerPoint PointRecord
  ssu : Station
  elr : EventLog
  mu : Management
  tables : Tables
  store : Store
  raised : List Instr
  pending : List Instr
  free : Nat
  deriving DecidableEq, Repr

/-- The reasons the machine could stop: there is none. The part has no fault that stops it (chapters 1 to 12 describe none);
every failure it describes is a state or a record. No constructor is raised by anything: `impossible` stands only so that
the type has a name to write. Safe: nothing answers with it. -/
inductive Fault where
  /-- A stop that no rule of the spec describes. Raised by no command. Safe. -/
  | impossible
  deriving DecidableEq, Repr

/-- The reasons a command could be refused. -/
inductive Refusal where
  /-- No meaning yet for the command so named. Raised by no arm of this model. Safe. -/
  | notModelled (mnemonic : String)
  deriving DecidableEq, Repr

/-- The FLOAT command a fitted pump's drive is sent at reset (R143): the k-th frame placed, own address `own`. -/
def resetFloat (own : Nat) (t : Setup) (p : Pump) (k : BitVec 6) : OutFrame :=
  ⟨(t.drive.get p).toNat, own, k, .driveCmd .float 100 0⟩

/-- Right after power-on with strap 62 and a blank store (log entries 4 and 5): every field at the value of its rule, the
six FLOAT commands of R143 placed in the CONTROL queue, and the submissions and the LOOP OUT choice that the power-on
raised on their way. -/
def State.reset : State :=
  let t := Setup.defaults
  { powered := true
    mode := .full
    now := 0
    lp := { Loop.reset 62 0 with
      control := [resetFloat 62 t .p1 0, resetFloat 62 t .p2 1, resetFloat 62 t .p3 2, resetFloat 62 t .p4 3,
        resetFloat 62 t .p5 4, resetFloat 62 t .p6 5]
      ownSequence := 6 }
    channels := PerQuantity.make fun _ => ChannelRecord.reset none
    nodes := []
    blanking := PerWell.of none
    wells := PerWell.of (WellRecord.reset (some 10000))
    pumps := PerPump.make fun p => { PumpRecord.reset t 0 p with count := 1 }
    duty := Duty.reset t
    budget := Budget.reset t
    screens := PerScreen.of (ScreenRecord.reset t 0 .dry)
    hourAt := some 3600000
    points := PerPoint.of PointRecord.reset
    ssu := Station.reset t
    elr := EventLog.reset 0 .dry
    mu := Management.reset 0
    tables := Tables.unloaded
    store := Store.blank
    raised := [.recordSubmission (.tableStoreFault .sampleMap), .recordSubmission (.tableStoreFault (.levelVolume .a)),
      .recordSubmission (.tableStoreFault (.levelVolume .b)), .recordSubmission (.tableStoreFault .pumpCurves),
      .recordSubmission (.tableStoreFault .weir), .recordSubmission (.tableStoreFault .stationSetup),
      .recordSubmission (.tableStoreFault .gates), .recordSubmission (.tableStoreFault .sources), .loopOutFree false]
    pending := []
    free := 0 }

end Sys2Proof.Machine
end

