-- ==== Sys2Proof/Machine/Ops.lean ====
section
/-! DEFINITION. The named operations every block uses: reading and writing a record, raising an event, offering a frame to LP,
the computation of volumes, heads and flows, and the plant's fixed associations. -/

namespace Sys2Proof.Machine

/-! ## Records -/

/-- The active Station Setup. -/
def State.setup (s : State) : Setup := s.tables.setup.active

def State.chan (s : State) (q : Quantity) : ChannelRecord := s.channels.get q
def State.setChan (s : State) (q : Quantity) (r : ChannelRecord) : State := { s with channels := s.channels.set q r }
def State.well (s : State) (w : Well) : WellRecord := s.wells.get w
def State.setWell (s : State) (w : Well) (r : WellRecord) : State := { s with wells := s.wells.set w r }
def State.pump (s : State) (p : Pump) : PumpRecord := s.pumps.get p
def State.setPump (s : State) (p : Pump) (r : PumpRecord) : State := { s with pumps := s.pumps.set p r }
def State.screen (s : State) (k : Screen) : ScreenRecord := s.screens.get k
def State.setScreen (s : State) (k : Screen) (r : ScreenRecord) : State := { s with screens := s.screens.set k r }
def State.point (s : State) (o : Point) : PointRecord := s.points.get o
def State.setPoint (s : State) (o : Point) (r : PointRecord) : State := { s with points := s.points.set o r }

/-- Raising an event for another block: it joins the events on their way (log entry 1). -/
def State.raise (s : State) (e : Instr) : State := { s with raised := s.raised ++ [e] }

/-- Submitting a record to ELR, an event of its own (R150). -/
def State.submit (s : State) (body : RecordBody) : State := s.raise (.recordSubmission body)

/-- Raising several events, in order. -/
def State.raiseAll (s : State) (es : List Instr) : State := { s with raised := s.raised ++ es }

/-- A condition on the state, kept as an event raised only when it holds. -/
def State.raiseIf (s : State) (b : Bool) (e : Instr) : State := if b then s.raise e else s

/-- A deadline has passed. -/
def due (t : Option Ms) (now : Ms) : Bool :=
  match t with
  | some d => decide (d ≤ now)
  | none => false

/-- Doing something for each of a list. -/
def State.each {α : Type} (f : State → α → State) (xs : List α) (s : State) : State := xs.foldl f s

/-- The blocks work in full mode under power (R164). -/
def State.live (s : State) : Bool := s.powered && s.mode == .full

/-- A command of a block: in a part that is unpowered or forwards only it changes nothing (R164, log entry 7). -/
def whenLive (s : State) (f : State → State) : Host.Outcome State Fault Refusal :=
  .next (if s.live then f s else s)

/-- A timer's command: it changes nothing unless the timer is due (log entry 7). -/
def whenDue (s : State) (t : Option Ms) (f : State → State) : Host.Outcome State Fault Refusal :=
  whenLive s fun s => if due t s.now then f s else s

/-! ## LP: the queues (R170 to R172) -/

/-- No frame leaves and no frame waits, so that a frame that joins brings a choice (R173). -/
def choiceOnJoin (l : Loop) : Bool :=
  l.sending.isNone && l.forward.isEmpty && l.control.isEmpty && l.general.isEmpty

/-- A frame to be forwarded joins the forward queue, or is lost and counted (R170). -/
def joinForward (s : State) (f : RawFrame) : State :=
  if s.lp.forward.length < 8 then
    { s with lp := { s.lp with forward := s.lp.forward ++ [f] } }.raiseIf (choiceOnJoin s.lp) (.loopOutFree false)
  else { s with lp := { s.lp with overruns := satInc 65535 s.lp.overruns } }

/-- The header of an originated frame (R171): an answer carries the sequence it answers, any other kind the own one. -/
def completeFrame (s : State) (dest : Addr) (answering : Option (BitVec 6)) (payload : OutPayload) : OutFrame :=
  ⟨dest, s.lp.ownAddress, answering.getD s.lp.ownSequence, payload⟩

/-- The own frame sequence after a placement (R171). -/
def sequenceAfter (s : State) (answering : Option (BitVec 6)) : BitVec 6 :=
  match answering with
  | some _ => s.lp.ownSequence
  | none => s.lp.ownSequence + 1

/-- Offering a frame to the CONTROL queue: the state with the frame placed, or `none` when it is not placed (R171). -/
def offerControl (s : State) (dest : Addr) (answering : Option (BitVec 6)) (payload : OutPayload) : Option State :=
  if s.lp.control.length < 8 then
    some ({ s with lp := { s.lp with
              control := s.lp.control ++ [completeFrame s dest answering payload]
              ownSequence := sequenceAfter s answering } }.raiseIf (choiceOnJoin s.lp) (.loopOutFree false))
  else none

/-- Offering a frame to the GENERAL queue (R171). -/
def offerGeneral (s : State) (dest : Addr) (answering : Option (BitVec 6)) (payload : OutPayload) : Option State :=
  if s.lp.general.length < 8 then
    some ({ s with lp := { s.lp with
              general := s.lp.general ++ [completeFrame s dest answering payload]
              ownSequence := sequenceAfter s answering } }.raiseIf (choiceOnJoin s.lp) (.loopOutFree false))
  else none

/-- An originated frame is a RUN or REVERSE for a drive. -/
def outIsRunFor (drive : Addr) (f : OutFrame) : Bool :=
  match f.payload with
  | .driveCmd action _ _ => f.destination == drive && (action == .run || action == .reverse)
  | _ => false

/-- When a frame that was not placed is offered again: "every 1 s" while it waits, so that an offer made for another reason
leaves a running second as it is (R16, R18, R82, R103, R156; the worked example of chapter 9; log entry 10). -/
def nextOffer (waiting : Option Ms) (now : Ms) : Option Ms :=
  match waiting with
  | some t => if now < t then some t else some (now + 1000)
  | none => some (now + 1000)

/-- A forwarded frame is a DRIVE_CMD RUN or REVERSE for a drive (R172), by the first byte of its payload whatever the payload's
length: the model's choice (log entry 73). -/
def rawIsRunFor (drive : Addr) (f : RawFrame) : Bool :=
  f.kind == 4#8 && rawDestination f == drive
    && match f.payload with
       | a :: _ => a == 1#8 || a == 3#8
       | [] => false

/-- The removal of RUN frames bound for one drive from the CONTROL and forward queues (R172). -/
def removeRuns (s : State) (drive : Addr) : State :=
  { s with lp := { s.lp with
      control := s.lp.control.filter fun f => !(outIsRunFor drive f)
      forward := s.lp.forward.filter fun f => !(rawIsRunFor drive f) } }

/-! ## The plant (00_scope.md) -/

/-- The well a transducer or float belongs to. -/
def quantityWell : Quantity → Option Well
  | .la1 | .la2 | .fah | .fal => some .a
  | .lb1 | .lb2 | .fbh | .fbl => some .b
  | .riv | .su1 | .su2 | .su3 | .ov1 | .ov2 | .rh1 | .rh2 | .rh3 => none

/-- The well a level transducer belongs to. -/
def transducerWell : Quantity → Option Well
  | .la1 | .la2 => some .a
  | .lb1 | .lb2 => some .b
  | _ => none

def transducers : Well → List Quantity
  | .a => [.la1, .la2]
  | .b => [.lb1, .lb2]

def firstTransducer : Well → Quantity
  | .a => .la1 | .b => .lb1
def secondTransducer : Well → Quantity
  | .a => .la2 | .b => .lb2
def highFloatOf : Well → Quantity
  | .a => .fah | .b => .fbh
def lowFloatOf : Well → Quantity
  | .a => .fal | .b => .fbl

def screenWell : Screen → Well
  | .s1 | .s2 => .a
  | .s3 => .b
def screensOf : Well → List Screen
  | .a => [.s1, .s2]
  | .b => [.s3]
def upstreamOf : Screen → Quantity
  | .s1 => .su1 | .s2 => .su2 | .s3 => .su3
def homeOf : Screen → Quantity
  | .s1 => .rh1 | .s2 => .rh2 | .s3 => .rh3
def pointWell : Point → Well
  | .one => .a | .two => .b
def pointOfWell : Well → Point
  | .a => .one | .b => .two
def pointQuantity : Point → Quantity
  | .one => .ov1 | .two => .ov2

/-- A value a consumer may use for control: the quality is GOOD or HELD (R5). -/
def usableValue (quality : Quality) (value : Option Int) : Option Int :=
  match quality with
  | .good | .held => value
  | .lost | .suspect => none

/-- The value of a channel that may be used for control (R5). -/
def usable (r : ChannelRecord) : Option Int := usableValue r.quality r.value

/-- The value of an update that may be used for control (R5). -/
def usableUpdate (u : ChannelUpdate) : Option Int := usableValue u.quality u.value

/-- A channel as CU holds it: value, quality and the time of the last stored value (R5). -/
def channelView (s : State) (q : Quantity) : ChannelUpdate :=
  ⟨(s.chan q).value, (s.chan q).quality, (s.chan q).storedAt, false⟩

/-! ## The Sample Map (R1) -/

/-- The entries CU reads: the used slots of the active bank, none while it is EMPTY (R1). -/
def mapEntries (s : State) : List SampleEntry :=
  if s.tables.sampleMap.isEmpty then [] else s.tables.sampleMap.active.filterMap id

def entriesFind (es : List SampleEntry) (q : Quantity) : Option SampleEntry := es.find? fun e => e.quantity == .name q

/-- The entry of a quantity; `none` when it is unmapped. -/
def entryFor (s : State) (q : Quantity) : Option SampleEntry := entriesFind (mapEntries s) q

/-- The entry of a key: node address and channel number (R1). -/
def entryAt (s : State) (node channel : Nat) : Option SampleEntry :=
  (mapEntries s).find? fun e => e.node == node && e.channel == channel

/-! ## Volumes, heads and flows (R28 to R30, R122) -/

/-- A value of a list of points; past the end it is 0. -/
def pointAt (xs : List Nat) (i : Nat) : Nat := xs.getD i 0

/-- The volume and the above-table flag of a level on a table (R28). -/
def volumeOn (t : LevelVolume) (level : Int) : Nat × Bool :=
  if level < t.base then (pointAt t.volumes 0, false)
  else if t.base + 32 * (t.stepSize : Int) ≤ level then (pointAt t.volumes 32, true)
  else
    let x := (level - t.base).toNat
    let i := x / t.stepSize
    let f := x % t.stepSize
    let v := pointAt t.volumes i
    (v + (pointAt t.volumes (i + 1) - v) * f / t.stepSize, false)

/-- The volume and flag WMU keeps for a level: 0 and clear while the table is EMPTY (R41). -/
def wellVolume (s : State) (w : Well) (level : Int) : Nat × Bool :=
  let b := s.tables.levelVolume.get w
  if b.isEmpty then (0, false) else volumeOn b.active level

/-- The river level by a value of RIV that may be used, or the river fallback level (R29, R138). -/
def riverFrom (t : Setup) (v : Option Int) : Int := v.getD t.riverFallback

/-- The river level of the head computation (R29). -/
def riverLevel (s : State) : Int := riverFrom s.setup (usable (s.chan .riv))

/-- The head of a well, clamped to not less than 0; no level, no head (R29). -/
def headOf (s : State) (w : Well) : Option Nat :=
  match (s.well w).level with
  | some level => some (max (riverLevel s) s.setup.dischargeInvert - level).toNat
  | none => none

/-- The flow of one pump at a head and a speed in percent, on its nine curve points (R30). -/
def flowOn (q : List Nat) (head speed : Nat) : Nat :=
  let h := head * 10000 / (speed * speed)
  if 16000 < h then 0
  else
    let i := min (h / 2000) 7
    let f := h - 2000 * i
    let lo : Int := pointAt q i
    let hi : Int := pointAt q (i + 1)
    let full : Int := lo + truncDiv ((hi - lo) * f) 2000
    (truncDiv (full * speed) 100).toNat

/-- One pump's nine points of a PUMP_CURVES bank (R31). -/
def curveOf (t : PumpCurves) (p : Pump) : List Nat := (t.drop (9 * p.index)).take 9

/-- A pump's flow on a bank, `none` standing for an EMPTY one, at a well's head: 0 without a head (R29, R42). -/
def pumpFlow (bank : Option PumpCurves) (head : Option Nat) (p : Pump) (speed : Nat) : Nat :=
  match bank, head with
  | some t, some h => flowOn (curveOf t p) h speed
  | _, _ => 0

/-- A PUMP_CURVES switch is arranged and not complete (R40). -/
def curvesScheduled (s : State) : Bool :=
  match s.mu.commit with
  | .scheduled .pumpCurves _ => true
  | _ => false

/-- A bank of PUMP_CURVES as a consumer reads it: the new one once it has taken the switch (R40, R42). -/
def curvesBank (s : State) (tookNew : Bool) : Option PumpCurves :=
  if curvesScheduled s && tookNew then some s.tables.pumpCurves.inactive
  else if s.tables.pumpCurves.isEmpty then none
  else some s.tables.pumpCurves.active

/-- The bank WMU uses for a well's pumps (R40). -/
def wmuCurves (s : State) (w : Well) : Option PumpCurves := curvesBank s (!(s.well w).pendingCurves)

/-- The bank DC uses for a well's pumps, from WMU's notice on (R40). -/
def dcCurves (s : State) (w : Well) : Option PumpCurves := curvesBank s (s.duty.newCurves.get w)

/-- The flow over a weir at a head above the dead band (R122, cases 2 and 3), and whether it lies beyond the curve. -/
def weirFlow (stepSize : Nat) (flows : List Nat) (head : Int) : Nat × Bool :=
  if (16 * stepSize : Nat) ≤ head then (pointAt flows 16, decide ((16 * stepSize : Nat) < head))
  else
    let h := head.toNat
    let i := h / stepSize
    let f := h % stepSize
    let v := pointAt flows i
    (v + (pointAt flows (i + 1) - v) * f / stepSize, false)

/-! ## Pumps -/

/-- The well of a pump by the active setup. -/
def State.wellOf (s : State) (p : Pump) : Option Well := s.setup.wellOf p

/-- The drive node address of a pump. -/
def driveOf (s : State) (p : Pump) : Addr := (s.setup.drive.get p).toNat

def rakeDriveOf (s : State) (k : Screen) : Addr := (s.setup.rakeDrive.get k).toNat

/-- The fitted pump whose drive has an address. -/
def pumpAtDrive (s : State) (a : Addr) : Option Pump :=
  Pump.all.find? fun p => s.setup.fitted p && driveOf s p == a

def screenAtDrive (s : State) (a : Addr) : Option Screen := Screen.all.find? fun k => rakeDriveOf s k == a

/-- A report that shows the motor turning (R60, R146). -/
def turning (r : DriveReport) : Bool :=
  match r.state with
  | .running | .starting => true
  | .float | .localHand => r.floatRunning
  | .stopped | .tripped => false

/-- A pump counts as running for the pumped volume (R32), by what its drive last reported, be its status UNKNOWN since. -/
def countsRunning (r : PumpRecord) : Bool :=
  match r.state, r.lastReport with
  | .unavailable .noStatus, _ => r.silentRunning
  | .unavailable .notFitted, _ => false
  | st, some d =>
    d.state == .running || (d.state == .float && d.floatRunning)
      || (st == .unavailable .localHand && d.state == .localHand && d.floatRunning && r.charge == .external)
  | _, none => false

/-- The speed used for a pump's pumped volume (R32). -/
def speedUsed (s : State) (p : Pump) : Nat :=
  let r := s.pump p
  if s.setup.isVariable p then
    match r.drive with
    | .known d t => if s.now ≤ t + 15000 then max d.speed 30 else r.applied
    | .unknown => r.applied
  else 100

/-- The commanded-running count of a well (R55). -/
def commandedRunning (s : State) (w : Well) : Nat :=
  ((s.duty.rotation.get w).filter fun p =>
    (s.pump p).state == .starting || (s.pump p).state == .running).length

/-! ## Deliveries -/

/-- The Well Record as it stands, in the form of a delivery (R25). -/
def deliveryOf (r : WellRecord) : WellDelivery where
  level := r.level
  quality := r.quality
  highFloat := r.highFloat
  lowFloat := r.lowFloat
  volume := r.volume
  aboveTable := r.aboveTable
  smoothedInflow := r.smoothedInflow
  inflowGood := r.inflowGood

/-- WMU delivers the Well Record to DC, SC, OA and SSU (R25). -/
def deliverWell (s : State) (w : Well) : State :=
  let d := deliveryOf (s.well w)
  s.raiseAll [.wellRecordDeliveryDc w d, .wellRecordDeliverySc w d, .wellRecordDeliveryOa w d,
    .wellRecordDeliverySsu w d]

/-- A time of the internal counter in station seconds (R135), not before second 0 (R189). -/
def stationSeconds (s : State) (t : Ms) : Nat := s.mu.clock.toNat - (s.now - t) / 1000

/-- Drawing a free value: the counter it depends on, advanced (log entry 3). -/
def State.draw (s : State) : Nat × State := (s.free, { s with free := s.free + 1 })

end Sys2Proof.Machine
end

