-- ==== Sys2Proof/Machine/Commit.lean ====
section
/-! DEFINITION. The banks and the non-volatile store: exchanging banks, the store write, and loading (R181, R182). -/

namespace Sys2Proof.Machine

variable {α : Type}

/-- The bank that was inactive becomes active, and the other a copy of it; the EMPTY mark leaves (R181, R182). -/
def exchange (b : Banks α) : Banks α := ⟨b.inactive, b.inactive, false⟩

def exchangeTable (t : Tables) : TableId → Tables
  | .sampleMap => { t with sampleMap := exchange t.sampleMap }
  | .levelVolume w => { t with levelVolume := t.levelVolume.set w (exchange (t.levelVolume.get w)) }
  | .pumpCurves => { t with pumpCurves := exchange t.pumpCurves }
  | .weir => { t with weir := exchange t.weir }
  | .stationSetup => { t with setup := exchange t.setup }
  | .gates => { t with gates := exchange t.gates }
  | .sources => { t with sources := exchange t.sources }

/-- The active contents of a table. -/
def activeContents (t : Tables) : TableId → TableContents
  | .sampleMap => .sampleMap t.sampleMap.active
  | .levelVolume w => .levelVolume (t.levelVolume.get w).active
  | .pumpCurves => .pumpCurves t.pumpCurves.active
  | .weir => .weir t.weir.active
  | .stationSetup => .stationSetup t.setup.active
  | .gates => .gates t.gates.active
  | .sources => .sources t.sources.active

/-- The request a scheduled commit of a table answers. -/
def scheduledReq (s : State) (t : TableId) : Option ReqHead :=
  match s.mu.commit with
  | .scheduled t' req => if t' = t then some req else none
  | _ => none

/-- The switch is complete (R181): the banks are exchanged, and the store write begins, its length a free value of up to
200 ms (log entry 3). -/
def completeCommit (s : State) (t : TableId) : State :=
  match scheduledReq s t with
  | some req =>
    let (n, s) := s.draw
    { s with
      tables := exchangeTable s.tables t
      mu := { s.mu with commit := .storing t req (s.now + Config.storeWriteMs n % 201) } }
  | none => s

/-! ## The store (R182) -/

def storePair (st : Store) : TableId → CopyPair
  | .sampleMap => st.sampleMap
  | .levelVolume w => st.levelVolume.get w
  | .pumpCurves => st.pumpCurves
  | .weir => st.weir
  | .stationSetup => st.setup
  | .gates => st.gates
  | .sources => st.sources

def setPair (st : Store) (t : TableId) (c : CopyPair) : Store :=
  match t with
  | .sampleMap => { st with sampleMap := c }
  | .levelVolume w => { st with levelVolume := st.levelVolume.set w c }
  | .pumpCurves => { st with pumpCurves := c }
  | .weir => { st with weir := c }
  | .stationSetup => { st with setup := c }
  | .gates => { st with gates := c }
  | .sources => { st with sources := c }

/-- A copy passes its check, computed over its contents and generation as a frame's is (R182). -/
def copyPasses : Option StoreCopy → Bool
  | some c => c.check == crc16 (Config.storeImage c.contents c.generation)
  | none => false

/-- A copy as a write makes it, with its check. -/
def makeCopy (contents : TableContents) (generation : BitVec 32) : StoreCopy :=
  ⟨contents, generation, crc16 (Config.storeImage contents generation)⟩

/-- Of two generations the first is the higher: 1 to 2,147,483,647 above the other, modulo 4,294,967,296 (R182). -/
def higherGeneration (a b : BitVec 32) : Bool :=
  let d := (a - b).toNat
  decide (1 ≤ d ∧ d ≤ 2147483647)

def generationOf : Option StoreCopy → BitVec 32
  | some c => c.generation
  | none => 0

/-- The write overwrites the first copy (R182): when it has the lower generation of two that pass, or
fails its check. Where neither of two generations is the higher, they differing by 2,147,483,648, the second is overwritten: the
model's choice (log entry 61). -/
def overwritesFirst (c : CopyPair) : Bool :=
  match copyPasses c.first, copyPasses c.second with
  | true, true => higherGeneration (generationOf c.second) (generationOf c.first)
  | true, false => false
  | false, _ => true

/-- The generation a write gives (R182): the kept copy's plus 1 when that passes, and 1 otherwise. -/
def nextGeneration (c : CopyPair) : BitVec 32 :=
  let kept := if overwritesFirst c then c.second else c.first
  if copyPasses kept then generationOf kept + 1 else 1

/-- A pair after a write of contents. -/
def writePair (c : CopyPair) (contents : TableContents) : CopyPair :=
  let copy := some (makeCopy contents (nextGeneration c))
  if overwritesFirst c then { c with first := copy } else { c with second := copy }

/-- The copy a table is loaded from (R182): the higher generation of two that pass, the first when they are
equal, or, the model's choice (log entry 61), when neither is the higher. -/
def loadCopy (c : CopyPair) : Option TableContents :=
  match copyPasses c.first, copyPasses c.second with
  | true, true =>
    if higherGeneration (generationOf c.second) (generationOf c.first) then c.second.map (·.contents)
    else c.first.map (·.contents)
  | true, false => c.first.map (·.contents)
  | false, true => c.second.map (·.contents)
  | false, false => none

/-- A pair after a power loss in the middle of a write of contents: the kept copy stands; the other is as it was, failing
its check, or written (log entry 3). -/
def tornPair (c : CopyPair) (contents : TableContents) (t : TornWrite) : CopyPair :=
  match t with
  | .before => c
  | .written => writePair c contents
  | .torn => if overwritesFirst c then { c with first := none } else { c with second := none }

/-- Contents of the right table, or `none`. -/
def asSampleMap : Option TableContents → Option SampleMap
  | some (.sampleMap t) => some t
  | _ => none
def asLevelVolume : Option TableContents → Option LevelVolume
  | some (.levelVolume t) => some t
  | _ => none
def asPumpCurves : Option TableContents → Option PumpCurves
  | some (.pumpCurves t) => some t
  | _ => none
def asWeir : Option TableContents → Option Weir
  | some (.weir t) => some t
  | _ => none
def asSetup : Option TableContents → Option Setup
  | some (.stationSetup t) => some t
  | _ => none
def asGates : Option TableContents → Option Gates
  | some (.gates t) => some t
  | _ => none
def asSources : Option TableContents → Option Sources
  | some (.sources t) => some t
  | _ => none

/-- A table loaded into both banks, or as EMPTY (R182). -/
def loadOr (blank : α) : Option α → Banks α
  | some x => .valid x
  | none => .empty blank

/-- A table that is never EMPTY, loaded or at its defaults (R182). -/
def loadOrValid (defaults : α) : Option α → Banks α
  | some x => .valid x
  | none => .valid defaults

/-- All tables loaded from the store (R182). -/
def loadTables (st : Store) : Tables where
  sampleMap := loadOr blankSampleMap (asSampleMap (loadCopy st.sampleMap))
  levelVolume := ⟨loadOr blankLevelVolume (asLevelVolume (loadCopy st.levelVolume.a)),
    loadOr blankLevelVolume (asLevelVolume (loadCopy st.levelVolume.b))⟩
  pumpCurves := loadOr blankPumpCurves (asPumpCurves (loadCopy st.pumpCurves))
  weir := loadOr blankWeir (asWeir (loadCopy st.weir))
  setup := loadOrValid Setup.defaults (asSetup (loadCopy st.setup))
  gates := loadOrValid blankGates (asGates (loadCopy st.gates))
  sources := loadOrValid defaultSources (asSources (loadCopy st.sources))

/-- The tables in their order (R177). -/
def allTables : List TableId :=
  [.sampleMap, .levelVolume .a, .levelVolume .b, .pumpCurves, .weir, .stationSetup, .gates, .sources]

/-- Neither copy of a table passes (R182). -/
def storeFaulty (st : Store) (t : TableId) : Bool := !(copyPasses (storePair st t).first || copyPasses (storePair st t).second)

end Sys2Proof.Machine
end

