-- ==== Sys2Proof/Machine/BudgetBlock.lean ====
section
/-! DEFINITION. SB: the Start Budget (chapter 5). -/

namespace Sys2Proof.Machine

/-! ## The account (R87 to R91) -/

/-- The capacity of a supply state (R88). -/
def capacityOf (t : Setup) : Supply → Nat
  | .unknown | .generator => t.generatorCapacity.toNat
  | .mains => t.mainsCapacity.toNat
  | .none => 0

def capacity (s : State) : Nat := capacityOf s.setup s.budget.supply

def entryOfReq (b : Budget) : Requester → ChargeEntry
  | .pump p => b.pumps.get p
  | .rake k => b.rakes.get k

def setEntry (b : Budget) (r : Requester) (e : ChargeEntry) : Budget :=
  match r with
  | .pump p => { b with pumps := b.pumps.set p e }
  | .rake k => { b with rakes := b.rakes.set k e }

def requesters : List Requester := Pump.all.map .pump ++ Screen.all.map .rake

/-- The sum of the weights of all charge entries and the reserves (R89). -/
def committed (b : Budget) : Nat :=
  (requesters.map fun r => (entryOfReq b r).weight).foldl (· + ·) 0 + b.reserve.a + b.reserve.b

/-- The sum of the weights of the entries whose releasing flag is set (R89). -/
def releasing (b : Budget) : Nat :=
  (requesters.map fun r => if (entryOfReq b r).releasing then (entryOfReq b r).weight else 0).foldl (· + ·) 0

/-- The start weight of a requester as its setup value stands (R95). -/
def startWeight (s : State) : Requester → Nat
  | .pump p => (s.setup.startWeight.get p).toNat
  | .rake k => (s.setup.rakeStartWeight.get k).toNat

def runWeight (s : State) : Requester → Nat
  | .pump p => (s.setup.runWeight.get p).toNat
  | .rake k => (s.setup.rakeRunWeight.get k).toNat

/-- The event by which a grant reaches its requester. -/
def grantEvent : Requester → Instr
  | .pump p => .pumpGrant p
  | .rake k => .rakeGrant k

/-- One grant: the request leaves the queue and its entry becomes START (R95), also where the entry was not NONE, for which R90
has no row: the model's choice (log entry 80). -/
def grantHead (s : State) (q : Request) (rest : List Request) : State :=
  { s with budget := { setEntry s.budget q.requester ⟨.start, startWeight s q.requester, false⟩ with queue := rest } }.raise
    (grantEvent q.requester)

/-- An examination of the head (R95): it grants heads in turn for as long as each fits. -/
def examineFuel : Nat → State → State
  | 0, s => s
  | n + 1, s =>
    match s.budget.queue with
    | [] => s
    | q :: rest =>
      if committed s.budget + startWeight s q.requester ≤ capacity s then examineFuel n (grantHead s q rest) else s

/-- The queue never holds more than nine requests (R93), so nine grants are the most of one examination. -/
def examine (s : State) : State := examineFuel s.budget.queue.length s

/-- A change of the account; if the committed weight fell, the head is examined (R90). -/
def changeBudget (s : State) (b : Budget) : State :=
  let s' := { s with budget := b }
  if committed b < committed s.budget then examine s' else s'

/-! ## The Start Queue (R93, R94) -/

/-- A request joins at the end of its rank. -/
def insertRequest (q : Request) : List Request → List Request
  | [] => [q]
  | x :: xs => if q.cls.rank < x.cls.rank then q :: x :: xs else x :: insertRequest q xs

def withoutRequester (r : Requester) (qs : List Request) : List Request := qs.filter fun q => q.requester != r

/-- A join with the next arrival number (R93). -/
def joinQueue (b : Budget) (r : Requester) (cls : RequestClass) : Budget :=
  { b with
    queue := insertRequest ⟨r, cls, b.arrivals⟩ (withoutRequester r b.queue)
    arrivals := b.arrivals + 1 }

/-- The standing request of a requester. -/
def standing (b : Budget) (r : Requester) : Option Request := b.queue.find? fun q => q.requester == r

/-- START_REQUEST (R93): a request of the same rank keeps its place; any join is followed by an examination. -/
def execStartRequest (r : Requester) (cls : RequestClass) (s : State) : Host.Outcome State Fault Refusal :=
  whenLive s fun s => match standing s.budget r with
    | some q => if q.cls.rank = cls.rank then s else examine { s with budget := joinQueue s.budget r cls }
    | none => examine { s with budget := joinQueue s.budget r cls }

/-- The head of the queue is another request than before. -/
def headChanged (before after : List Request) : Bool := before.head? != after.head?

/-- Removing requests: a new head is examined (R94). -/
def removeRequests (s : State) (qs : List Request) : State :=
  let s' := { s with budget := { s.budget with queue := qs } }
  if headChanged s.budget.queue qs then examine s' else s'

/-- REQUEST_WITHDRAWAL (R94). -/
def execRequestWithdrawal (r : Requester) (s : State) : Host.Outcome State Fault Refusal :=
  whenLive s fun s => removeRequests s (withoutRequester r s.budget.queue)

/-! ## Messages (R90, R91) -/

/-- CHARGE_TRANSFER (R90): START becomes RUNNING at the running weight; a set flag stays. -/
def execChargeTransfer (r : Requester) (s : State) : Host.Outcome State Fault Refusal :=
  whenLive s fun s =>
    let e := entryOfReq s.budget r
    if e.kind = .start then changeBudget s (setEntry s.budget r { e with kind := .running, weight := runWeight s r }) else s

/-- GRANT_RETURN (R90): a START entry becomes NONE. -/
def execGrantReturn (r : Requester) (s : State) : Host.Outcome State Fault Refusal :=
  whenLive s fun s =>
    if (entryOfReq s.budget r).kind = .start then changeBudget s (setEntry s.budget r .clear) else s

/-- CHARGE_RELEASE (R90): any charge becomes NONE. -/
def execChargeRelease (r : Requester) (s : State) : Host.Outcome State Fault Refusal :=
  whenLive s fun s =>
    if (entryOfReq s.budget r).kind = .none then s else changeBudget s (setEntry s.budget r .clear)

/-- The well of a pump is in FALLBACK. -/
def inFallback (s : State) (p : Pump) : Bool :=
  match s.wellOf p with
  | some w => s.ssu.well.get w == .fallback
  | none => false

/-- EXTERNAL_CHARGE (R90): no change for a pump of a well in FALLBACK (R92), nor for another entry than its row gives. -/
def execExternalCharge (p : Pump) (convert : Bool) (s : State) : Host.Outcome State Fault Refusal :=
  whenLive s fun s =>
    let e := s.budget.pumps.get p
    if inFallback s p then s
    else if convert then
      if e.kind = .running then { s with budget := setEntry s.budget (.pump p) { e with kind := .external } } else s
    else if e.kind = .none then
      { s with budget := setEntry s.budget (.pump p) ⟨.external, runWeight s (.pump p), false⟩ }
    else s

/-- STOP_NOTICE (R91). -/
def execStopNotice (p : Pump) (s : State) : Host.Outcome State Fault Refusal :=
  whenLive s fun s =>
    let e := s.budget.pumps.get p
    if e.kind = .running ∨ e.kind = .external then
      { s with budget := setEntry s.budget (.pump p) { e with releasing := true } }
    else s

/-! ## Shedding (R97 to R99) -/

/-- A charge entry that may be shed: START or RUNNING, not releasing (R98). -/
def sheddable (e : ChargeEntry) : Bool := (e.kind == .start || e.kind == .running) && !e.releasing

/-- Rakes in screen order 3, 2, 1 (R98). -/
def rakeCandidates (s : State) : List Requester :=
  ([Screen.s3, .s2, .s1].filter fun k =>
    ((s.screen k).state == .cycling || (s.screen k).state == .jamReverse || (s.screen k).state == .jamPause)
      && sheddable (s.budget.rakes.get k)).map .rake

/-- A well's AUTO pumps in a state whose entry has a kind, from the last in the Rotation List towards the head. -/
def pumpCandidates (s : State) (st : PumpState) (kind : ChargeKind) (w : Well) : List Pump :=
  ((s.duty.rotation.get w).filter fun p =>
    (s.pump p).owner == .auto && (s.pump p).state == st && (s.budget.pumps.get p).kind == kind
      && sheddable (s.budget.pumps.get p)).reverse

/-- Alternately one of the first list and one of the second; the rest of the longer in order. -/
def alternate {α : Type} : List α → List α → List α
  | [], ys => ys
  | x :: xs, [] => x :: xs
  | x :: xs, y :: ys => x :: y :: alternate xs ys

/-- The candidates of a sweep, in order (R98): well B first. -/
def candidates (s : State) : List Requester :=
  rakeCandidates s
    ++ (alternate (pumpCandidates s .starting .start .b) (pumpCandidates s .starting .start .a)).map .pump
    ++ (alternate (pumpCandidates s .running .running .b) (pumpCandidates s .running .running .a)).map .pump

/-- Taking candidates while the committed weight less the releasing weight is above the capacity (R97): the budget with
their flags set, and those taken. -/
def takeCandidates (cap : Nat) : List Requester → Budget → Budget × List Requester
  | [], b => (b, [])
  | r :: rs, b =>
    if committed b ≤ cap + releasing b then (b, [])
    else
      let next := takeCandidates cap rs (setEntry b r { entryOfReq b r with releasing := true })
      (next.1, r :: next.2)

def shedEvent : Requester → Instr
  | .pump p => .pumpShed p
  | .rake k => .rakeShed k

/-- A shed sweep (R97): the state, and the requesters that shed requests were sent to. -/
def sweep (s : State) : State × List Requester :=
  let x := takeCandidates (capacity s) (candidates s) s.budget
  ({ s with budget := x.1 }.raiseAll (x.2.map shedEvent), x.2)

/-- SHED_DECLINE (R99): the flag clears, and the sweep runs again. -/
def execShedDecline (r : Requester) (s : State) : Host.Outcome State Fault Refusal :=
  whenLive s fun s =>
    (sweep { s with budget := setEntry s.budget r { entryOfReq s.budget r with releasing := false } }).1

def isRake : Requester → Bool
  | .rake _ => true
  | .pump _ => false

/-- A change of capacity from `before` (R88): a fall runs a sweep, a rise examines the head; the requesters shed. -/
def capacityChange (s : State) (before : Nat) : State × List Requester :=
  if capacity s < before then sweep s
  else if before < capacity s then (examine s, [])
  else (s, [])

/-- A new supply state, with its record (R88). -/
def supplyChange (s : State) (v : Supply) : State :=
  let x := capacityChange { s with budget := { s.budget with supply := v } } (capacity s)
  x.1.submit (.supplyChange s.budget.supply v (capacity x.1) (committed x.1.budget)
    (x.2.filter isRake).length (x.2.filter fun r => !(isRake r)).length)

/-- SUPPLY_STAT (R88). -/
def execSupplyStat (src : Addr) (value : Option Supply) (s : State) : Host.Outcome State Fault Refusal :=
  whenLive s fun s =>
    if (src : Int) = s.setup.supplyMonitor then
      match value with
      | some v => if v = .unknown ∨ v = s.budget.supply then s else supplyChange s v
      | none => s
    else s

/-! ## Fallback (R92) -/

/-- The pumps of a well leave the account. -/
def clearPumps (b : Budget) (ps : List Pump) : Budget :=
  ps.foldl (fun b p => setEntry b (.pump p) .clear) b

/-- The request is a pump's of the list. -/
def requestOf (ps : List Pump) (q : Request) : Bool :=
  match q.requester with
  | .pump p => ps.contains p
  | .rake _ => false

/-- FALLBACK_ENTRY_SB (R92): a new head, or a fall of the committed weight, is examined (R94, R95). -/
def execFallbackEntrySb (w : Well) (s : State) : Host.Outcome State Fault Refusal :=
  whenLive s fun s =>
    let ps := s.setup.pumpsOf w
    let qs := s.budget.queue.filter fun q => !(requestOf ps q)
    let b := { clearPumps s.budget ps with queue := qs, reserve := s.budget.reserve.set w (reserveOf s.setup w) }
    let s' := { s with budget := b }
    if headChanged s.budget.queue qs || decide (committed b < committed s.budget) then examine s' else s'

/-- The charge that an exit notice records by a pump's name in it: RUNNING for one adopted, EXTERNAL for one local or silent
and marked as turning, and none otherwise (R92). -/
def exitKind : Option ExitName → ChargeKind
  | some .adopted => .running
  | some (.localHand true) | some (.silent true) => .external
  | _ => .none

/-- The account with the charge an exit notice records for a pump; its entry before is NONE (R90). -/
def exitCharge (s : State) (names : PerPump (Option ExitName)) (b : Budget) (p : Pump) : Budget :=
  if (b.pumps.get p).kind = .none ∧ exitKind (names.get p) ≠ .none then
    setEntry b (.pump p) ⟨exitKind (names.get p), runWeight s (.pump p), false⟩
  else b

/-- FALLBACK_EXIT_SB (R92): every pump that the notice names, whatever well the setup gives it now. -/
def execFallbackExitSb (w : Well) (names : PerPump (Option ExitName)) (s : State) :
    Host.Outcome State Fault Refusal :=
  whenLive s fun s =>
    let b := Pump.all.foldl (exitCharge s names) s.budget
    changeBudget s { b with reserve := b.reserve.set w 0 }

/-! ## The immediate charge (R96) -/

/-- SB's answer to a manual RUN: the state with the charge made, or `none` for no. -/
def immediateCharge (s : State) (p : Pump) : Option State :=
  let e := s.budget.pumps.get p
  let others := withoutRequester (.pump p) s.budget.queue
  if others = [] ∧ e.kind ≠ .start ∧ committed s.budget - e.weight + startWeight s (.pump p) ≤ capacity s then
    some { s with budget := { setEntry s.budget (.pump p) ⟨.start, startWeight s (.pump p), false⟩ with queue := [] } }
  else none

end Sys2Proof.Machine
end

