-- ==== Sys2Proof/Machine/PumpOps.lean ====
section
/-! DEFINITION. DC's operations on one pump: entering a state, building commands, starting, stopping, failing, and the flow and
dead-head judgements (chapters 3 and 4). -/

namespace Sys2Proof.Machine

/-- The action held in a state (R44). -/
def actionHeld : PumpState → Option DriveAction
  | .starting | .running => some .run
  | .float => some .float
  | .unavailable .localHand | .unavailable .notFitted => none
  | .off | .startWait | .stopping | .resting | .backoff | .lockedOut => some .stop
  | .unavailable .noStatus | .unavailable .skipped | .unavailable .disabled => some .stop

def refreshMs (s : State) : Nat := s.setup.refreshPeriod.toNat * 1000

/-- The owner after entering a state (R45): FLOAT with the FLOAT state; otherwise MANUAL is kept in STARTING and RUNNING
alone. -/
def ownerIn (st : PumpState) (o : Owner) : Owner :=
  match st with
  | .float => .float
  | .starting | .running => if o = .manual then .manual else .auto
  | _ => .auto

/-- A state in which the wait end stands (R69). -/
def waits : PumpState → Bool
  | .backoff | .resting | .unavailable .skipped => true
  | _ => false

/-- A record in a new state: what a state does not keep is cleared (R45, R69, R75, R79, R83, R86). -/
def inState (s : State) (r : PumpRecord) (st : PumpState) : PumpRecord :=
  let o := ownerIn st r.owner
  let keepRun := st == .running
  { r with
    state := st
    owner := o
    manualSource := if o = .manual then r.manualSource else none
    manual := if o = .manual then r.manual else none
    startAt := if st = .starting then r.startAt else none
    stopAt := if st = .stopping then r.stopAt else none
    stopFailed := st == .stopping && r.stopFailed
    waitEnd := if waits st then r.waitEnd else none
    runStart := if keepRun then r.runStart else none
    stopDeferred := keepRun && r.stopDeferred
    deadHeadAt := if keepRun then r.deadHeadAt else none
    forcing := keepRun && r.forcing
    staged := if keepRun then r.staged else r.formula
    silentRunning := st == .unavailable .noStatus && r.silentRunning
    refreshAt := match actionHeld st, actionHeld r.state with
      | none, _ => none
      | some _, none => some (s.now + refreshMs s)
      | some _, some _ => r.refreshAt
    retryAt := match actionHeld st with
      | none => none
      | some _ => r.retryAt }

/-- A pump enters a state. -/
def enter (s : State) (p : Pump) (st : PumpState) : State := s.setPump p (inState s (s.pump p) st)

/-- A pump goes to OFF, subject to the redirect of R44. -/
def enterOff (s : State) (p : Pump) : State :=
  let r := s.pump p
  enter s p (if r.lockout then .lockedOut else if r.disabled then .unavailable .disabled else .off)

/-- An entry to LOCKED_OUT (R44): the lockout is held and the alarm submitted. -/
def lockOut (s : State) (p : Pump) : State :=
  let s := enter s p .lockedOut
  let s := s.setPump p { s.pump p with lockout := true }
  s.submit (.pumpLockout p (s.pump p).lastTrip)

/-! ## Charges (R69): each change is sent to SB in the same step -/

def releaseCharge (s : State) (p : Pump) : State :=
  if (s.pump p).charge = .none then s
  else (s.setPump p { s.pump p with charge := .none }).raise (.chargeRelease (.pump p))

def returnCharge (s : State) (p : Pump) : State :=
  if (s.pump p).charge = .start then
    (s.setPump p { s.pump p with charge := .none }).raise (.grantReturn (.pump p))
  else s

def withdraw (s : State) (p : Pump) : State := s.raise (.requestWithdrawal (.pump p))

/-- A charge becomes EXTERNAL (R60, R61). -/
def chargeExternal (s : State) (p : Pump) : State :=
  match (s.pump p).charge with
  | .none => (s.setPump p { s.pump p with charge := .external }).raise (.externalCharge p false)
  | .running => (s.setPump p { s.pump p with charge := .external }).raise (.externalCharge p true)
  | .start | .external => s

/-- A surge notice for the pump's well (R10). -/
def notifySurge (s : State) (p : Pump) : State :=
  match s.wellOf p with
  | some w => s.raise (.surgeNotice w)
  | none => s

/-- A flow notice that a rule sends whatever has changed (R72, R78). -/
def notifyFlow (s : State) (p : Pump) : State := s.raise (.pumpFlowNotice p none)

/-! ## Commands (R82, R85) -/

/-- The action and speed of the action held (R82, R85); none for an action held of none. -/
def heldCommand (s : State) (p : Pump) : Option (DriveAction × Nat) :=
  let r := s.pump p
  match actionHeld r.state with
  | some .run =>
    let act := match r.owner, r.manual with
      | .manual, some m => m.1
      | _, _ => .run
    let speed := if s.setup.isVariable p then
        match r.owner, r.manual with
        | .manual, some m => m.2
        | _, _ => r.staged
      else 100
    some (act, speed)
  | some act => some (act, 100)
  | none => none

/-- The action and speed of a DRIVE_CMD built now: those of the action held, but no RUN while the interlock is set (R54). -/
def commandOf (s : State) (p : Pump) : Option (DriveAction × Nat) :=
  if actionHeld (s.pump p).state = some .run ∧ (s.pump p).interlock = true then none else heldCommand s p

/-- The record after a placed command: the count advances, the refresh restarts, the pending flag clears, and a RUN's speed
becomes the applied speed (R82, R85). -/
def commandPlaced (s : State) (p : Pump) (act : DriveAction) (speed : Nat) (r : PumpRecord) : PumpRecord :=
  { r with
    count := r.count + 1
    refreshAt := some (s.now + refreshMs s)
    retryAt := none
    applied := if (act == .run || act == .reverse) && s.setup.isVariable p then speed else r.applied }

/-- Offering a DRIVE_CMD of a pump; a state-change command that is not placed is pending (R82), a refresh is skipped (R83). -/
def offerCommand (s : State) (p : Pump) (command : Option (DriveAction × Nat)) (stateChange : Bool) : State :=
  match command with
  | some (act, speed) =>
    match offerControl s (driveOf s p) none (.driveCmd act speed (s.pump p).count) with
    | some s' => s'.setPump p (commandPlaced s' p act speed (s'.pump p))
    | none =>
      if stateChange then s.setPump p { s.pump p with retryAt := nextOffer (s.pump p).retryAt s.now } else s
  | none => s.setPump p { s.pump p with retryAt := none }

/-- Building and offering a pump's DRIVE_CMD. -/
def buildCommand (s : State) (p : Pump) (stateChange : Bool) : State := offerCommand s p (commandOf s p) stateChange

/-! ## The Start History (R70) -/

def historyFull (s : State) (p : Pump) : Bool :=
  decide ((s.setup.startsPerHour.get p).toNat ≤ (s.pump p).history.length)

/-- A start time joins the history, which never holds two equal times (R70). -/
def appendStart (h : List Ms) (t : Ms) : List Ms := if h.getLast? = some t then h else h ++ [t]

/-- The entries younger than 3,600 s (R70). -/
def agedHistory (h : List Ms) (now : Ms) : List Ms := h.filter fun t => decide (now < t + 3600000)

/-! ## The stop (R79) -/

/-- Sending a pump STOP and taking it into STOPPING; `send` is false at a manual STOP or FLOAT, whose frame serves. -/
def stopPump (s : State) (p : Pump) (send : Bool) : State :=
  let s := returnCharge s p
  let s := enter s p .stopping
  let s := s.setPump p { s.pump p with stopAt := some (s.now + 30000), stopFailed := false }
  let c := (s.pump p).charge
  let s := s.raiseIf (c == .running || c == .external) (.stopNotice p)
  if send then buildCommand s p true else s

/-! ## Backoff (R74 to R76) -/

/-- One step of the backoff generator (R74). -/
def backoffStep (g : BitVec 16) : BitVec 16 :=
  if g.getLsbD 0 then (g >>> 1) ^^^ 0xB400#16 else g >>> 1

/-- A draw: one step, yielding the new value (R74). -/
def drawBackoff (s : State) : State := { s with duty := { s.duty with backoff := backoffStep s.duty.backoff } }

/-- The wait of R75 in ms, from the attempt count and the value drawn. -/
def backoffWait (t : Setup) (p : Pump) (attempts g : Nat) : Nat :=
  ((t.minRest.get p).toNat + g % 2 ^ (min attempts 4) * t.slotTime.toNat) * 1000

/-- Entry into BACKOFF (R75). -/
def enterBackoff (s : State) (p : Pump) : State :=
  let s := drawBackoff s
  let wait := backoffWait s.setup p (s.pump p).attempts s.duty.backoff.toNat
  let s := enter s p .backoff
  s.setPump p { s.pump p with waitEnd := some (s.now + wait) }

/-- The exhaustion policy at the attempt limit (R76). -/
def exhaust (s : State) (p : Pump) : State :=
  let r := s.pump p
  match s.setup.policy.get p with
  | .name .skip =>
    let s := enter s p (.unavailable .skipped)
    let s := s.setPump p { s.pump p with waitEnd := some (s.now + (s.setup.skipTime.get p).toNat * 60000) }
    s.submit (.pumpFault p r.attempts r.lastTrip)
  | .name .persist =>
    let s := enterBackoff (s.submit (.pumpFault p r.attempts r.lastTrip)) p
    s.setPump p { s.pump p with attempts := 0 }
  | _ => lockOut s p

/-- After a failed attempt: the policy at the limit, BACKOFF below it (R73, R78). -/
def afterAttempt (s : State) (p : Pump) : State :=
  if (s.setup.attemptLimit.get p).toNat ≤ (s.pump p).attempts then exhaust s p else enterBackoff s p

/-- A start fails (R73). A count that a pump kept at 15 is held there (R69), the model's choice (log entry 70). -/
def failStart (s : State) (p : Pump) : State :=
  let s := returnCharge s p
  let s := s.setPump p { s.pump p with attempts := satInc 15 (s.pump p).attempts }
  buildCommand (afterAttempt s p) p true

/-- A trip while running (R78). -/
def tripRunning (s : State) (p : Pump) (cause : TripCause) : State :=
  let s := releaseCharge (notifyFlow (notifySurge s p) p) p
  let s := s.submit (.pumpTripRetry p cause)
  let s := s.setPump p { s.pump p with attempts := 1 }
  buildCommand (afterAttempt s p) p true

/-- A start is confirmed (R72). -/
def confirmStart (s : State) (p : Pump) : State :=
  let s := if (s.pump p).charge = .start then
      (s.setPump p { s.pump p with charge := .running }).raise (.chargeTransfer (.pump p))
    else s
  let s := notifyFlow (notifySurge s p) p
  let s := enter s p .running
  s.setPump p { s.pump p with attempts := 0, runStart := some s.now, stopDeferred := false }

/-- A stop is confirmed (R80). -/
def confirmStop (s : State) (p : Pump) : State :=
  let s := notifySurge (releaseCharge s p) p
  let s := enter s p .resting
  s.setPump p { s.pump p with waitEnd := some (s.now + (s.setup.minRest.get p).toNat * 1000) }

/-! ## Interlock (R54) -/

/-- The interlock's conditions on a delivered record (R54). -/
def interlockHolds (t : Setup) (p : Pump) (d : WellDelivery) : Bool :=
  d.lowFloat == .on
    || match d.level with
       | some level => decide (level ≤ t.dryLevel.get p)
       | none => true

/-- What becomes of a pump whose interlock is set (R54): no RUN for its drive stays in the queues. -/
def interlockPump (s : State) (p : Pump) : State :=
  let s := removeRuns s (driveOf s p)
  match (s.pump p).state with
  | .startWait => enterOff (withdraw s p) p
  | .starting | .running => stopPump s p true
  | _ => s

/-- Evaluating a pump's interlock (R54). What R54 does when it becomes set is done at every evaluation that finds it set, so
that the RUN of an adoption leaves the queues at a fallback exit that finds it set already (R147, step 2). -/
def evalInterlock (d : WellDelivery) (s : State) (p : Pump) : State :=
  let holds := interlockHolds s.setup p d
  let s := s.setPump p { s.pump p with interlock := holds }
  if holds then interlockPump s p else s

/-! ## Speed (R84, R86) -/

/-- The staged speed R84 computes for a VARIABLE pump at a level. -/
def stagedAt (t : Setup) (w : Well) (p : Pump) (level : Int) : Nat :=
  let lo := t.minSpeed.get p
  (clampInt lo 100 (lo + truncDiv ((level - (t.stopLevels.get w).get 1) * t.speedGain.get p) 1000)).toNat

/-- A pump's staged speed is recomputed at a level (R84): 100 while dead-head forcing is set. -/
def restage (w : Well) (level : Int) (s : State) (p : Pump) : State :=
  let f := if s.setup.isVariable p then stagedAt s.setup w p level else 100
  let r := s.pump p
  s.setPump p { r with formula := f, staged := if r.forcing then 100 else f }

/-- DC's estimate of a pump's flow at its well's present head and a speed (R30, R42). -/
def estimate (s : State) (w : Well) (p : Pump) (speed : Nat) : Nat := pumpFlow (dcCurves s w) (headOf s w) p speed

/-- The dead-head judgement of a VARIABLE pump (R86). -/
def judgeDeadHead (s : State) (p : Pump) : State :=
  match s.wellOf p with
  | some w =>
    if s.setup.isVariable p then
      let r := s.pump p
      let dead := decide (estimate s w p r.applied = 0)
      let timer := if r.state = .running ∧ dead then
          match r.deadHeadAt with
          | some t => some t
          | none => some (s.now + s.setup.deadHeadTime.toNat * 1000)
        else none
      let lift := r.forcing && decide (0 < estimate s w p r.formula)
      s.setPump p { r with
        deadHeadAt := timer
        forcing := r.forcing && !lift
        staged := if lift then r.formula else r.staged }
    else s
  | none => s

end Sys2Proof.Machine
end

