-- ==== Sys2Proof/Machine/Demand.lean ====
section
/-! DEFINITION. DC: demand, eligibility, selection and rotation (sections 3.3 to 3.6), and what follows each change DC makes to a
pump. -/

namespace Sys2Proof.Machine

/-! ## Level demand (R50) -/

/-- The rise of R50: while n is below 4 and the level is at or above S(n + 1). `fuel` is 4, the most steps there are. -/
def riseDemand (starts : Four Int) (level : Int) : Nat → Nat → Nat
  | 0, n => n
  | fuel + 1, n => if n < 4 ∧ starts.get (n + 1) ≤ level then riseDemand starts level fuel (n + 1) else n

/-- The fall of R50: while n is above 0 and the level is at or below T(n). -/
def fallDemand (stops : Four Int) (level : Int) : Nat → Nat → Nat
  | 0, n => n
  | fuel + 1, n => if 0 < n ∧ level ≤ stops.get n then fallDemand stops level fuel (n - 1) else n

/-- The level demand after an evaluation (R50): a rise, otherwise a fall. -/
def levelDemand (t : Setup) (w : Well) (level : Int) (n : Nat) : Nat :=
  let up := riseDemand (t.startLevels.get w) level 4 n
  if up = n then fallDemand (t.stopLevels.get w) level 4 n else up

/-! ## Eligibility (R53) -/

/-- States and flags that R53 asks for. -/
def stateEligible (st : PumpState) : Bool :=
  match st with
  | .off | .startWait | .starting | .running => true
  | .lockedOut | .unavailable _ | .backoff | .resting | .stopping | .float => false

def startingOrRunning (st : PumpState) : Bool := st == .starting || st == .running

/-- The drive's last report is TRIPPED (R53); it stands while the drive is silent, until the drive reports another state. -/
def reportsTripped (r : PumpRecord) : Bool :=
  match r.lastReport with
  | some d => d.state == .tripped
  | none => false

/-- The speed at which R53 judges a pump's flow. -/
def eligibilitySpeed (s : State) (p : Pump) : Nat :=
  let r := s.pump p
  if startingOrRunning r.state then 100 else if s.setup.isVariable p then r.staged else 100

/-- A pump is eligible (R53). -/
def eligible (s : State) (w : Well) (p : Pump) : Bool :=
  let r := s.pump p
  stateEligible r.state && !r.disabled && !r.interlock && !(reportsTripped r)
    && decide (0 < estimate s w p (eligibilitySpeed s p))
    && (startingOrRunning r.state || !(historyFull s p))

/-! ## Flow demand and demand (R51, R52) -/

/-- The smallest n whose first n flows add up to at least the inflow; the length of the list when all fall short. -/
def coverCount (inflow : Nat) : List Nat → Nat
  | [] => 0
  | x :: xs => if inflow = 0 then 0 else 1 + coverCount (inflow - x) xs

/-- The speed at which R51 estimates a pump's flow. -/
def demandSpeed (s : State) (p : Pump) : Nat := if s.setup.isVariable p then (s.pump p).applied else 100

/-- The flow demand (R51). -/
def flowDemand (s : State) (w : Well) (inflow : Nat) : Nat :=
  match s.ssu.state with
  | .dry => 0
  | .storm =>
    coverCount inflow (((s.duty.rotation.get w).filter (eligible s w)).map fun p => estimate s w p (demandSpeed s p))

def maxRunning (s : State) (w : Well) : Nat := (s.setup.maxRunning.get w).toNat

/-- A well's demand (R52) from its level demand, at a level. -/
def demandOf (s : State) (w : Well) (n : Nat) (level : Int) (inflow : Nat) : Nat :=
  if s.ssu.well.get w = .restricted ∧ level ≤ s.setup.restrictedStop.get w then 0
  else min (max n (flowDemand s w inflow)) (maxRunning s w)

/-! ## Selection (R56, R57) -/

def isAuto (s : State) (p : Pump) : Bool := (s.pump p).owner == .auto

/-- The AUTO pumps selected for a demand (R56). -/
def selected (s : State) (w : Well) (demand : Nat) : List Pump :=
  let list := s.duty.rotation.get w
  let manual := (list.filter fun p => (s.pump p).owner == .manual && startingOrRunning (s.pump p).state).length
  let places := demand - manual
  let auto := list.filter fun p => isAuto s p && eligible s w p
  let running := (auto.filter fun p => startingOrRunning (s.pump p).state).take places
  let waiting := (auto.filter fun p => (s.pump p).state == .startWait)
    ++ (auto.filter fun p => (s.pump p).state == .off)
  running ++ waiting.take (min (places - running.length) (maxRunning s w - commandedRunning s w))

/-- The min run of a RUNNING pump has elapsed (R57). -/
def minRunElapsed (s : State) (p : Pump) : Bool :=
  match (s.pump p).runStart with
  | some t => decide (t + (s.setup.minRun.get p).toNat * 1000 ≤ s.now)
  | none => true

/-- What R57 does with one AUTO pump. -/
def treat (chosen : List Pump) (s : State) (p : Pump) : State :=
  let r := s.pump p
  let sel := chosen.contains p
  if r.owner ≠ .auto then s
  else
    match r.state with
    | .off => if sel then (enter s p .startWait).raise (.startRequest (.pump p) .pump) else s
    | .startWait => if sel then s else enterOff (withdraw s p) p
    | .running =>
      if sel then s.setPump p { r with stopDeferred := false }
      else if minRunElapsed s p then stopPump s p true
      else s.setPump p { r with stopDeferred := true }
    | _ => s

/-- A selection for a well (R56, R57). -/
def select (s : State) (w : Well) (demand : Nat) : State :=
  State.each (treat (selected s w demand)) (s.duty.rotation.get w) s

/-! ## Rotation (R49) -/

/-- The head moves to the tail. -/
def rotate {α : Type} : List α → List α
  | [] => []
  | x :: xs => xs ++ [x]

/-- An AUTO pump of the well holds a rotation back. -/
def rotationHeld (s : State) (w : Well) : Bool :=
  (s.duty.rotation.get w).any fun p =>
    isAuto s p && ((s.pump p).state == .startWait || startingOrRunning (s.pump p).state || (s.pump p).state == .stopping)

/-- A rotation that is due happens at the first moment nothing holds it back, and none in FALLBACK. -/
def rotateIfDue (s : State) (w : Well) : State :=
  if s.ssu.well.get w != .fallback && s.duty.rotationDue.get w && !(rotationHeld s w) then
    { s with duty := { s.duty with
        rotation := s.duty.rotation.set w (rotate (s.duty.rotation.get w))
        rotationDue := s.duty.rotationDue.set w false } }
  else s

/-- The rotation-due flag after an evaluation takes the demand from one value to another (R49). -/
def dueAfter (flag : Bool) (before after : Nat) : Bool :=
  if 0 < after then false else if 0 < before then true else flag

/-! ## Evaluation (R52) -/

/-- One evaluation of a well's demand with the selection that follows, on a Well Record; none with quality LOST or no level,
nor in FALLBACK (R50, R52). -/
def evaluateOnce (s : State) (w : Well) (d : WellDelivery) : State :=
  if s.ssu.well.get w = .fallback ∨ d.quality = .lost then s
  else
    match d.level with
    | some level =>
      let n := levelDemand s.setup w level (s.duty.levelDemand.get w)
      let dem := demandOf s w n level d.smoothedInflow
      let due := dueAfter (s.duty.rotationDue.get w) (s.duty.demand.get w) dem
      select { s with duty := { s.duty with
          levelDemand := s.duty.levelDemand.set w n
          demand := s.duty.demand.set w dem
          rotationDue := s.duty.rotationDue.set w due } } w dem
    | none => s

/-- What of a pump brings an evaluation when it changes (R52). -/
def trigger (r : PumpRecord) : PumpState × Owner × Bool × Bool × Bool :=
  (r.state, r.owner, r.disabled, r.interlock, reportsTripped r)

/-- A pump of the well changed so that an evaluation is due. -/
def wellChanged (before after : State) (w : Well) : Bool :=
  (after.duty.rotation.get w).any fun p => trigger (before.pump p) != trigger (after.pump p)

/-- Evaluations until a selection changes no pump: its own changes bring evaluations too (R52), and a rotation may fall due at
each (R49). `fuel` bounds them. -/
def evaluateFuel : Nat → State → Well → WellDelivery → State
  | 0, s, _, _ => s
  | n + 1, s, w, d =>
    let s' := rotateIfDue (evaluateOnce s w d) w
    if wellChanged s s' w then evaluateFuel n s' w d else s'

/-- An evaluation of a well's demand on a Well Record, after a rotation that waited for what brought it (R49, R80). A selection
only withdraws, requests or stops, so eight are more than four pumps can ask for. -/
def evaluate (s : State) (w : Well) (d : WellDelivery) : State := evaluateFuel 8 (rotateIfDue s w) w d

/-- An evaluation on the Well Record as it stands. -/
def evaluateLive (s : State) (w : Well) : State := evaluate s w (deliveryOf (s.well w))

/-! ## The limit of R55 -/

/-- A well's commanded-running count with its pumps in START_WAIT (R55). -/
def commandedOrWaiting (s : State) (w : Well) : Nat :=
  ((s.duty.rotation.get w).filter fun p =>
    (s.pump p).state == .startWait || startingOrRunning (s.pump p).state).length

/-- A pump in START_WAIT beyond the limit gives up its request. -/
def withdrawExcess (w : Well) (s : State) (p : Pump) : State :=
  if (s.pump p).state = .startWait ∧ maxRunning s w < commandedOrWaiting s w then enterOff (withdraw s p) p else s

/-- An evaluation that ends within the limit of R55. A selection keeps to it; where the level is LOST and there is no selection
(R50), the last of the waiting pumps in rotation order give up their requests (log entry 56). -/
def evaluateWithin (s : State) (w : Well) : State :=
  let s := evaluateLive s w
  State.each (withdrawExcess w) (s.duty.rotation.get w).reverse s

/-! ## What follows a change (R32, R43, R49, R52, R86) -/

/-- What a pump flow notice tells of (R32). -/
def flowView (s : State) (p : Pump) : Bool × Nat × Nat × Option Well :=
  (countsRunning (s.pump p), speedUsed s p, (if countsRunning (s.pump p) then (s.pump p).applied else 0), s.wellOf p)

/-- The run-second timer of a pump that begins or ceases to count as running (R43). -/
def runTick (before after : State) (p : Pump) : State :=
  if countsRunning (before.pump p) = countsRunning (after.pump p) then after
  else after.setPump p { after.pump p with
    runTickAt := if countsRunning (after.pump p) then some (after.now + 1000) else none }

/-- The pump's flow notice has been sent already in this step (R72, R78). -/
def noticeSent (before after : State) (p : Pump) : Bool :=
  (after.raised.drop before.raised.length).contains (.pumpFlowNotice p none)

/-- The flow notice of a pump whose flow view changed (R32), once. -/
def noticeFlow (before : State) (s : State) (p : Pump) : State :=
  let s := runTick before s p
  s.raiseIf (flowView before p != flowView s p && !(noticeSent before s p))
    (.pumpFlowNotice p (if before.wellOf p = s.wellOf p then none else before.wellOf p))

/-- A pump whose state or applied speed changed is judged for dead-head (R86). -/
def judgeChanged (before : State) (s : State) (p : Pump) : State :=
  if (before.pump p).state = (s.pump p).state ∧ (before.pump p).applied = (s.pump p).applied then s
  else judgeDeadHead s p

/-- The evaluation of a well where a pump of it changed. -/
def evaluateChanged (before : State) (s : State) (w : Well) : State :=
  if wellChanged before s w then evaluateLive s w else s

/-- All that follows what DC did from `before` to `after`: evaluations, rotations, judgements, flow notices, in this order (log
entry 60), well A before well B (log entry 57), and the pumps in ascending number (log entry 59): the model's choices. -/
def settle (before after : State) : State :=
  let s := State.each (evaluateChanged before) Well.all after
  let s := State.each rotateIfDue Well.all s
  let s := State.each (judgeChanged before) Pump.all s
  State.each (noticeFlow before) Pump.all s

/-- A step of DC with all that follows it. -/
def dcStep (s : State) (f : State → State) : State := settle s (f s)

/-- A command of DC. -/
def whenDc (s : State) (f : State → State) : Host.Outcome State Fault Refusal := whenLive s fun s => dcStep s f

/-- A timer's command of DC. -/
def whenDueDc (s : State) (t : Option Ms) (f : State → State) : Host.Outcome State Fault Refusal :=
  whenDue s t fun s => dcStep s f

end Sys2Proof.Machine
end

