-- ==== Sys2Proof/Machine/OverflowBlock.lean ====
section
/-! DEFINITION. OA: overflow accounting (chapter 7). -/

namespace Sys2Proof.Machine

/-! ## The curve (R121, R122, R133, R134) -/

/-- A WEIR switch is arranged and not complete (R133). -/
def weirScheduled (s : State) : Bool :=
  match s.mu.commit with
  | .scheduled .weir _ => true
  | _ => false

/-- The seventeen flows of a point. -/
def weirFlows (t : Weir) (o : Point) : List Nat := (t.flows.drop (17 * o.index)).take 17

/-- The curve a point reads, its head step and flows; `none` while its bank is EMPTY. A point that has taken an arranged
switch reads the new bank (R133). -/
def weirCurve (s : State) (o : Point) : Option (Nat × List Nat) :=
  let b := s.tables.weir
  if weirScheduled s && !(s.point o).pendingSwitch then some (b.inactive.steps.get o, weirFlows b.inactive o)
  else if b.isEmpty then none
  else some (b.active.steps.get o, weirFlows b.active o)

/-- What a sample says: its time, head, flow, whether it spills, and whether its flow is an estimate (beyond the curve, or
with no curve). -/
structure SpillSample where
  time : Ms
  head : Int
  flow : Nat
  spills : Bool
  estimated : Bool
  deriving DecidableEq, Repr

/-- The flow of a sample from its head (R122, R134). -/
def spillSample (s : State) (o : Point) (level : Int) (time : Ms) : SpillSample :=
  let h := level - s.setup.crest.get o
  let spills := decide (s.setup.deadBand.get o < h)
  match weirCurve s o with
  | some (stepSize, flows) =>
    if spills then
      let x := weirFlow stepSize flows h
      ⟨time, h, x.1, true, x.2⟩
    else ⟨time, h, 0, false, false⟩
  | none => ⟨time, h, 0, spills, true⟩

/-! ## Cause flags (R131) -/

/-- A pump stands in the way of its well (R131, PUMPS_UNAVAILABLE). -/
def pumpOut (st : PumpState) : Bool :=
  match st with
  | .lockedOut | .backoff => true
  | .unavailable .notFitted => false
  | .unavailable _ => true
  | _ => false

/-- The head of the Start Queue is a pump's request. -/
def pumpAtHead (b : Budget) : Bool :=
  match b.queue with
  | ⟨.pump _, _, _⟩ :: _ => true
  | _ => false

/-- The conditions that hold now, as their owners hold them (R131). -/
def causesNow (s : State) (o : Point) : CauseFlags :=
  let w := pointWell o
  { allPumpsRunning := commandedRunning s w == maxRunning s w
    pumpsUnavailable := (s.setup.pumpsOf w).any fun p => pumpOut (s.pump p).state
    tideLocked := s.ssu.tideLock
    screenBlinded := s.ssu.well.get w == .restricted
    supplyLimited := pumpAtHead s.budget
    fallback := s.ssu.well.get w == .fallback
    sensorDegraded := (s.chan (pointQuantity o)).quality != .good }

/-- A flag once set stays set (R131). -/
def joinCauses (a b : CauseFlags) : CauseFlags where
  allPumpsRunning := a.allPumpsRunning || b.allPumpsRunning
  pumpsUnavailable := a.pumpsUnavailable || b.pumpsUnavailable
  tideLocked := a.tideLocked || b.tideLocked
  screenBlinded := a.screenBlinded || b.screenBlinded
  supplyLimited := a.supplyLimited || b.supplyLimited
  fallback := a.fallback || b.fallback
  sensorDegraded := a.sensorDegraded || b.sensorDegraded

/-- The slot of a point, changed if it is present. -/
def updateSlot (s : State) (o : Point) (f : Slot → Slot) : State :=
  s.setPoint o { s.point o with slot := (s.point o).slot.map f }

/-- An evaluation of the cause flags. -/
def evaluateCauses (s : State) (o : Point) : State :=
  updateSlot s o fun x => { x with causes := joinCauses x.causes (causesNow s o) }

/-! ## The weir switch (R133) -/

/-- Both points have taken the new bank. -/
def weirTaken (s : State) : Bool := !(s.points.one.pendingSwitch) && !(s.points.two.pendingSwitch)

/-- A pending switch takes effect at a point; the last point completes it. -/
def takeWeir (s : State) (o : Point) : State :=
  if (s.point o).pendingSwitch then
    let s := s.setPoint o { s.point o with pendingSwitch := false }
    let s := updateSlot s o fun x => { x with flags := { x.flags with tableChanged := true } }
    if weirTaken s then completeCommit s .weir else s
  else s

/-! ## Samples (R124 to R129) -/

/-- The uncapped interval since the previous sample. -/
def sinceLast (r : PointRecord) (time : Ms) : Option Nat := r.previous.map fun x => time - x.2

/-- Step 4 of R126. -/
def notePeaks (v : SpillSample) (x : Slot) : Slot :=
  if v.spills then
    { x with lastSpill := v.time, peakFlow := max x.peakFlow v.flow, peakHead := max x.peakHead v.head }
  else x

/-- Half-millilitres that an interval adds: the trapezoid over at most 10 s (R126, steps 1 and 2). -/
def intervalVolume (before flow dt : Nat) : Nat := (before + flow) * min dt 10000

/-- R126 on a slot, with the previous flow and the interval. -/
def integrateSlot (before dt : Nat) (v : SpillSample) (x : Slot) : Slot :=
  let acc := x.accumulator + intervalVolume before v.flow dt
  { x with
    volume := x.volume + acc / 2000
    accumulator := acc % 2000
    flags := { x.flags with estimated := x.flags.estimated || decide (10000 < dt) } }

/-- The litres R126 adds to the slot and to the cumulative litres. -/
def litresAdded (before dt : Nat) (v : SpillSample) (x : Slot) : Nat :=
  (x.accumulator + intervalVolume before v.flow dt) / 2000

/-- The flags a sample sets in a present slot: GAP at the first after a loss (R130), ESTIMATED (R122, R134). -/
def noteFlags (v : SpillSample) (x : Slot) : Slot :=
  { x with
    gapOpen := false
    flags := { x.flags with gap := x.flags.gap || x.gapOpen, estimated := x.flags.estimated || v.estimated } }

/-- The point's record after step 3 of R124. -/
def integratePoint (r : PointRecord) (v : SpillSample) : PointRecord :=
  match r.slot with
  | some x =>
    match r.previous with
    | some (before, t) =>
      let dt := v.time - t
      { r with
        slot := some (notePeaks v (integrateSlot before dt v (noteFlags v x)))
        cumulative := r.cumulative + litresAdded before dt v x }
    | none => { r with slot := some (notePeaks v (noteFlags v x)) }
  | none => r

/-- A new slot (R125). -/
def newSlot (v : SpillSample) : Slot where
  number := none
  start := v.time
  stop := none
  volume := 0
  accumulator := 0
  peakFlow := v.flow
  peakHead := v.head
  lastSpill := v.time
  confirmClock := 0
  causes := .clear
  flags := { QualityFlags.clear with estimated := v.estimated }
  gapOpen := false

/-- A point's spill state changes, and the new one is delivered to SSU (R124). -/
def setSpill (s : State) (o : Point) (st : SpillState) : State :=
  (s.setPoint o { s.point o with spill := st }).raise (.spillStateDelivery o st)

/-- An event is confirmed (R127). -/
def confirmEvent (s : State) (o : Point) (x : Slot) : State :=
  let r := s.point o
  let n := r.events + 1
  let x := { x with number := some n, confirmClock := 0 }
  let s := setSpill (s.setPoint o { r with events := n, slot := some x }) o .open_
  s.submit (.overflowOpen o n (stationSeconds s x.start) x.peakFlow x.peakHead x.volume x.causes)

/-- The slot is removed, and the point is DRY. -/
def removeSlot (s : State) (o : Point) (unconfirmed : Nat) : State :=
  let r := s.point o
  setSpill (s.setPoint o { r with slot := none, unconfirmed := r.unconfirmed + unconfirmed }) o .dry

/-- An event ends (R129). -/
def closeEvent (s : State) (o : Point) (x : Slot) : State :=
  let s := s.submit (.overflowClose o (x.number.getD 0) (stationSeconds s x.start)
    (stationSeconds s (x.stop.getD x.lastSpill)) x.volume x.peakFlow x.peakHead x.causes x.flags)
  removeSlot s o 0

/-- A seconds value of the setup in ms. -/
def secondsMs (v : Int) : Nat := v.toNat * 1000

/-- TENTATIVE takes a sample (R127). -/
def sampleTentative (s : State) (o : Point) (v : SpillSample) (x : Slot) : State :=
  if v.spills then
    let x := { x with confirmClock := x.confirmClock + (sinceLast (s.point o) v.time).getD 0 }
    if secondsMs (s.setup.openConfirm.get o) ≤ x.confirmClock then confirmEvent s o x
    else s.setPoint o { s.point o with slot := some x }
  else removeSlot s o x.volume

/-- OPEN takes a sample (R128). -/
def sampleOpen (s : State) (o : Point) (v : SpillSample) (x : Slot) : State :=
  if v.spills then s
  else
    let x := { x with stop := some x.lastSpill, confirmClock := (sinceLast (s.point o) v.time).getD 0 }
    setSpill (s.setPoint o { s.point o with slot := some x }) o .closing

/-- CLOSING takes a sample (R129). -/
def sampleClosing (s : State) (o : Point) (v : SpillSample) (x : Slot) : State :=
  if v.spills then
    setSpill (s.setPoint o { s.point o with slot := some { x with stop := none, confirmClock := 0 } }) o .open_
  else
    let x := { x with confirmClock := x.confirmClock + (sinceLast (s.point o) v.time).getD 0 }
    if secondsMs (s.setup.closeConfirm.get o) ≤ x.confirmClock then closeEvent s o x
    else s.setPoint o { s.point o with slot := some x }

/-- DRY takes a sample (R125). -/
def sampleDry (s : State) (o : Point) (v : SpillSample) : State :=
  if v.spills then
    evaluateCauses (setSpill (s.setPoint o { s.point o with slot := some (newSlot v) }) o .tentative) o
  else s

/-- Step 4 of R124. -/
def sampleByState (s : State) (o : Point) (v : SpillSample) : State :=
  match (s.point o).slot, (s.point o).spill with
  | some x, .tentative => sampleTentative s o v x
  | some x, .open_ => sampleOpen s o v x
  | some x, .closing => sampleClosing s o v x
  | _, .dry => sampleDry s o v
  | none, _ => s

/-- The steps of R124. -/
def takeSample (s : State) (o : Point) (level : Int) (time : Ms) : State :=
  let s := takeWeir s o
  let v := spillSample s o level time
  let s := evaluateCauses (s.setPoint o (integratePoint (s.point o) v)) o
  let s := sampleByState s o v
  s.setPoint o { s.point o with previous := some (v.flow, v.time) }

/-- A quality notice (R124, R130, R133). -/
def takeNotice (s : State) (o : Point) (q : Quality) : State :=
  if q = .good then s
  else
    let s := if q = .lost ∨ q = .suspect then takeWeir s o else s
    let s := s.setPoint o { s.point o with previous := none }
    let s := updateSlot s o fun x => { x with gapOpen := true, causes := { x.causes with sensorDegraded := true } }
    evaluateCauses s o

/-- OVERFLOW_LEVEL_UPDATE (R124). -/
def execOverflowLevelUpdate (o : Point) (u : ChannelUpdate) (s : State) : Host.Outcome State Fault Refusal :=
  whenLive s fun s =>
    match u.stored && u.quality == .good, u.value with
    | true, some level => takeSample s o level (u.storedAt.getD s.now)
    | _, _ => takeNotice s o u.quality

/-- WELL_RECORD_DELIVERY_OA (R131). -/
def execWellRecordDeliveryOa (w : Well) (_d : WellDelivery) (s : State) : Host.Outcome State Fault Refusal :=
  whenLive s fun s => evaluateCauses s (pointOfWell w)

/-- WELL_STATE_TO_OA (R131, R142, R143): an evaluation of the cause flags, the well state among the conditions that OA reads as
SSU holds them (log entry 21). -/
def execWellStateToOa (w : Well) (_st : WellState) (s : State) : Host.Outcome State Fault Refusal :=
  whenLive s fun s => evaluateCauses s (pointOfWell w)

end Sys2Proof.Machine
end

