-- ==== Sys2Proof/Machine/Channels.lean ====
section
/-! DEFINITION. CU: channels and the Sample Map (chapter 1). -/

namespace Sys2Proof.Machine

/-! ## Deliveries (R5) -/

/-- The consumer's event for an update of a quantity (R5). A well's quantities come with the well's two transducer channels as
CU holds them at the delivery, which R21 has the selection use (log entry 44). -/
def updateEvent (s : State) (q : Quantity) (u : ChannelUpdate) : Instr :=
  match q with
  | .la1 | .la2 | .fah | .fal => .levelSelection q u (channelView s .la1) (channelView s .la2)
  | .lb1 | .lb2 | .fbh | .fbl => .levelSelection q u (channelView s .lb1) (channelView s .lb2)
  | .riv => .rivUpdateSsu u
  | .su1 => .upstreamLevelUpdate .s1 u
  | .su2 => .upstreamLevelUpdate .s2 u
  | .su3 => .upstreamLevelUpdate .s3 u
  | .ov1 => .overflowLevelUpdate .one u
  | .ov2 => .overflowLevelUpdate .two u
  | .rh1 => .homeQualityNotice .s1 u
  | .rh2 => .homeQualityNotice .s2 u
  | .rh3 => .homeQualityNotice .s3 u

/-- CU delivers a quantity's update as its record stands; `stored` says that a stored sample gave it. -/
def deliver (s : State) (q : Quantity) (stored : Bool) : State :=
  s.raise (updateEvent s q { channelView s q with stored := stored })

/-- The screen of a home quantity. -/
def homeScreen : Quantity → Option Screen
  | .rh1 => some .s1
  | .rh2 => some .s2
  | .rh3 => some .s3
  | _ => none

/-! ## Cadence (R11, R18) -/

def findNode (s : State) (node : Nat) : Option CadenceState := s.nodes.find? fun c => c.node == node

/-- The stale time of a class: three cadence periods (R11). -/
def staleMs : StationState → Nat
  | .dry => 30000
  | .storm => 3000

/-- The stale time of a node's channels, by the class recorded for it (R11). -/
def staleOf (s : State) (node : Nat) : Nat :=
  match findNode s node with
  | some c => staleMs c.recorded
  | none => staleMs s.ssu.state

def updateNode (s : State) (node : Nat) (f : CadenceState → CadenceState) : State :=
  { s with nodes := s.nodes.map fun c => if c.node == node then f c else c }

/-- A changed class resets the staleness deadline of every channel of the node (R11). -/
def resetStale (s : State) (node : Nat) (cls : StationState) : State :=
  State.each (fun s e => match e.quantity with
    | .name q => s.setChan q { s.chan q with staleAt := some (s.now + staleMs cls) }
    | .unnamed _ => s) ((mapEntries s).filter fun e => e.node == node) s

/-- What CU does for a node when its frame is placed (R18). -/
def cadencePlaced (s : State) (node : Nat) (cls : StationState) : State :=
  let changed := match findNode s node with
    | some c => c.recorded != cls
    | none => false
  let s := if changed then resetStale s node cls else s
  updateNode s node fun c => { c with recorded := cls, retryAt := none, repeatAt := some (s.now + 600000) }

/-- Offering a node a CADENCE frame that carries the station state as it stands (R18); `none` when not placed. -/
def placeCadence (s : State) (node : Nat) (ref : Option Nat) : Option State :=
  (offerControl s node none (.cadence s.ssu.state ref)).map fun s' => cadencePlaced s' node s.ssu.state

/-- Offering an ordinary CADENCE frame: not placed, it is pending and offered again after 1 s (R18). -/
def offerCadence (s : State) (node : Nat) : State :=
  (placeCadence s node none).getD
    (updateNode s node fun c => { c with retryAt := nextOffer c.retryAt s.now })

/-- One frame to every node of the map, in ascending address order (R18). -/
def offerCadenceAll (s : State) : State := State.each (fun s c => offerCadence s c.node) s.nodes s

/-! ## Reference checks (R16, R17) -/

def referenceMs (s : State) : Nat := s.setup.referenceInterval.toNat * 3600000

/-- Requesting a reference check of a quantity by its entry (R16): a frame that is not placed is offered again after 1 s. -/
def requestReference (s : State) (q : Quantity) (e : SampleEntry) : State :=
  match placeCadence s e.node (some e.channel) with
  | some s => s.setChan q { s.chan q with
      awaiting := some s.now, referenceAt := some (s.now + referenceMs s), referenceRetryAt := none }
  | none => s.setChan q { s.chan q with referenceRetryAt := nextOffer (s.chan q).referenceRetryAt s.now }

/-! ## Quality (R12 to R15) -/

/-- A channel enters SUSPECT, unless it is SUSPECT (R14). Its hold deadline becomes absent (log entry 45). -/
def enterSuspect (s : State) (q : Quantity) (cause : SuspectCause) : State :=
  let r := s.chan q
  if r.quality = .suspect then s
  else
    let s := s.setChan q { r with quality := .suspect, holdAt := none }
    (deliver s q false).submit (.sensorSuspect q cause)

/-- The quality a channel takes on leaving SUSPECT (R15). -/
def leaveSuspect (s : State) (q : Quantity) (holdLimit : Nat) : State :=
  let r := { s.chan q with rejects := 0, recovery := 0 }
  if r.value.isNone then deliver (s.setChan q { r with quality := .lost }) q false
  else if due r.staleAt s.now then
    deliver (s.setChan q { r with quality := .held, holdAt := some (s.now + holdLimit * 1000) }) q false
  else (deliver (s.setChan q { r with quality := .good }) q false).submit (.sensorRecovered q .suspect)

/-- One more stored sample while HELD or LOST: the second takes the channel to GOOD (R13). The hold deadline then becomes
absent, as at every exit from HELD: the model's choice (log entry 45). -/
def recovered (r : ChannelRecord) : ChannelRecord :=
  match r.quality with
  | .held | .lost =>
    if 1 ≤ r.recovery then { r with quality := .good, recovery := 0, holdAt := none }
    else { r with recovery := r.recovery + 1 }
  | .good | .suspect => r

/-- The record of a recovery, when the channel leaves LOST (R13). -/
def recoveryRecord (s : State) (q : Quantity) (before after : Quality) : State :=
  if before = .lost ∧ after = .good then s.submit (.sensorRecovered q .lost) else s

/-! ## Readings (R6 to R8, R17) -/

/-- A raw code as a level (R8). -/
def levelOf (e : SampleEntry) (raw : Nat) : Int :=
  clampInt (-5000) 15000 (e.zero + truncDiv ((raw : Int) * e.span) 4095)

/-- The well's surge blanking window is open (R10). -/
def blanked (s : State) (q : Quantity) : Bool :=
  match transducerWell q with
  | some w => match s.blanking.get w with
    | some t => decide (s.now < t)
    | none => false
  | none => false

/-- An arrival moves the time of last arrival and the staleness deadline (R6, R11). -/
def arrive (s : State) (q : Quantity) (node : Nat) : State :=
  s.setChan q { s.chan q with arrivedAt := some s.now, staleAt := some (s.now + staleOf s node) }

/-- A reference reading (R17). -/
def takeReference (s : State) (q : Quantity) (e : SampleEntry) (rd : Reading) : State :=
  let r := s.chan q
  match r.awaiting, e.expected, e.tolerance with
  | some _, some expected, some tolerance =>
    let s := s.setChan q { r with awaiting := none }
    if rd.range || decide (tolerance < rd.raw - expected + (expected - rd.raw)) then enterSuspect s q .reference
    else if r.quality = .suspect then leaveSuspect s q e.holdLimit
    else s
  | _, _, _ => s

/-- A rejected reading (R7): the third in a row takes the channel into SUSPECT. -/
def rejectReading (s : State) (q : Quantity) : State :=
  let r := s.chan q
  let n := satInc 255 r.rejects
  let s := s.setChan q { r with rejects := n, recovery := 0 }
  if 3 ≤ n then enterSuspect s q .rejects else s

/-- A stored reading (R7, R13). -/
def storeReading (s : State) (q : Quantity) (v : Int) : State :=
  let r := s.chan q
  let r' := recovered { r with value := some v, storedAt := some s.now, rejects := 0 }
  recoveryRecord (deliver (s.setChan q r') q true) q r.quality r'.quality

/-- The tests of R7, in order, on a reading that has arrived. -/
def takeAnalog (s : State) (q : Quantity) (e : SampleEntry) (rd : Reading) : State :=
  if rd.isRef then takeReference s q e rd
  else if rd.range || decide (rd.raw < e.windowLow ∨ e.windowHigh < rd.raw) then rejectReading s q
  else if blanked s q then s.setChan q { s.chan q with rejects := 0 }
  else storeReading s q (levelOf e rd.raw)

/-- One reading of a SAMPLE frame (R6). -/
def takeReading (src : Addr) (s : State) (rd : Reading) : State :=
  match entryAt s src rd.channel with
  | some e => match e.kind, e.quantity with
    | .analog, .name q => takeAnalog (arrive s q src) q e rd
    | _, _ => s
  | none => s

/-- SAMPLE_FRAME (R6): the readings in payload order. -/
def execSampleFrame (src : Addr) (payload : List Byte) (s : State) : Host.Outcome State Fault Refusal :=
  whenLive s fun s => match sampleReadings payload with
    | some rs => State.each (takeReading src) rs s
    | none => s

/-! ## Edges (R9) -/

/-- What CU delivers for a changed discrete state: the home switches reach SC as edges with their arrival time. -/
def deliverEdge (s : State) (q : Quantity) (before : Option Int) (after : Int) (qualityChanged : Bool) : State :=
  match homeScreen q with
  | some k =>
    let s := if before = some 1 ∧ after = 0 then s.raise (.homeOffEdge k s.now)
      else if before = some 0 ∧ after = 1 then s.raise (.homeOnEdge k s.now)
      else s
    if qualityChanged || before.isNone then deliver s q true else s
  | none => deliver s q true

/-- An arrival for a DISCRETE entry (R9). -/
def takeEdge (s : State) (q : Quantity) (e : SampleEntry) (st : Bool) (count : BitVec 8) : State :=
  let s := arrive s q e.node
  let r := s.chan q
  let v : Int := if st != e.invert then 1 else 0
  let r' := recovered { r with value := some v, storedAt := some s.now, edgeCount := some count }
  let s := s.setChan q r'
  let s := if r.value ≠ some v then deliverEdge s q r.value v (r.quality != r'.quality)
    else if r.quality ≠ r'.quality then deliver s q true
    else s
  recoveryRecord s q r.quality r'.quality

/-- EDGE_FRAME (R9). -/
def execEdgeFrame (src : Addr) (payload : List Byte) (s : State) : Host.Outcome State Fault Refusal :=
  whenLive s fun s => match edgeFields payload with
    | some (ch, st, count) => match entryAt s src ch with
      | some e => match e.kind, e.quantity with
        | .discrete, .name q => takeEdge s q e st count
        | _, _ => s
      | none => s
    | none => s

/-! ## Deadlines -/

/-- The hold limit of a quantity's entry (R1); an unmapped quantity has none. -/
def holdLimitOf (s : State) (q : Quantity) : Nat :=
  match entryFor s q with
  | some e => e.holdLimit
  | none => 0

/-- A GOOD channel becomes HELD (R11). -/
def becomeHeld (s : State) (q : Quantity) : State :=
  let r := s.chan q
  deliver (s.setChan q { r with
    quality := .held, recovery := 0, holdAt := some (s.now + holdLimitOf s q * 1000) }) q false

/-- STALENESS_DEADLINE (R11): it has an effect in GOOD alone. -/
def execStalenessDeadline (q : Quantity) (s : State) : Host.Outcome State Fault Refusal :=
  whenDue s (s.chan q).staleAt fun s => if (s.chan q).quality = .good then becomeHeld s q else s

/-- A HELD channel becomes LOST (R12). Its hold deadline becomes absent (log entry 45). -/
def becomeLost (s : State) (q : Quantity) : State :=
  let r := s.chan q
  (deliver (s.setChan q { r with quality := .lost, recovery := 0, holdAt := none }) q false).submit (.sensorLost q)

/-- HOLD_DEADLINE (R12). -/
def execHoldDeadline (q : Quantity) (s : State) : Host.Outcome State Fault Refusal :=
  whenDue s (s.chan q).holdAt fun s => if (s.chan q).quality = .held then becomeLost s q else s

/-- A reported transducer becomes SUSPECT with cause FLOAT (R14, R24); one that the map no longer holds stays LOST (R3). -/
def contradict (s : State) (q : Quantity) (reported : Bool) : State :=
  if reported && (entryFor s q).isSome then enterSuspect s q .float else s

/-- FLOAT_CONTRADICTION (R24, R14): each transducer it is reported for becomes SUSPECT. -/
def execFloatContradiction (w : Well) (s : State) (first second : Bool := true) : Host.Outcome State Fault Refusal :=
  whenLive s fun s => contradict (contradict s (firstTransducer w) first) (secondTransducer w) second

/-- SURGE_NOTICE (R10). -/
def execSurgeNotice (w : Well) (s : State) : Host.Outcome State Fault Refusal :=
  whenLive s fun s => { s with blanking := s.blanking.set w (some (s.now + s.setup.surgeBlanking.toNat * 1000)) }

/-- REFERENCE_INTERVAL_EXPIRY (R16): awaited already, the timer restarts; otherwise a check is requested, and the timer stays
stopped until its frame is placed (log entry 46). -/
def execReferenceIntervalExpiry (q : Quantity) (s : State) : Host.Outcome State Fault Refusal :=
  whenDue s (s.chan q).referenceAt fun s =>
    match entryFor s q with
    | some e =>
      if (s.chan q).awaiting.isSome then
        s.setChan q { s.chan q with referenceAt := some (s.now + referenceMs s) }
      else requestReference (s.setChan q { s.chan q with referenceAt := none }) q e
    | none => s.setChan q { s.chan q with referenceAt := none }

/-- REFERENCE_RETRY (R16). -/
def execReferenceRetry (q : Quantity) (s : State) : Host.Outcome State Fault Refusal :=
  whenDue s (s.chan q).referenceRetryAt fun s =>
    match entryFor s q with
    | some e => requestReference s q e
    | none => s.setChan q { s.chan q with referenceRetryAt := none }

/-- The end of an awaited check (R17): 60 s after the request time. -/
def referenceTimeoutAt (r : ChannelRecord) : Option Ms := r.awaiting.map (· + 60000)

/-- REFERENCE_TIMEOUT (R17). -/
def execReferenceTimeout (q : Quantity) (s : State) : Host.Outcome State Fault Refusal :=
  whenDue s (referenceTimeoutAt (s.chan q)) fun s => s.setChan q { s.chan q with awaiting := none }

/-- The repeat timer and the next retry of a node. -/
def nodeRepeatAt (s : State) (node : Nat) : Option Ms := (findNode s node).bind (·.repeatAt)
def nodeRetryAt (s : State) (node : Nat) : Option Ms := (findNode s node).bind (·.retryAt)

/-- CADENCE_REPEAT_EXPIRY (R18): the timer runs again from the next placement (log entry 46). -/
def execCadenceRepeatExpiry (node : Nat) (s : State) : Host.Outcome State Fault Refusal :=
  whenDue s (nodeRepeatAt s node) fun s =>
    offerCadence (updateNode s node fun c => { c with repeatAt := none }) node

/-- CADENCE_RETRY (R18). -/
def execCadenceRetry (node : Nat) (s : State) : Host.Outcome State Fault Refusal :=
  whenDue s (nodeRetryAt s node) fun s => offerCadence s node

/-- STATION_STATE_TO_CU (R18): frames carry the station state as it stands when they are offered. -/
def execStationStateToCu (_st : StationState) (s : State) : Host.Outcome State Fault Refusal :=
  whenLive s offerCadenceAll

/-! ## Gates on channels -/

/-- CHANNEL_CLEAR (R15): the state, and whether the action applied. -/
def channelClear (s : State) (q : Quantity) : State × Bool :=
  match entryFor s q with
  | some e => if (s.chan q).quality = .suspect then (leaveSuspect s q e.holdLimit, true) else (s, false)
  | none => (s, false)

/-- REF_CHECK (R16). -/
def refCheck (s : State) (q : Quantity) : State × Bool :=
  match entryFor s q with
  | some e =>
    if e.expected.isSome ∧ (s.chan q).awaiting.isNone then (requestReference s q e, true) else (s, false)
  | none => (s, false)

/-! ## The Sample Map switch (R3) -/

/-- Distinct node addresses of entries, ascending: entries stand in ascending order of key (R1). -/
def nodeList (es : List SampleEntry) : List Nat := (es.map (·.node)).eraseDups

/-- A record back at its reset values, delivered (R3). -/
def resetChannel (s : State) (q : Quantity) (referenceAt : Option Ms) : State :=
  deliver (s.setChan q (ChannelRecord.reset referenceAt)) q false

/-- The interval timer of an entry, started now (R16). -/
def referenceStart (s : State) (e : SampleEntry) : Option Ms :=
  if e.expected.isSome then some (s.now + referenceMs s) else none

/-- What a switch does to a record whose key and kind stay (R3). -/
def keepChannel (s : State) (q : Quantity) (old new : SampleEntry) : State :=
  let r := s.chan q
  if new.expected.isNone then s.setChan q { r with awaiting := none, referenceAt := none, referenceRetryAt := none }
  else if old.expected.isNone then s.setChan q { r with referenceAt := some (s.now + referenceMs s) }
  else s

/-- What a switch does to one quantity's record (R3). -/
def switchChannel (old new : List SampleEntry) (s : State) (q : Quantity) : State :=
  match entriesFind old q, entriesFind new q with
  | some o, some n =>
    if o.node = n.node ∧ o.channel = n.channel ∧ o.kind = n.kind then keepChannel s q o n
    else resetChannel s q (referenceStart s n)
  | none, some n => resetChannel s q (referenceStart s n)
  | some _, none => resetChannel s q none
  | none, none => s

/-- The cadence states after a switch: those of nodes still there, new ones with the station state (R18) and a repeat timer
that runs from the switch (log entry 46). -/
def switchNodes (s : State) (nodes : List Nat) : List CadenceState :=
  nodes.map fun n => (findNode s n).getD ⟨n, s.ssu.state, none, some (s.now + 600000)⟩

/-- The switch as CU takes it, the new bank being active (R3): `old` are the entries before it. The records come before the
CADENCE frames of the new nodes, and the quantities in the order of the manual's list: the model's choices (log entry 59). Each
quantity is reset and delivered before the next, so that LA1's selection carries LA2 as it stood before its own reset: the
model's choice too (log entry 68). -/
def takeSampleMap (old : List SampleEntry) (s : State) : State :=
  let new := mapEntries s
  let s := State.each (switchChannel old new) Quantity.all s
  let before := nodeList old
  let nodes := nodeList new
  let s := { s with nodes := switchNodes s nodes }
  State.each offerCadence (nodes.filter fun n => !(before.contains n)) s

end Sys2Proof.Machine
end

