-- ==== Sys2Proof/Machine/DutyBlock.lean ====
section
/-! DEFINITION. DC: the commands that reach it (chapters 3, 4 and 8), the pump gates, and the policing of manual drive
commands. -/

namespace Sys2Proof.Machine

/-! ## Deliveries and notices -/

/-- The staged speeds of a well's pumps at a delivery of quality GOOD or HELD (R84). -/
def restageWell (s : State) (w : Well) (d : WellDelivery) : State :=
  match d.quality, d.level with
  | .lost, _ => s
  | _, none => s
  | _, some level => State.each (restage w level) (s.setup.pumpsOf w) s

/-- What a Well Record delivery brings in DC, before what follows it (R54, R84, R86, R52). That they come in this order is the
model's choice (log entry 60), and so is that each takes the pumps of the well in ascending number (log entry 59). -/
def takeDelivery (s : State) (w : Well) (d : WellDelivery) : State :=
  let s := State.each (evalInterlock d) (s.setup.pumpsOf w) s
  let s := restageWell s w d
  let s := State.each judgeDeadHead (s.setup.pumpsOf w) s
  evaluate s w d

/-- WELL_RECORD_DELIVERY_DC (R52). -/
def execWellRecordDeliveryDc (w : Well) (d : WellDelivery) (s : State) : Host.Outcome State Fault Refusal :=
  whenDc s fun s => takeDelivery s w d

/-- STATION_STATE_TO_DC (R141): each well not in FALLBACK is evaluated, well A first, the model's choice (log entry 57). -/
def execStationStateToDc (_st : StationState) (s : State) : Host.Outcome State Fault Refusal :=
  whenDc s fun s => State.each evaluateLive Well.all s

/-- WELL_STATE_TO_DC (R142). -/
def execWellStateToDc (w : Well) (_st : WellState) (s : State) : Host.Outcome State Fault Refusal :=
  whenDc s fun s => evaluateLive s w

/-- CURVE_SWITCH_NOTICE (R40): from it DC's estimates for the well use the new bank. -/
def execCurveSwitchNotice (w : Well) (s : State) : Host.Outcome State Fault Refusal :=
  whenLive s fun s =>
    let new := curvesScheduled s && !(s.well w).pendingCurves
    { s with duty := { s.duty with newCurves := s.duty.newCurves.set w new } }

/-! ## Drive status (R59 to R62) -/

/-- The charge of a pump under local control follows the report (R60). -/
def chargeLocal (s : State) (p : Pump) (d : DriveReport) : State :=
  if d.floatRunning then chargeExternal s p else releaseCharge s p

/-- A LOCAL report (R60), for a pump in any state but FLOAT and NOT_FITTED. -/
def takeLocal (s : State) (p : Pump) (d : DriveReport) : State :=
  let s := match (s.pump p).state with
    | .startWait => withdraw s p
    | .starting => returnCharge s p
    | _ => s
  chargeLocal (enter s p (.unavailable .localHand)) p d

/-- A report other than LOCAL takes a pump out of local control, or out of silence (R60, R61). -/
def leaveLocal (s : State) (p : Pump) (d : DriveReport) : State :=
  if d.state = .tripped then
    let s := s.setPump p { s.pump p with
      lastTrip := d.cause, lockout := (s.pump p).lockout || d.cause == .moisture }
    enterOff (releaseCharge s p) p
  else if turning d then stopPump s p true
  else enterOff (releaseCharge s p) p

/-- A moisture trip of a pump that is not FLOAT, UNAVAILABLE or LOCKED_OUT (R62). No STOP is built at once: neither R62 nor R82's
list names one, and the pump's next refresh brings it. The model's choice (log entry 65). -/
def lockMoist (s : State) (p : Pump) : State :=
  let s := match (s.pump p).state with
    | .startWait => withdraw s p
    | .running => releaseCharge (notifySurge s p) p
    | _ => releaseCharge s p
  lockOut s p

/-- A TRIPPED report, for a pump that is not leaving local control or silence (R62). -/
def takeTripped (s : State) (p : Pump) (d : DriveReport) : State :=
  let s := s.setPump p { s.pump p with lastTrip := d.cause }
  if d.cause = .moisture then
    match (s.pump p).state with
    | .unavailable .notFitted => s
    | .float | .lockedOut | .unavailable .localHand | .unavailable .noStatus =>
      s.setPump p { s.pump p with lockout := true }
    | _ => lockMoist s p
  else
    match (s.pump p).state with
    | .starting => failStart s p
    | .running => tripRunning s p d.cause
    | .stopping => confirmStop s p
    | .startWait => enterOff (withdraw s p) p
    | _ => s

/-- The report is taken by the pump's state (R59). -/
def takeReport (s : State) (p : Pump) (d : DriveReport) : State :=
  match (s.pump p).state with
  | .float =>
    let s := if d.state = .tripped then takeTripped s p d else s
    s.raise (.driveStatusReport p true)
  | .unavailable .notFitted => s
  | .unavailable .localHand | .unavailable .noStatus =>
    if d.state = .localHand then takeLocal s p d else leaveLocal s p d
  | st =>
    match d.state, st with
    | .localHand, _ => takeLocal s p d
    | .tripped, _ => takeTripped s p d
    | .running, .starting => confirmStart s p
    | .stopped, .stopping => confirmStop s p
    | _, _ => s

/-- A report is recorded, and the status deadline restarts at 15 s (R59). -/
def recordReport (s : State) (p : Pump) (d : DriveReport) : State :=
  s.setPump p { s.pump p with drive := .known d s.now, lastReport := some d, statusAt := some (s.now + 15000) }

/-- DRIVE_STAT (R59). -/
def execDriveStat (src : Addr) (payload : List Byte) (s : State) : Host.Outcome State Fault Refusal :=
  whenDc s fun s => match pumpAtDrive s src, driveReportOf payload with
    | some p, some d => takeReport (recordReport s p d) p d
    | _, _ => s

/-- Silence: a pump enters UNAVAILABLE(NO_STATUS) (R61). -/
def fallSilent (s : State) (p : Pump) (wasRunning : Bool) : State :=
  let st := (s.pump p).state
  let s := match st with
    | .startWait => withdraw s p
    | .starting => returnCharge s p
    | _ => if (s.pump p).charge = .running then chargeExternal s p else s
  let s := enter s p (.unavailable .noStatus)
  let s := s.setPump p { s.pump p with silentRunning := wasRunning }
  if startingOrRunning st || st == .stopping then buildCommand s p true else s

/-- STATUS_DEADLINE_EXPIRY (R61). -/
def execStatusDeadlineExpiry (p : Pump) (s : State) : Host.Outcome State Fault Refusal :=
  whenDueDc s (s.pump p).statusAt fun s =>
    let wasRunning := countsRunning (s.pump p)
    let s := s.setPump p { s.pump p with drive := .unknown, statusAt := none }
    match (s.pump p).state with
    | .float => s.raise (.driveStatusReport p false)
    | .unavailable .notFitted => s
    | _ => fallSilent s p wasRunning

/-! ## Timers of the start, the stop and the waits -/

/-- START_DEADLINE_EXPIRY (R73). -/
def execStartDeadlineExpiry (p : Pump) (s : State) : Host.Outcome State Fault Refusal :=
  whenDueDc s (s.pump p).startAt fun s => if (s.pump p).state = .starting then failStart s p else s

/-- The state a drive last reported (R81), also of a drive whose status is UNKNOWN since: a pump can enter STOPPING by an exit
notice taken after its status deadline has passed (R61, R146). None where the drive has reported nothing since the pump's node
address changed, the model's choice (log entry 79). -/
def reportedState (r : PumpRecord) : Option DriveState := r.lastReport.map (·.state)

/-- STOP_DEADLINE_EXPIRY (R81): one record in a stop sequence. -/
def execStopDeadlineExpiry (p : Pump) (s : State) : Host.Outcome State Fault Refusal :=
  whenDueDc s (s.pump p).stopAt fun s =>
    if (s.pump p).state = .stopping ∧ (s.pump p).stopFailed = false then
      (s.setPump p { s.pump p with stopFailed := true }).submit (.stopFailed p (reportedState (s.pump p)))
    else s

/-- BACKOFF_END (R75). -/
def execBackoffEnd (p : Pump) (s : State) : Host.Outcome State Fault Refusal :=
  whenDueDc s (s.pump p).waitEnd fun s => if (s.pump p).state = .backoff then enterOff s p else s

/-- REST_END (R80). -/
def execRestEnd (p : Pump) (s : State) : Host.Outcome State Fault Refusal :=
  whenDueDc s (s.pump p).waitEnd fun s => if (s.pump p).state = .resting then enterOff s p else s

/-- SKIP_END (R77): the attempt count is cleared. -/
def execSkipEnd (p : Pump) (s : State) : Host.Outcome State Fault Refusal :=
  whenDueDc s (s.pump p).waitEnd fun s =>
    if (s.pump p).state = .unavailable .skipped then enterOff (s.setPump p { s.pump p with attempts := 0 }) p else s

/-- When the min run of a RUNNING pump expires (R57). -/
def minRunAt (s : State) (p : Pump) : Option Ms :=
  (s.pump p).runStart.map fun t => t + (s.setup.minRun.get p).toNat * 1000

/-- MIN_RUN_EXPIRY (R57): a deferred stop is looked at again in an evaluation. -/
def execMinRunExpiry (p : Pump) (s : State) : Host.Outcome State Fault Refusal :=
  whenDueDc s (minRunAt s p) fun s =>
    match (s.pump p).stopDeferred, s.wellOf p with
    | true, some w => evaluateLive s w
    | _, _ => s

/-- When the oldest entry of a Start History reaches 3,600 s (R70). -/
def agingAt (r : PumpRecord) : Option Ms := r.history.head?.map (· + 3600000)

/-- START_HISTORY_AGING (R70, R52): an entry leaving a full history brings an evaluation. -/
def execStartHistoryAging (p : Pump) (s : State) : Host.Outcome State Fault Refusal :=
  whenDueDc s (agingAt (s.pump p)) fun s =>
    let wasFull := historyFull s p
    let s := s.setPump p { s.pump p with history := agedHistory (s.pump p).history s.now }
    match wasFull, s.wellOf p with
    | true, some w => evaluateLive s w
    | _, _ => s

/-- REFRESH_EXPIRY (R83): the timer restarts whether or not the frame is placed. -/
def execRefreshExpiry (p : Pump) (s : State) : Host.Outcome State Fault Refusal :=
  whenDueDc s (s.pump p).refreshAt fun s =>
    buildCommand (s.setPump p { s.pump p with refreshAt := some (s.now + refreshMs s) }) p false

/-- COMMAND_RETRY (R82). -/
def execCommandRetry (p : Pump) (s : State) : Host.Outcome State Fault Refusal :=
  whenDueDc s (s.pump p).retryAt fun s => buildCommand s p true

/-- DEAD_HEAD_EXPIRY (R86). -/
def execDeadHeadExpiry (p : Pump) (s : State) : Host.Outcome State Fault Refusal :=
  whenDueDc s (s.pump p).deadHeadAt fun s =>
    s.setPump p { s.pump p with deadHeadAt := none, forcing := true, staged := 100 }

/-- RUN_SECONDS_TICK (R43). -/
def execRunSecondsTick (p : Pump) (s : State) : Host.Outcome State Fault Refusal :=
  whenDue s (s.pump p).runTickAt fun s =>
    s.setPump p { s.pump p with
      runSeconds := satInc 4294967295 (s.pump p).runSeconds
      runTickAt := (s.pump p).runTickAt.map (· + 1000) }

/-! ## Grants and sheds -/

/-- A grant taken (R71). -/
def takeGrant (s : State) (p : Pump) : State :=
  let s := enter s p .starting
  let s := s.setPump p { s.pump p with
    charge := .start
    history := appendStart (s.pump p).history s.now
    startAt := some (s.now + (s.setup.startConfirm.get p).toNat * 1000) }
  buildCommand s p true

/-- PUMP_GRANT (R71). -/
def execPumpGrant (p : Pump) (s : State) : Host.Outcome State Fault Refusal :=
  whenDc s fun s =>
    if (s.pump p).state ≠ .startWait then s.raise (.grantReturn (.pump p))
    else if historyFull s p then enterOff (s.raise (.grantReturn (.pump p))) p
    else takeGrant s p

/-- PUMP_SHED (R99). -/
def execPumpShed (p : Pump) (s : State) : Host.Outcome State Fault Refusal :=
  whenDc s fun s =>
    let r := s.pump p
    if r.owner = .auto ∧ startingOrRunning r.state then stopPump s p true
    else if r.state = .stopping then s
    else s.raise (.shedDecline (.pump p))

/-! ## Float fallback (R144, R146, R147) -/

/-- Steps 1 to 3 of R144 for one fitted pump. -/
def toFloat (s : State) (p : Pump) : State :=
  let s := removeRuns s (driveOf s p)
  let s := enter s p .float
  let s := s.setPump p { s.pump p with charge := .none }
  buildCommand s p true

/-- FALLBACK_ENTRY_DC (R144): the level demand is 0 and the rotation-due flag clear (R49, R50). The pumps are taken in ascending
number, the model's choice (log entry 59). -/
def execFallbackEntryDc (w : Well) (s : State) : Host.Outcome State Fault Refusal :=
  whenDc s fun s =>
    let s := State.each toFloat (s.setup.pumpsOf w) s
    { s with duty := { s.duty with
        levelDemand := s.duty.levelDemand.set w 0
        demand := s.duty.demand.set w 0
        rotationDue := s.duty.rotationDue.set w false } }

/-- The speed feedback of a DRIVE_STAT not older than 15 s, for a VARIABLE pump; otherwise the staged speed (R146). -/
def adoptedSpeed (s : State) (p : Pump) : Nat :=
  let r := s.pump p
  if s.setup.isVariable p then
    match r.drive with
    | .known d t => if s.now ≤ t + 15000 then max d.speed 30 else r.staged
    | .unknown => r.staged
  else 100

/-- The Start History at an adoption: a full one gives up its oldest entry (R70). -/
def adoptHistory (s : State) (p : Pump) : List Ms :=
  let h := (s.pump p).history
  if historyFull s p then appendStart (h.drop 1) s.now else appendStart h s.now

/-- A pump named adopted (R146): its RUN is built whatever the interlock, which R147 evaluates next (log entry 15). -/
def adopt (w : Well) (s : State) (p : Pump) : State :=
  let s := enter s p .running
  let s := s.setPump p { s.pump p with
    owner := .auto, manualSource := none, manual := none
    runStart := some s.now, charge := .running, history := adoptHistory s p }
  let s := match (s.well w).level with
    | some level => restage w level s p
    | none => s
  let s := s.setPump p { s.pump p with applied := adoptedSpeed s p }
  offerCommand s p (heldCommand s p) true

/-- One pump taken by the name it carries in the exit notice (R146). A pump named silent is sent no STOP: neither its bullet nor
R82's list names one, and its next refresh brings it. The model's choice (log entry 67). -/
def takeExitName (w : Well) (names : PerPump (Option ExitName)) (s : State) (p : Pump) : State :=
  match names.get p with
  | some .adopted => adopt w s p
  | some (.localHand t) =>
    let s := enter s p (.unavailable .localHand)
    s.setPump p { s.pump p with charge := if t then .external else .none }
  | some (.silent t) =>
    let s := enter s p (.unavailable .noStatus)
    s.setPump p { s.pump p with charge := if t then .external else .none, silentRunning := t }
  | some .stopped => buildCommand (enterOff s p) p true
  | none => s

/-- The pump is named adopted. -/
def namedAdopted (names : PerPump (Option ExitName)) (p : Pump) : Bool := names.get p == some .adopted

/-- Step 1 of R147 for one pump. -/
def stopUnfit (names : PerPump (Option ExitName)) (s : State) (p : Pump) : State :=
  if namedAdopted names p && (s.pump p).state == .running && ((s.pump p).lockout || (s.pump p).disabled) then
    stopPump s p true
  else s

/-- Step 3 of R147 for one pump, taken from the last in rotation order. -/
def stopExcess (names : PerPump (Option ExitName)) (w : Well) (s : State) (p : Pump) : State :=
  if namedAdopted names p && (s.pump p).state == .running && decide (maxRunning s w < commandedRunning s w) then
    stopPump s p true
  else s

/-- A pump that the exit notice names and a Station Setup switch has moved away since: DC, which R47 had take it out of FLOAT
with no charge held, gives back the charge that SB records by that name. The model's choice (log entry 63). -/
def returnMoved (w : Well) (names : PerPump (Option ExitName)) (s : State) (p : Pump) : State :=
  s.raiseIf (s.wellOf p != some w && (s.pump p).charge == .none && exitKind (names.get p) != .none)
    (.chargeRelease (.pump p))

/-- A drive that SSU named silent reported after the exit and before DC took the notice: the report reaches a pump in
UNAVAILABLE(NO_STATUS), which leaves it (R145, R61). Under any other name a report or a passed status deadline of that interval
is recorded alone, the model's choice (log entry 66). -/
def takeLateReport (names : PerPump (Option ExitName)) (s : State) (p : Pump) : State :=
  match names.get p, (s.pump p).drive with
  | some (.silent _), .known d _ => takeReport s p d
  | _, _ => s

/-- FALLBACK_EXIT_DC (R146, R147), with the reports that came behind the exit (R145). The names, the first two steps and those
reports take the pumps in ascending number, the model's choice (log entry 59), and a pump no longer of the well is not taken by
its name, the model's choice too (log entry 63). -/
def execFallbackExitDc (w : Well) (names : PerPump (Option ExitName)) (s : State) :
    Host.Outcome State Fault Refusal :=
  whenDc s fun s =>
    let s := State.each (returnMoved w names) Pump.all s
    let s := State.each (takeExitName w names) (s.setup.pumpsOf w) s
    let s := State.each (stopUnfit names) (s.setup.pumpsOf w) s
    let s := State.each (evalInterlock (deliveryOf (s.well w))) (s.setup.pumpsOf w) s
    let s := State.each (stopExcess names w) (s.duty.rotation.get w).reverse s
    State.each (takeLateReport names) (s.setup.pumpsOf w) (evaluateWithin s w)

/-! ## Pump gates (R58, R49): the state, and whether the action applied -/

/-- PUMP_DISABLE. -/
def pumpDisable (s : State) (p : Pump) : State × Bool :=
  let r := s.pump p
  if r.disabled || r.state == .unavailable .notFitted then (s, false)
  else
    let s := s.setPump p { r with disabled := true }
    match r.state with
    | .startWait => (enterOff (withdraw s p) p, true)
    | .starting | .running => (stopPump s p true, true)
    | .off | .resting | .backoff | .unavailable .skipped => (enter s p (.unavailable .disabled), true)
    | _ => (s, true)

/-- PUMP_ENABLE. -/
def pumpEnable (s : State) (p : Pump) : State × Bool :=
  let r := s.pump p
  if r.disabled then
    let s := s.setPump p { r with disabled := false }
    (if r.state = .unavailable .disabled then enterOff s p else s, true)
  else (s, false)

/-- PUMP_CLEAR. -/
def pumpClear (s : State) (p : Pump) : State × Bool :=
  let r := s.pump p
  if r.lockout then
    let s := s.setPump p { r with lockout := false, attempts := 0 }
    (if r.state = .lockedOut then enterOff s p else s, true)
  else (s, false)

/-- PUMP_RELEASE: a STOP that DC itself sends (R66). -/
def pumpRelease (s : State) (p : Pump) : State × Bool :=
  if (s.pump p).owner = .manual then (stopPump s p true, true) else (s, false)

/-- ROTATE (R49); in FALLBACK too, the model's choice (log entry 48). -/
def rotateGate (s : State) (w : Well) : State × Bool :=
  let list := s.duty.rotation.get w
  if 2 ≤ list.length then
    let s := { s with duty := { s.duty with
      rotation := s.duty.rotation.set w (rotate list), rotationDue := s.duty.rotationDue.set w false } }
    (evaluateLive s w, true)
  else (s, false)

/-! ## Policing (R63 to R67) -/

/-- The entry of a source in the active SOURCES table (R175). -/
def sourceEntry (s : State) (a : Addr) : Option SourceEntry :=
  (s.tables.sources.active.filterMap id).find? fun e => e.address == a

/-- The effective authority: the larger of the claim and the ceiling (R175). -/
def effective (e : SourceEntry) (claimed : Nat) : Nat := max claimed e.ceiling

/-- The reasons of R64 but the last, in order. A pump still in FLOAT is refused with FALLBACK too, also where SSU has taken its
well out of FALLBACK and DC has not taken the exit notice yet: R65's table has no row for FLOAT. The model's choice (log entry
64). -/
def runRefusal (s : State) (p : Pump) : Option RefusalReason :=
  let r := s.pump p
  let fresh := !(startingOrRunning r.state)
  let unavailable := match r.state with
    | .unavailable _ => true
    | _ => false
  let full := match s.wellOf p with
    | some w => decide (maxRunning s w ≤ commandedRunning s w)
    | none => false
  if inFallback s p || r.state == .float then some .fallback
  else if r.state == .lockedOut || unavailable || r.disabled then some .locked
  else if r.interlock then some .dry
  else if fresh && historyFull s p then some .starts
  else if fresh && full then some .limit
  else none

/-- The checks of R63 on a source and authority. -/
def sourceRefusal (s : State) (src : Addr) (claimed : Nat) : Option RefusalReason :=
  match sourceEntry s src with
  | some e =>
    if e.manualDrive then
      if s.setup.manualLevel < (effective e claimed : Int) then some .authority else none
    else some .noPermission
  | none => some .noPermission

/-- The manual command is recorded: owner, source, action, speed clamped to 30..100, and the applied speed (R65, R85). -/
def recordManual (s : State) (p : Pump) (src : Addr) (act : DriveAction) (speed : Nat) : State :=
  let v := max 30 (min 100 speed)
  s.setPump p { s.pump p with
    owner := .manual
    manualSource := some src
    manual := some (act, v)
    applied := if s.setup.isVariable p then v else (s.pump p).applied }

/-- A pump starts under a manual RUN, its charge made (R65). -/
def startManual (s : State) (p : Pump) : State :=
  let s := enter s p .starting
  s.setPump p { s.pump p with
    charge := .start
    history := appendStart (s.pump p).history s.now
    startAt := some (s.now + (s.setup.startConfirm.get p).toNat * 1000) }

/-- A RUN or REVERSE that passed policing (R65). No pump in FLOAT comes here: the model's choice (log entry 64). -/
def passRun (s : State) (p : Pump) (src : Addr) (act : DriveAction) (speed : Nat) : State :=
  let s := if startingOrRunning (s.pump p).state then
      s.setPump p { s.pump p with stopDeferred := false }
    else startManual s p
  let s := recordManual s p src act speed
  match s.wellOf p with
  | some w => evaluateWithin s w
  | none => s

/-- A STOP or FLOAT that passed policing (R66). -/
def passStop (s : State) (p : Pump) : State :=
  match (s.pump p).state with
  | .starting | .running => stopPump s p false
  | .startWait => enterOff (withdraw s p) p
  | _ => s

/-- A refused command (R67): a REFUSAL, dropped when the queue is full, and the record. -/
def refuse (s : State) (p : Pump) (src : Addr) (seq : BitVec 6) (act : DriveAction) (why : RefusalReason) : State :=
  let s := (offerControl s src (some seq) (.refusal (driveOf s p) act why)).getD s
  s.submit (.manual src p act why)

/-- DC's decision on another node's DRIVE_CMD to a pump (R63 to R67): the state, and whether the frame passes. -/
def police (s : State) (p : Pump) (src : Addr) (claimed : Nat) (seq : BitVec 6) (act : DriveAction) (speed : Nat) :
    State × Bool :=
  match sourceRefusal s src claimed with
  | some why => (refuse s p src seq act why, false)
  | none =>
    match act with
    | .stop | .float => (dcStep s fun s => passStop s p, true)
    | .run | .reverse =>
      match runRefusal s p with
      | some why => (refuse s p src seq act why, false)
      | none =>
        if startingOrRunning (s.pump p).state then (dcStep s fun s => passRun s p src act speed, true)
        else
          match immediateCharge s p with
          | some s' => (settle s (passRun s' p src act speed), true)
          | none => (refuse s p src seq act .budget, false)

end Sys2Proof.Machine
end

