-- ==== Sys2Proof/Machine/LogBlock.lean ====
section
/-! DEFINITION. ELR: the Event Log and town reporting (chapter 9). -/

namespace Sys2Proof.Machine

/-- A change of what ELR holds. -/
def State.setElr (s : State) (l : EventLog) : State := { s with elr := l }

/-- Where REPORT and STATUS frames go (R148). -/
def telemetryNode (s : State) : Addr := s.setup.telemetryNode.toNat

/-! ## The window (R155) -/

/-- The records outstanding: those before next to send, or all. -/
def windowOf (l : EventLog) : List LogRecord :=
  match l.nextToSend with
  | some n => l.records.takeWhile fun r => r.sequence != n
  | none => l.records

/-- The records from next to send onward. -/
def unsentOf (l : EventLog) : List LogRecord :=
  match l.nextToSend with
  | some n => l.records.dropWhile fun r => r.sequence != n
  | none => []

/-- A sequence number is newer than another: 1 to 32,767 above it. -/
def newerSequence (a b : BitVec 16) : Bool := decide (1 ≤ (a - b).toNat ∧ (a - b).toNat < 32768)

/-- Last sent after a placement (R155). -/
def lastSentAfter (last : Option (BitVec 16)) (n : BitVec 16) : Option (BitVec 16) :=
  match last with
  | some x => if newerSequence n x then some n else some x
  | none => some n

/-- ELR's fields after a REPORT of `r` is placed, `rest` being the unsent records behind it (R155). -/
def reportPlaced (l : EventLog) (now : Ms) (r : LogRecord) (rest : List LogRecord) : EventLog :=
  { l with
    nextToSend := rest.head?.map (·.sequence)
    lastSent := lastSentAfter l.lastSent r.sequence
    sendRetryAt := none
    reportAt := if (windowOf l).isEmpty then some (now + l.timeout * 1000) else l.reportAt }

/-- Trying to send (R155, R156): repeated until the window holds four, nothing is unsent, or a frame is not placed. Each
placement lengthens the window by one, so five rounds are the most. -/
def trySendFuel : Nat → State → State
  | 0, s => s
  | n + 1, s =>
    match unsentOf s.elr with
    | [] => s.setElr { s.elr with sendRetryAt := none }
    | r :: rest =>
      if 4 ≤ (windowOf s.elr).length then s.setElr { s.elr with sendRetryAt := none }
      else
        match offerGeneral s (telemetryNode s) none (.report r) with
        | some s' => trySendFuel n (s'.setElr (reportPlaced s'.elr s'.now r rest))
        | none => s.setElr { s.elr with sendRetryAt := nextOffer s.elr.sendRetryAt s.now }

def trySend (s : State) : State := trySendFuel 5 s

/-! ## Storing (R150 to R154) -/

/-- The log has room for a record of a class (R152, R153). -/
def fits (l : EventLog) (body : RecordBody) : Bool :=
  match body.cls with
  | .overflow => decide (l.pagesUsed + body.pages ≤ 512)
  | .alarm | .notice | .lost => decide (l.pagesUsed + body.pages ≤ 480)

/-- The record as ELR stamps it (R150). -/
def stamp (s : State) (body : RecordBody) : LogRecord := ⟨s.elr.sequence, s.mu.clock, s.mu.timeUnset, body⟩

/-- Storing a record (R151, R155). -/
def storeRecord (l : EventLog) (r : LogRecord) : EventLog :=
  { l with
    records := l.records ++ [r]
    pagesUsed := l.pagesUsed + r.body.pages
    sequence := l.sequence + 1
    nextToSend := some (l.nextToSend.getD r.sequence) }

/-- A record not stored is counted by its class (R152, R153). -/
def countLost (l : EventLog) (c : RecordClass) : EventLog :=
  match c with
  | .overflow => { l with lostOverflow := satInc 65535 l.lostOverflow }
  | .alarm => { l with lostAlarm := satInc 65535 l.lostAlarm }
  | .notice => { l with lostNotice := satInc 65535 l.lostNotice }
  | .lost => { l with lostLost := satInc 65535 l.lostLost }

/-- Any lost count is above 0. -/
def anyLost (l : EventLog) : Bool :=
  decide (0 < l.lostOverflow ∨ 0 < l.lostAlarm ∨ 0 < l.lostNotice ∨ 0 < l.lostLost)

def clearLost (l : EventLog) : EventLog :=
  { l with lostOverflow := 0, lostAlarm := 0, lostNotice := 0, lostLost := 0 }

def lostBody (l : EventLog) : RecordBody := .lost l.lostOverflow l.lostAlarm l.lostNotice l.lostLost

/-- A record is judged, and stored or counted (R152, R153). -/
def judgeRecord (s : State) (body : RecordBody) : State :=
  if fits s.elr body then trySend (s.setElr (storeRecord s.elr (stamp s body)))
  else s.setElr (countLost s.elr body.cls)

/-- The LOST record tried before a submission (R154). -/
def tryLost (s : State) : State :=
  if anyLost s.elr then
    let body := lostBody s.elr
    if fits s.elr body then trySend (s.setElr (clearLost (storeRecord s.elr (stamp s body))))
    else s.setElr (countLost s.elr .lost)
  else s

/-- RECORD_SUBMISSION (R150, R154). -/
def execRecordSubmission (body : RecordBody) (s : State) : Host.Outcome State Fault Refusal :=
  whenLive s fun s => judgeRecord (tryLost s) body

/-- REPORT_RETRY (R156). -/
def execReportRetry (s : State) : Host.Outcome State Fault Refusal := whenDue s s.elr.sendRetryAt trySend

/-! ## Acknowledgements (R157, R158) -/

/-- The sequence number from which an acknowledgement is measured (R157). -/
def reference (l : EventLog) : BitVec 16 :=
  match l.records with
  | r :: _ => r.sequence
  | [] => l.sequence

/-- The held records up to and including last sent (R157). -/
def reach (l : EventLog) : Nat :=
  match l.lastSent with
  | some n => (l.records.takeWhile fun r => r.sequence != n).length + 1
  | none => 0

/-- The pages of a list of records. -/
def pagesOf (rs : List LogRecord) : Nat := (rs.map fun r => r.body.pages).foldl (· + ·) 0

/-- A sequence number is that of a record of the list. -/
def named (rs : List LogRecord) (n : Option (BitVec 16)) : Bool := rs.any fun r => n == some r.sequence

/-- Steps 1 to 4 of R158: the `k` oldest records leave. -/
def removeOldest (l : EventLog) (k : Nat) : EventLog :=
  let gone := l.records.take k
  let kept := l.records.drop k
  { l with
    records := kept
    pagesUsed := l.pagesUsed - pagesOf gone
    oldestPosition := (l.oldestPosition + pagesOf gone) % 512
    nextToSend := if named gone l.nextToSend then kept.head?.map (·.sequence) else l.nextToSend
    lastSent := if named gone l.lastSent then none else l.lastSent
    timeout := 30
    expiries := 0
    linkDown := false }

/-- A good acknowledgement (R158). -/
def goodAck (s : State) (k : Nat) : State :=
  let l := removeOldest s.elr k
  trySend (s.setElr { l with reportAt := if (windowOf l).isEmpty then none else some (s.now + 30000) })

/-- An acknowledgement placed against the log (R157). -/
def placeAck (s : State) (n : BitVec 16) : State :=
  let d := (n - reference s.elr).toNat
  if d < reach s.elr then goodAck s (d + 1)
  else if d < 32768 then s.setElr { s.elr with badAcks := satInc 65535 s.elr.badAcks }
  else s

/-- The source may acknowledge reports (R157, R175). -/
def mayAck (s : State) (src : Addr) : Bool :=
  match sourceEntry s src with
  | some e => e.ackReports
  | none => false

/-- REPORT_ACK (R157). -/
def execReportAck (src : Addr) (payload : List Byte) (s : State) : Host.Outcome State Fault Refusal :=
  whenLive s fun s => match mayAck s src, ackSequence payload with
    | true, some n => placeAck s n
    | _, _ => s

/-- The go-back and what goes with it (R159, steps 1 to 3; R160). -/
def goBack (l : EventLog) : EventLog :=
  let n := satInc 255 l.expiries
  { l with
    nextToSend := l.records.head?.map (·.sequence)
    timeout := min 240 (2 * l.timeout)
    expiries := n
    linkDown := l.linkDown || decide (8 ≤ n)
    reportAt := none }

/-- REPORT_TIMER_EXPIRY (R159). -/
def execReportTimerExpiry (s : State) : Host.Outcome State Fault Refusal :=
  whenDue s s.elr.reportAt fun s => trySend (s.setElr (goBack s.elr))

/-! ## STATUS rounds (R161 to R163) -/

def wellStatus (s : State) (w : Well) : WellStatus :=
  let r := s.well w
  ⟨s.ssu.well.get w, r.level, r.quality, r.smoothedInflow, r.inflowGood⟩

def screenStatus (s : State) (k : Screen) : ScreenStatus :=
  let r := s.screen k
  ⟨r.state, r.blinded, r.differential⟩

def pointStatus (s : State) (o : Point) : PointStatus :=
  let r := s.point o
  ⟨r.spill, r.slot.map (·.volume), r.cumulative, r.unconfirmed⟩

/-- The contents of a part, built now (R161). -/
def statusPart (s : State) (part : Nat) : StatusPart :=
  match part with
  | 1 => .station s.mu.clock s.mu.timeUnset s.ssu.state s.ssu.tideLock s.budget.supply s.elr.linkDown
      ⟨wellStatus s .a, wellStatus s .b⟩
  | 2 => .plant (PerPump.make fun p => ((s.pump p).state, (s.pump p).owner))
      ⟨screenStatus s .s1, screenStatus s .s2, screenStatus s .s3⟩
  | 3 => .overflow ⟨pointStatus s .one, pointStatus s .two⟩
  | _ => .log s.elr.pagesUsed (reference s.elr) s.elr.lostOverflow s.elr.lostAlarm s.elr.lostNotice s.elr.lostLost

/-- Offering the parts of a round from one on, `fuel` being how many are left (R162). -/
def offerParts : Nat → Nat → State → State
  | 0, _, s => s.setElr { s.elr with progress := none, partRetryAt := none }
  | fuel + 1, part, s =>
    match offerGeneral s (telemetryNode s) none (.status s.elr.round (statusPart s part)) with
    | some s' => offerParts fuel (part + 1) s'
    | none => s.setElr { s.elr with progress := some part, partRetryAt := some (s.now + 1000) }

/-- A round starts; an earlier one is abandoned (R162). -/
def startRound (s : State) : State := offerParts 4 1 (s.setElr { s.elr with round := s.elr.round + 1 })

/-- STATUS_TIMER_EXPIRY (R163). -/
def execStatusTimerExpiry (s : State) : Host.Outcome State Fault Refusal :=
  whenDue s s.elr.statusAt fun s =>
    startRound (s.setElr { s.elr with statusAt := some (s.now + statusPeriod s.ssu.state) })

/-- STATUS_PART_RETRY (R162). -/
def execStatusPartRetry (s : State) : Host.Outcome State Fault Refusal :=
  whenDue s s.elr.partRetryAt fun s => match s.elr.progress with
    | some part => offerParts (5 - part) part s
    | none => s.setElr { s.elr with partRetryAt := none }

/-- STATION_STATE_TO_ELR (R163). -/
def execStationStateToElr (st : StationState) (s : State) : Host.Outcome State Fault Refusal :=
  whenLive s fun s => startRound (s.setElr { s.elr with statusAt := some (s.now + statusPeriod st) })

end Sys2Proof.Machine
end

