-- ==== Sys2Proof/Machine/Power.lean ====
section
/-! DEFINITION. Power-on, the loss of power, and the reset of every block that both power-on and RESTART make (R164, R165,
R182, R186). -/

namespace Sys2Proof.Machine

/-! ## Reset of every block -/

/-- The interval timer of a quantity's entry at reset (R16). -/
def bootReference (s : State) (q : Quantity) : Option Ms := (entryFor s q).bind fun e => referenceStart s e

/-- The cadence states at reset: the station state recorded for each node of the map (R18), and a repeat timer that runs from
the reset (log entry 46). -/
def bootNodes (s : State) : List CadenceState :=
  (nodeList (mapEntries s)).map fun n => ⟨n, s.ssu.state, none, some (s.now + 600000)⟩

/-- Every block at its reset values, on the tables of the store, at time 0. `raised` is empty: what was on its way is
lost. The queue of commands, the store and the free values stay, and LP is the caller's. -/
def resetBlocks (s : State) (l : Loop) : State :=
  let tables := loadTables s.store
  let t := tables.setup.active
  let st := resetStationState t
  let s := { s with
    now := 0, lp := l, raised := [], tables := tables
    mu := Management.reset 0
    ssu := Station.reset t
    elr := EventLog.reset 0 st
    budget := Budget.reset t
    duty := Duty.reset t
    pumps := PerPump.make (PumpRecord.reset t 0)
    screens := PerScreen.of (ScreenRecord.reset t 0 st)
    hourAt := some 3600000
    points := PerPoint.of PointRecord.reset
    wells := ⟨WellRecord.reset (some (t.balanceInterval.a.toNat * 1000)),
      WellRecord.reset (some (t.balanceInterval.b.toNat * 1000))⟩
    blanking := PerWell.of none }
  { s with channels := PerQuantity.make fun q => ChannelRecord.reset (bootReference s q), nodes := bootNodes s }

/-- The tables whose two copies both fail are reported (R182), several of them in the order of R177: the model's choice (log entry
75). -/
def reportFaults (s : State) : State :=
  s.raiseAll ((allTables.filter (storeFaulty s.store)).map fun t => .recordSubmission (.tableStoreFault t))

/-- DC's FLOAT commands at reset (R143). -/
def offerFloats (s : State) : State :=
  State.each (fun s p => if s.setup.fitted p then buildCommand s p true else s) Pump.all s

/-- What the blocks originate at a reset, in order: the faults, CU's CADENCE frames, DC's FLOAT commands (log entry 9). -/
def bootFrames (s : State) : State := offerFloats (offerCadenceAll (reportFaults s))

/-! ## Forward-only mode (R164) -/

/-- All timers of the blocks stopped. -/
def stopTimers (s : State) : State :=
  { s with
    lp := { s.lp with silenceAt := none }
    channels := PerQuantity.make fun q => { s.channels.get q with referenceAt := none }
    nodes := s.nodes.map fun c => { c with repeatAt := none }
    wells := ⟨{ s.wells.a with balanceAt := none }, { s.wells.b with balanceAt := none }⟩
    pumps := PerPump.make fun p => { s.pumps.get p with statusAt := none, refreshAt := none }
    screens := ⟨{ s.screens.s1 with intervalAt := none, refreshAt := none },
      { s.screens.s2 with intervalAt := none, refreshAt := none },
      { s.screens.s3 with intervalAt := none, refreshAt := none }⟩
    hourAt := none
    elr := { s.elr with statusAt := none }
    mu := { s.mu with clockAt := none } }

/-! ## Power -/

/-- What a power loss leaves of the store: the copy being written is a free value (R182, log entry 3). -/
def tearStore (s : State) : State :=
  match s.mu.commit with
  | .storing t _ _ =>
    let (n, s) := s.draw
    let pair := tornPair (storePair s.store t) (activeContents s.tables t) (Config.tornWrite n)
    { s with store := setPair s.store t pair }
  | _ => s

/-- The part without power: only the store remains; the other fields rest at reset values with their timers stopped. -/
def losePower (s : State) : State :=
  let s := tearStore s
  { stopTimers (resetBlocks s (Loop.reset 0 0)) with powered := false, mode := .full }

/-- A strap value that gives the part an address (R164). -/
def strapAddresses (strap : BitVec 6) : Bool := decide (1 ≤ strap.toNat ∧ strap.toNat ≤ 62)

/-- The part as it starts with a strap value (R164). -/
def bootPart (s : State) (strap : BitVec 6) : State :=
  if strapAddresses strap then
    bootFrames { resetBlocks s (Loop.reset strap.toNat 0) with powered := true, mode := .full }
  else { stopTimers (resetBlocks s (Loop.reset strap.toNat 0)) with powered := true, mode := .forwardOnly }

/-- POWER_ON (R164): power that comes while the part is powered is a loss of power first. -/
def execPowerOn (strap : BitVec 6) (s : State) : Host.Outcome State Fault Refusal :=
  .next (bootPart (if s.powered then losePower s else s) strap)

/-- POWER_LOSS (R182): nothing but the store is kept. -/
def execPowerLoss (s : State) : Host.Outcome State Fault Refusal := .next (if s.powered then losePower s else s)

/-! ## RESTART (R165, R186) -/

/-- The forward queue through a restart: RUN and REVERSE frames for the drives of pumps fitted in the loaded setup leave
(R165). -/
def keptForward (t : Setup) (fs : List RawFrame) : List RawFrame :=
  fs.filter fun f => !(Pump.all.any fun p => t.fitted p && rawIsRunFor (t.drive.get p).toNat f)

/-- The reset of a restart: own address, mode and forward queue are kept (R165), and so is the frame that LOOP OUT carries, which
goes on leaving: the model's choice (log entry 72). -/
def restartBlocks (s : State) : State :=
  let t := (loadTables s.store).setup.active
  resetBlocks s { Loop.reset s.lp.ownAddress 0 with
    forward := keptForward t s.lp.forward, sending := s.lp.sending }

/-- A frame waits and none leaves: a choice is due (R173). -/
def choiceDue (l : Loop) : Bool := l.sending.isNone && !(l.forward.isEmpty)

/-- The part restarted, with what its blocks originate. -/
def restartPart (s : State) : State :=
  let s := restartBlocks s
  bootFrames (s.raiseIf (choiceDue s.lp) (.loopOutFree false))

end Sys2Proof.Machine
end

