-- ==== Sys2Proof/Machine/ScreenBlock.lean ====
section
/-! DEFINITION. SC: screens and rake cycles (chapter 6). -/

namespace Sys2Proof.Machine

/-! ## Rake commands (R103) -/

/-- The action of a state (section 6.4). -/
def rakeAction : RakeState → DriveAction
  | .cycling => .run
  | .jamReverse => .reverse
  | .parked | .queued | .shed | .jamPause | .jammed | .outOfService => .stop

/-- The action held: none under the local hold (R103). -/
def rakeHeld (r : ScreenRecord) : Option DriveAction := if r.localHold then none else some (rakeAction r.state)

/-- Building and offering a rake's DRIVE_CMD; a state-change command that is not placed is pending, a refresh is skipped. -/
def buildRake (s : State) (k : Screen) (stateChange : Bool) : State :=
  match rakeHeld (s.screen k) with
  | some act =>
    match offerControl s (rakeDriveOf s k) none (.driveCmd act 100 (s.screen k).count) with
    | some s' => s'.setScreen k { s'.screen k with
        count := (s'.screen k).count + 1, refreshAt := some (s'.now + refreshMs s'), retryAt := none }
    | none =>
      if stateChange then s.setScreen k { s.screen k with retryAt := nextOffer (s.screen k).retryAt s.now } else s
  | none => s.setScreen k { s.screen k with retryAt := none }

/-! ## States and charges -/

/-- A rake enters a state; only CYCLING has a phase. -/
def rakeEnter (s : State) (k : Screen) (st : RakeState) : State :=
  let r := s.screen k
  s.setScreen k { r with state := st, phase := if st = .cycling then r.phase else none }

/-- The charge held is released to SB (R90). -/
def rakeRelease (s : State) (k : Screen) : State :=
  if (s.screen k).charge = .none then s
  else (s.setScreen k { s.screen k with charge := .none }).raise (.chargeRelease (.rake k))

/-- The request is withdrawn, and its class becomes absent (R106). -/
def rakeWithdraw (s : State) (k : Screen) : State :=
  (s.setScreen k { s.screen k with requestClass := none }).raise (.requestWithdrawal (.rake k))

/-- The class R104 chooses from the differential as it stands. -/
def classNow (s : State) (k : Screen) : RequestClass :=
  if s.setup.criticalDiff.get k ≤ ((s.screen k).differential : Int) then .criticalRake else .rake

/-- A request at the class R104 chooses, recorded. -/
def rakeRequest (s : State) (k : Screen) : State :=
  let cls := classNow s k
  (s.setScreen k { s.screen k with requestClass := some cls }).raise (.startRequest (.rake k) cls)

/-- Every cycle and jam deadline and the capture start are cleared. -/
def clearCycle (s : State) (k : Screen) : State :=
  s.setScreen k { s.screen k with leaveAt := none, cycleAt := none, jamAt := none, captureStart := none }

/-- States in which the rake holds a grant. -/
def granted (st : RakeState) : Bool := st == .cycling || st == .jamReverse || st == .jamPause

/-- States in which a request waits. -/
def requesting (st : RakeState) : Bool := st == .queued || st == .shed

/-! ## Blinding (R119) -/

/-- The conditions of R119. -/
def blindedNow (s : State) (k : Screen) : Bool :=
  let r := s.screen k
  (r.state == .jammed || r.state == .outOfService) && decide (s.setup.blindingDiff.get k ≤ (r.differential : Int))

/-- The blinded flag is evaluated; a change is delivered to SSU. -/
def reblind (s : State) (k : Screen) : State :=
  let b := blindedNow s k
  if (s.screen k).blinded = b then s
  else (s.setScreen k { s.screen k with blinded := b }).raise (.blindedChange k b)

/-- A step of SC on a screen, with the blinded flag evaluated after it. -/
def scStep (s : State) (k : Screen) (f : State → State) : State := reblind (f s) k

/-- A command of SC on one screen. -/
def whenSc (s : State) (k : Screen) (f : State → State) : Host.Outcome State Fault Refusal :=
  whenLive s fun s => scStep s k f

/-- A timer's command of SC on one screen. -/
def whenDueSc (s : State) (k : Screen) (t : Option Ms) (f : State → State) : Host.Outcome State Fault Refusal :=
  whenDue s t fun s => scStep s k f

/-! ## Triggers and requests (R102, R104, R106) -/

/-- The home quantity is LOST or unmapped, so that the rake's position is unknown (R104). -/
def homeUnknown (s : State) (k : Screen) : Bool :=
  (s.chan (homeOf k)).quality == .lost || (entryFor s (homeOf k)).isNone

/-- A trigger of a rake in PARKED (R104). -/
def rakeTrigger (s : State) (k : Screen) : State :=
  if (s.screen k).localHold || homeUnknown s k then s
  else
    let s := s.setScreen k { s.screen k with consecutive := 0 }
    rakeEnter (rakeRequest s k) k .queued

/-- The class of a standing request is tested (R106). -/
def retestClass (s : State) (k : Screen) : State :=
  if (s.screen k).requestClass = some (classNow s k) then s else rakeRequest s k

/-- The differential evaluation (R102), steps 1 and 2; step 3 follows every step of SC. -/
def evaluateScreen (s : State) (k : Screen) : State :=
  let r := s.screen k
  match r.state with
  | .parked =>
    if r.differentialGood && decide (s.setup.rakeStartDiff.get k ≤ (r.differential : Int)) then rakeTrigger s k else s
  | .queued | .shed => retestClass s k
  | _ => s

/-- The differential is recomputed from an upstream level and a well level, each with its quality (R102). -/
def recomputeDifferential (s : State) (k : Screen) (up : ChannelUpdate) (level : Option Int) (quality : LevelQuality) :
    State :=
  let r := s.screen k
  match up.value, level with
  | some u, some l =>
    if up.quality = .good ∧ quality = .good then
      s.setScreen k { r with differential := (u - l).toNat, differentialGood := true }
    else s.setScreen k { r with differentialGood := false }
  | _, _ => s.setScreen k { r with differentialGood := false }

/-- UPSTREAM_LEVEL_UPDATE (R102): the upstream level is the update's (R5). -/
def execUpstreamLevelUpdate (k : Screen) (s : State) (u : ChannelUpdate := .absent) : Host.Outcome State Fault Refusal :=
  whenSc s k fun s =>
    let w := s.well (screenWell k)
    evaluateScreen (recomputeDifferential s k u w.level w.quality) k

/-- One screen at a Well Record delivery. -/
def screenDelivery (d : WellDelivery) (s : State) (k : Screen) : State :=
  scStep s k fun s => evaluateScreen (recomputeDifferential s k (channelView s (upstreamOf k)) d.level d.quality) k

/-- WELL_RECORD_DELIVERY_SC (R102): the screens of the well, in ascending number, the model's choice (log entry 59). -/
def execWellRecordDeliverySc (w : Well) (d : WellDelivery) (s : State) : Host.Outcome State Fault Refusal :=
  whenLive s fun s => State.each (screenDelivery d) (screensOf w) s

/-- HOME_QUALITY_NOTICE (R104, R113): the rake of a home quantity that recovers, becoming GOOD, is evaluated (log entry 55). -/
def execHomeQualityNotice (k : Screen) (s : State) (u : ChannelUpdate := .absent) : Host.Outcome State Fault Refusal :=
  whenSc s k fun s => if u.quality = .good then evaluateScreen s k else s

/-! ## The cycle (R107 to R113) -/

/-- The phase and deadlines of a cycle start, by the stored home state (R107, step 3). -/
def cycleRecord (s : State) (k : Screen) : ScreenRecord :=
  let r := s.screen k
  let atHome := (s.chan (homeOf k)).value == some 1
  { r with
    state := .cycling
    phase := some (if atHome then .leaving else .returning)
    cycleStart := some s.now
    captureStart := none
    leaveAt := if atHome then some (s.now + (s.setup.leaveTime.get k).toNat * 1000) else none
    cycleAt := if atHome then none else some (s.now + (s.setup.maxCycle.get k).toNat * 1000)
    jamAt := none }

/-- A cycle start (R107): a continuation builds no RUN. -/
def cycleStart (s : State) (k : Screen) (continuation : Bool) : State :=
  let s := s.setScreen k (cycleRecord s k)
  if continuation then s else buildRake s k true

/-- RAKE_GRANT (R107). -/
def execRakeGrant (k : Screen) (s : State) : Host.Outcome State Fault Refusal :=
  whenSc s k fun s =>
    if requesting (s.screen k).state then
      cycleStart (s.setScreen k { s.screen k with charge := .start, requestClass := none }) k false
    else s.raise (.grantReturn (.rake k))

/-- The start is confirmed (R108). -/
def confirmRake (s : State) (k : Screen) : State :=
  let r := s.screen k
  if granted r.state && r.charge == .start then
    (s.setScreen k { r with charge := .running }).raise (.chargeTransfer (.rake k))
  else s

/-- HOME_OFF_EDGE (R108, R109, R113). In CYCLING with phase RETURNING, where the edge can come with stored state ON, it only
confirms the start and begins no capture: the model's choice (log entry 71). -/
def execHomeOffEdge (k : Screen) (at_ : Ms) (s : State) : Host.Outcome State Fault Refusal :=
  whenSc s k fun s =>
    let s := confirmRake s k
    let r := s.screen k
    match r.state with
    | .cycling =>
      if r.phase = some .leaving then
        s.setScreen k { r with
          captureStart := some at_, leaveAt := none, phase := some .returning
          cycleAt := some (at_ + (s.setup.maxCycle.get k).toNat * 1000) }
      else s
    | .parked | .queued => if r.localHold then s else s.submit (.uncommandedMotion k)
    | _ => s

/-- The statistics of a captured cycle (R111). -/
def recordCycle (r : ScreenRecord) (t : Nat) : ScreenRecord :=
  let collecting := decide (r.baselineCount < 8)
  let sum := if collecting then r.baselineSum + t else r.baselineSum
  let count := if collecting then r.baselineCount + 1 else r.baselineCount
  { r with
    lastCycle := some t
    minCycle := some (match r.minCycle with | some m => min m t | none => t)
    maxCycle := some (match r.maxCycle with | some m => max m t | none => t)
    baselineSum := sum
    baselineCount := count
    baseline := if collecting && count == 8 then some (sum / 8) else r.baseline }

/-- A captured cycle is judged against the baseline that was present before it (R112); whether WEAR is submitted. -/
def judgeCycle (before : Option Nat) (r : ScreenRecord) (t : Nat) : ScreenRecord × Bool :=
  match before with
  | some b =>
    if 5 * b < 4 * t then
      let n := satInc 3 r.slowRun
      let wear := n == 3 && !r.wearReported
      ({ r with slowRun := n, wearReported := r.wearReported || wear }, wear)
    else ({ r with slowRun := 0, wearReported := false }, false)
  | none => (r, false)

/-- Step 4 of R110. -/
def captureCycle (s : State) (k : Screen) (at_ : Ms) : State :=
  let r := s.screen k
  match r.captureStart with
  | some c =>
    let t := at_ - c
    let x := judgeCycle r.baseline (recordCycle r t) t
    let s := s.setScreen k x.1
    s.raiseIf x.2 (.recordSubmission (.wear k (r.baseline.getD 0) t))
  | none => s

/-- The interval timer restarts with the interval of the station state (R105). -/
def restartInterval (s : State) (k : Screen) : State :=
  s.setScreen k { s.screen k with intervalAt := some (s.now + intervalMs s.setup s.ssu.state) }

/-- The rake runs on after a completed cycle (R110, step 5). -/
def runsOn (s : State) (k : Screen) : Bool :=
  let r := s.screen k
  r.differentialGood && decide (s.setup.stopDiff.get k ≤ (r.differential : Int)) && decide (r.consecutive < 8)

/-- The rake parks after a completed cycle. -/
def parkRake (s : State) (k : Screen) : State :=
  let s := rakeRelease (buildRake (rakeEnter s k .parked) k true) k
  s.setScreen k { s.screen k with consecutive := 0, jams := 0 }

/-- A completed cycle (R110). -/
def completeCycle (s : State) (k : Screen) (at_ : Ms) : State :=
  let r := s.screen k
  let s := s.setScreen k { r with
    cycleAt := none, consecutive := satInc 8 r.consecutive, cyclesThisHour := satInc 65535 r.cyclesThisHour }
  let s := captureCycle (restartInterval s k) k at_
  if runsOn s k then cycleStart s k true else parkRake s k

/-! ## Jams (R114, R115) -/

/-- The reverse ends, and the pause begins. -/
def endReverse (s : State) (k : Screen) : State :=
  let s := rakeEnter s k .jamPause
  let s := s.setScreen k { s.screen k with jamAt := some (s.now + (s.setup.pauseTime.get k).toNat * 1000) }
  buildRake s k true

/-- The rake is given up: STOP, the charge released, the record, JAMMED. -/
def giveUp (s : State) (k : Screen) (cause : JamCause) : State :=
  let s := rakeRelease (buildRake (rakeEnter s k .jammed) k true) k
  s.submit (.screenJam k (s.screen k).jams cause)

/-- A jam is declared (R114). -/
def declareJam (s : State) (k : Screen) (cause : JamCause) : State :=
  let s := clearCycle s k
  let s := s.setScreen k { s.screen k with lastJam := cause, jams := satInc 8 (s.screen k).jams }
  if (s.screen k).jams < (s.setup.jamLimit.get k).toNat then
    let s := rakeEnter s k .jamReverse
    let s := s.setScreen k { s.screen k with jamAt := some (s.now + (s.setup.reverseTime.get k).toNat * 1000) }
    buildRake s k true
  else giveUp s k cause

/-- HOME_ON_EDGE (R110, R113, R115). An edge that finds the rake in CYCLING with phase LEAVING has no row in R113 and changes
nothing: the model's choice (log entry 53). -/
def execHomeOnEdge (k : Screen) (at_ : Ms) (s : State) : Host.Outcome State Fault Refusal :=
  whenSc s k fun s =>
    let r := s.screen k
    match r.state with
    | .cycling => if r.phase = some .returning then completeCycle s k at_ else s
    | .jamReverse => endReverse s k
    | _ => s

/-- LEAVE_DEADLINE_EXPIRY (R114). -/
def execLeaveDeadlineExpiry (k : Screen) (s : State) : Host.Outcome State Fault Refusal :=
  whenDueSc s k (s.screen k).leaveAt fun s =>
    if (s.screen k).state = .cycling ∧ (s.screen k).phase = some .leaving then declareJam s k .noLeave else s

/-- CYCLE_DEADLINE_EXPIRY (R114). -/
def execCycleDeadlineExpiry (k : Screen) (s : State) : Host.Outcome State Fault Refusal :=
  whenDueSc s k (s.screen k).cycleAt fun s =>
    if (s.screen k).state = .cycling ∧ (s.screen k).phase = some .returning then declareJam s k .cycleTime else s

/-- REVERSE_END (R115). -/
def execReverseEnd (k : Screen) (s : State) : Host.Outcome State Fault Refusal :=
  whenDueSc s k (s.screen k).jamAt fun s => if (s.screen k).state = .jamReverse then endReverse s k else s

/-- PAUSE_END (R115): the next cycle start. -/
def execPauseEnd (k : Screen) (s : State) : Host.Outcome State Fault Refusal :=
  whenDueSc s k (s.screen k).jamAt fun s => if (s.screen k).state = .jamPause then cycleStart s k false else s

/-! ## Reports from the rake drive (R116) -/

/-- A drive fault. -/
def rakeFault (s : State) (k : Screen) (cause : TripCause) : State :=
  let s := clearCycle s k
  giveUp (s.setScreen k { s.screen k with lastJam := .fault cause }) k (.fault cause)

/-- The local hold is set. -/
def holdLocal (s : State) (k : Screen) : State :=
  let st := (s.screen k).state
  let s := s.setScreen k { s.screen k with localHold := true, refreshAt := none, retryAt := none }
  if requesting st then rakeEnter (rakeWithdraw s k) k .parked
  else if granted st then
    let s := clearCycle (rakeRelease s k) k
    rakeEnter (s.setScreen k { s.screen k with consecutive := 0 }) k .parked
  else s

/-- The local hold is cleared: the refresh timer restarts. -/
def liftLocal (s : State) (k : Screen) : State :=
  if (s.screen k).localHold then
    s.setScreen k { s.screen k with localHold := false, refreshAt := some (s.now + refreshMs s) }
  else s

/-- A TRIPPED report. -/
def rakeTripped (s : State) (k : Screen) (cause : TripCause) : State :=
  if cause = .overload then
    match (s.screen k).state with
    | .cycling => declareJam s k .overload
    | .jamReverse => endReverse s k
    | _ => s
  else if granted (s.screen k).state then rakeFault s k cause
  else s

/-- A report taken by the rake's state. -/
def takeRakeReport (s : State) (k : Screen) (d : DriveReport) : State :=
  match d.state with
  | .localHand => holdLocal s k
  | .running => confirmRake (liftLocal s k) k
  | .tripped => rakeTripped (liftLocal s k) k d.cause
  | .stopped | .starting | .float => liftLocal s k

/-- RAKE_DRIVE_STAT (R116). -/
def execRakeDriveStat (src : Addr) (payload : List Byte) (s : State) : Host.Outcome State Fault Refusal :=
  whenLive s fun s => match screenAtDrive s src, driveReportOf payload with
    | some k, some d =>
      scStep s k fun s => takeRakeReport (s.setScreen k { s.screen k with drive := .known d s.now }) k d
    | _, _ => s

/-! ## Shedding (R117) -/

/-- RAKE_SHED (R117). -/
def execRakeShed (k : Screen) (s : State) : Host.Outcome State Fault Refusal :=
  whenSc s k fun s =>
    if (s.screen k).charge = .none then s.raise (.shedDecline (.rake k))
    else rakeRequest (clearCycle (rakeRelease (buildRake (rakeEnter s k .shed) k true) k) k) k

/-! ## Timers -/

/-- INTERVAL_TIMER_EXPIRY (R105): a trigger in PARKED. -/
def execIntervalTimerExpiry (k : Screen) (s : State) : Host.Outcome State Fault Refusal :=
  whenDueSc s k (s.screen k).intervalAt fun s =>
    let s := restartInterval s k
    if (s.screen k).state = .parked then rakeTrigger s k else s

/-- HOUR_TIMER_EXPIRY (R101). -/
def execHourTimerExpiry (s : State) : Host.Outcome State Fault Refusal :=
  whenDue s s.hourAt fun s =>
    let s := { s with hourAt := s.hourAt.map (· + 3600000) }
    State.each (fun s k => s.setScreen k { s.screen k with cyclesThisHour := 0 }) Screen.all s

/-- RAKE_REFRESH_EXPIRY (R103). -/
def execRakeRefreshExpiry (k : Screen) (s : State) : Host.Outcome State Fault Refusal :=
  whenDueSc s k (s.screen k).refreshAt fun s =>
    buildRake (s.setScreen k { s.screen k with refreshAt := some (s.now + refreshMs s) }) k false

/-- RAKE_COMMAND_RETRY (R103). -/
def execRakeCommandRetry (k : Screen) (s : State) : Host.Outcome State Fault Refusal :=
  whenDueSc s k (s.screen k).retryAt fun s => buildRake s k true

/-- An interval timer whose remaining time exceeds the STORM interval is shortened to it (R105). -/
def shortenInterval (s : State) (k : Screen) : State :=
  let limit := s.now + intervalMs s.setup .storm
  s.setScreen k { s.screen k with intervalAt := (s.screen k).intervalAt.map (min · limit) }

/-- STATION_STATE_TO_SC (R105): a change to DRY leaves the timers as they run. -/
def execStationStateToSc (st : StationState) (s : State) : Host.Outcome State Fault Refusal :=
  whenLive s fun s => match st with
    | .storm => State.each shortenInterval Screen.all s
    | .dry => s

/-! ## Screen gates (R118): the state, and whether the action applied -/

/-- RAKE_RUN. -/
def rakeRun (s : State) (k : Screen) : State × Bool :=
  if (s.screen k).state ≠ .parked ∨ (s.screen k).localHold = true ∨ homeUnknown s k = true then (s, false)
  else (scStep s k fun s => rakeTrigger s k, true)

/-- What RAKE_DISABLE does to a rake that is not OUT_OF_SERVICE: a STOP only where the action held changes. -/
def disableRake (s : State) (k : Screen) : State :=
  let st := (s.screen k).state
  let s := s.setScreen k { s.screen k with outOfService := true }
  let s := if requesting st then rakeWithdraw s k else s
  let s := rakeEnter s k .outOfService
  let s := if rakeAction st = .stop then s else buildRake s k true
  if granted st then clearCycle (rakeRelease s k) k else s

/-- RAKE_DISABLE. -/
def rakeDisable (s : State) (k : Screen) : State × Bool :=
  if (s.screen k).state = .outOfService then (s, false) else (scStep s k fun s => disableRake s k, true)

/-- RAKE_ENABLE. -/
def rakeEnable (s : State) (k : Screen) : State × Bool :=
  if (s.screen k).state = .outOfService then
    (scStep s k fun s =>
      let s := restartInterval (rakeEnter s k .parked) k
      s.setScreen k { s.screen k with outOfService := false, jams := 0, consecutive := 0 }, true)
  else (s, false)

/-- SCREEN_CLEAR. -/
def screenClear (s : State) (k : Screen) : State × Bool :=
  if (s.screen k).state = .parked ∨ (s.screen k).state = .jammed then
    (scStep s k fun s =>
      let s := restartInterval (rakeEnter s k .parked) k
      s.setScreen k { s.screen k with
        jams := 0, baseline := none, baselineSum := 0, baselineCount := 0, slowRun := 0, wearReported := false }, true)
  else (s, false)

/-! ## The Station Setup switch (R100, R102, R103) -/

/-- A screen takes the switch from an old setup: its drive status, its refresh timer, its evaluation. -/
def switchScreen (old : Setup) (s : State) (k : Screen) : State :=
  let r := s.screen k
  let r := if old.rakeDrive.get k = s.setup.rakeDrive.get k then r else { r with drive := .unknown }
  let r := if old.refreshPeriod = s.setup.refreshPeriod ∨ r.localHold = true then r
    else { r with refreshAt := some (s.now + refreshMs s) }
  scStep (s.setScreen k r) k fun s => evaluateScreen s k

/-- The screens take a Station Setup switch in ascending number, the model's choice (log entry 59). -/
def switchScreens (old : Setup) (s : State) : State := State.each (switchScreen old) Screen.all s

end Sys2Proof.Machine
end

