-- ==== Sys2Proof/Machine/StationBlock.lean ====
section
/-! DEFINITION. SSU: storm state, tide lock and float fallback (chapter 8). -/

namespace Sys2Proof.Machine

/-! ## Storm (R139 to R141) -/

/-- A well's level stands at or above its storm level (R139). -/
def stormLevelHolds (t : Setup) (w : Well) (d : WellDelivery) : Bool :=
  match d.quality, d.level with
  | .lost, _ => false
  | _, some level => decide (t.stormLevel.get w ≤ level)
  | _, none => false

def stormInflowHolds (t : Setup) (w : Well) (d : WellDelivery) : Bool :=
  decide (t.stormInflow.get w ≤ (d.smoothedInflow : Int))

def spilling (st : SpillState) : Bool := st != .dry

/-- The conditions of R139, on what SSU sees of the two wells. -/
def stormConditions (s : State) (a b : WellDelivery) : StormConditions where
  levelA := stormLevelHolds s.setup .a a
  levelB := stormLevelHolds s.setup .b b
  inflowA := stormInflowHolds s.setup .a a
  inflowB := stormInflowHolds s.setup .b b
  spill1 := spilling s.ssu.spillSeen.one
  spill2 := spilling s.ssu.spillSeen.two
  tide := s.ssu.tideLock
  forced := s.ssu.forced

/-- Some condition holds. -/
def stormHolds (c : StormConditions) : Bool :=
  c.levelA || c.levelB || c.inflowA || c.inflowB || c.spill1 || c.spill2 || c.tide || c.forced

/-- A change of station state (R141). -/
def changeStation (s : State) (st : StationState) (why : StormReason) : State :=
  ({ s with ssu := { s.ssu with state := st, holdAt := none } }.submit (.stormChange st why)).raiseAll
    [.stationStateToCu st, .stationStateToDc st, .stationStateToSc st, .stationStateToElr st]

/-- An evaluation of the storm conditions (R139). -/
def evaluateStorm (s : State) (a b : WellDelivery) : State :=
  let c := stormConditions s a b
  match s.ssu.state, stormHolds c with
  | .dry, true => changeStation s .storm (.entered c)
  | .dry, false => s
  | .storm, true => { s with ssu := { s.ssu with holdAt := none } }
  | .storm, false =>
    match s.ssu.holdAt with
    | some _ => s
    | none => { s with ssu := { s.ssu with holdAt := some (s.now + s.setup.stormHold.toNat * 60000) } }

/-- An evaluation on the Well Records as they stand. -/
def evaluateStormLive (s : State) : State := evaluateStorm s (deliveryOf s.wells.a) (deliveryOf s.wells.b)

/-- HOLD_TIMER_EXPIRY (R140). -/
def execHoldTimerExpiry (s : State) : Host.Outcome State Fault Refusal :=
  whenDue s s.ssu.holdAt fun s => if s.ssu.state = .storm then changeStation s .dry .hold else s

/-- FORCE_STORM (R140): the state, and whether the action applied. -/
def forceStorm (s : State) : State × Bool :=
  if s.ssu.forced then (s, false)
  else (evaluateStormLive { s with ssu := { s.ssu with forced := true } }, true)

/-- ALLOW_DRY (R140): in STORM the flag is cleared and the timer stopped even when the result is CONFLICT. -/
def allowDry (s : State) : State × Bool :=
  match s.ssu.state with
  | .dry => (s, false)
  | .storm =>
    let s := { s with ssu := { s.ssu with forced := false, holdAt := none } }
    if stormHolds (stormConditions s (deliveryOf s.wells.a) (deliveryOf s.wells.b)) then (s, false)
    else (changeStation s .dry .allowDry, true)

/-! ## Tide lock (R138) -/

/-- The tide lock after a judgement of a river value. -/
def tideLockAfter (t : Setup) (before : Bool) (river : Int) : Bool :=
  if before then decide (t.tideLock - 100 ≤ river) else decide (t.tideLock ≤ river)

/-- SSU judges the tide lock on a value of RIV, absent where it may not be used (R138). -/
def judgeTide (s : State) (v : Option Int) : State :=
  { s with ssu := { s.ssu with
      tideLock := tideLockAfter s.setup s.ssu.tideLock (riverFrom s.setup v)
      riverSource := match v with
        | some _ => .riv
        | none => .fallback } }

/-- RIV_UPDATE_SSU (R138): the update's value is judged (R5), and a change of the lock brings an evaluation. -/
def execRivUpdateSsu (s : State) (u : ChannelUpdate := .absent) : Host.Outcome State Fault Refusal :=
  whenLive s fun s =>
    let s' := judgeTide s (usableUpdate u)
    if s'.ssu.tideLock = s.ssu.tideLock then s' else evaluateStormLive s'

/-- SPILL_STATE_DELIVERY (R139). -/
def execSpillStateDelivery (o : Point) (st : SpillState) (s : State) : Host.Outcome State Fault Refusal :=
  whenLive s fun s => evaluateStormLive { s with ssu := { s.ssu with spillSeen := s.ssu.spillSeen.set o st } }

/-! ## Restricted wells (R142) -/

/-- A screen of the well is blinded. -/
def anyBlinded (s : State) (w : Well) : Bool := (screensOf w).any fun k => s.ssu.blinded.get k

/-- The state of a well that is not in FALLBACK. -/
def openWellState (s : State) (w : Well) : WellState := if anyBlinded s w then .restricted else .normal

def setWellState (s : State) (w : Well) (st : WellState) : State :=
  { s with ssu := { s.ssu with well := s.ssu.well.set w st } }

/-- The well state is decided afresh; a change is delivered to DC and OA. -/
def decideWell (s : State) (w : Well) : State :=
  let st := openWellState s w
  if s.ssu.well.get w = .fallback ∨ s.ssu.well.get w = st then s
  else (setWellState s w st).raiseAll [.wellStateToDc w st, .wellStateToOa w st]

/-- BLINDED_CHANGE (R142). -/
def execBlindedChange (k : Screen) (flag : Bool) (s : State) : Host.Outcome State Fault Refusal :=
  whenLive s fun s =>
    decideWell { s with ssu := { s.ssu with blinded := s.ssu.blinded.set k flag } } (screenWell k)

/-! ## Float fallback (R143 to R147) -/

/-- The recovery timer and the status wait of a well. -/
def setRecovery (s : State) (w : Well) (recovery wait : Option Ms) : State :=
  { s with ssu := { s.ssu with
      recoveryAt := s.ssu.recoveryAt.set w recovery, statusWait := s.ssu.statusWait.set w wait } }

/-- Entry into FALLBACK (R143). -/
def enterFallback (s : State) (w : Well) (q : LevelQuality) : State :=
  let s := setRecovery (setWellState s w .fallback) w none none
  (s.raiseAll [.fallbackEntryDc w, .fallbackEntrySb w, .wellStateToOa w .fallback]).submit (.fallbackEnter w q)

/-- The level conditions (R145). -/
def levelConditions (s : State) (w : Well) (d : WellDelivery) : Bool :=
  d.quality == .good && d.level.isSome && !(s.tables.levelVolume.get w).isEmpty && (wmuCurves s w).isSome

/-- SSU judges the level conditions of a well in FALLBACK (R145). -/
def judgeRecovery (s : State) (w : Well) (d : WellDelivery) : State :=
  if s.ssu.well.get w = .fallback then
    if levelConditions s w d then
      match s.ssu.recoveryAt.get w, s.ssu.statusWait.get w with
      | none, none => setRecovery s w (some (s.now + s.setup.recoveryTime.toNat * 1000)) none
      | _, _ => s
    else setRecovery s w none none
  else s

/-- How the exit notice names a pump (R146). -/
def exitName (r : PumpRecord) : ExitName :=
  match r.drive with
  | .unknown => .silent (match r.lastReport with | some d => turning d | none => false)
  | .known d _ =>
    match d.state with
    | .running | .starting => .adopted
    | .float => if d.floatRunning then .adopted else .stopped
    | .localHand => .localHand d.floatRunning
    | .stopped | .tripped => .stopped

/-- The names of the fitted pumps of a well (R146). -/
def exitNames (s : State) (w : Well) : PerPump (Option ExitName) :=
  PerPump.make fun p => if s.wellOf p = some w then some (exitName (s.pump p)) else none

def countNames (names : PerPump (Option ExitName)) (f : ExitName → Bool) : Nat :=
  (Pump.all.filter fun p => match names.get p with
    | some n => f n
    | none => false).length

/-- The record of an exit (R147). -/
def leaveRecord (w : Well) (names : PerPump (Option ExitName)) : RecordBody :=
  .fallbackLeave w
    (countNames names fun n => n == .adopted)
    (countNames names fun n => n == .localHand true || n == .localHand false)
    (countNames names fun n => n == .silent true || n == .silent false)
    (countNames names fun n => n == .stopped)

/-- Exit from FALLBACK (R146, R147). -/
def exitFallback (s : State) (w : Well) : State :=
  let names := exitNames s w
  let st := openWellState s w
  let s' := setRecovery (setWellState s w st) w none none
  (s'.raiseAll [.fallbackExitDc w names, .fallbackExitSb w names, .wellStateToOa w st]).submit (leaveRecord w names)

/-- DC knows the drive status of every fitted pump of the well. -/
def allKnown (s : State) (w : Well) : Bool := (s.setup.pumpsOf w).all fun p => (s.pump p).drive != .unknown

/-- RECOVERY_TIMER_EXPIRY (R145): the status wait ends 30 s after the expiry. -/
def execRecoveryTimerExpiry (w : Well) (s : State) : Host.Outcome State Fault Refusal :=
  whenDue s (s.ssu.recoveryAt.get w) fun s =>
    if s.ssu.well.get w = .fallback then
      if allKnown s w then exitFallback s w
      else setRecovery s w none ((s.ssu.recoveryAt.get w).map (· + 30000))
    else s

/-- STATUS_WAIT_END (R145). -/
def execStatusWaitEnd (w : Well) (s : State) : Host.Outcome State Fault Refusal :=
  whenDue s (s.ssu.statusWait.get w) fun s => if s.ssu.well.get w = .fallback then exitFallback s w else s

/-- DRIVE_STATUS_REPORT (R145): a report that makes every status known ends the status wait. -/
def execDriveStatusReport (p : Pump) (known : Bool) (s : State) : Host.Outcome State Fault Refusal :=
  whenLive s fun s => match s.wellOf p with
    | some w =>
      if known && s.ssu.well.get w == .fallback && (s.ssu.statusWait.get w).isSome && allKnown s w then exitFallback s w
      else s
    | none => s

/-- What SSU sees of a well when another, or it, is delivered. -/
def seenWell (s : State) (delivered : Well) (d : WellDelivery) (w : Well) : WellDelivery :=
  if w = delivered then d else deliveryOf (s.well w)

/-- WELL_RECORD_DELIVERY_SSU (R139, R143, R145). -/
def execWellRecordDeliverySsu (w : Well) (d : WellDelivery) (s : State) : Host.Outcome State Fault Refusal :=
  whenLive s fun s =>
    let s := evaluateStorm s (seenWell s w d .a) (seenWell s w d .b)
    if s.ssu.well.get w ≠ .fallback ∧ (d.quality = .lost ∨ d.level = none) then enterFallback s w d.quality
    else judgeRecovery s w d

/-- A Station Setup switch as SSU takes it (R136, R138, R139, R145). -/
def switchStation (s : State) : State :=
  let s := evaluateStormLive (judgeTide s (usable (s.chan .riv)))
  State.each (fun s w => judgeRecovery s w (deliveryOf (s.well w))) Well.all s

end Sys2Proof.Machine
end

