-- ==== Sys2Proof/Machine/Wells.lean ====
section
/-! DEFINITION. WMU: well levels, volumes and the inflow balance (chapter 2). -/

namespace Sys2Proof.Machine

/-! ## Selecting the level (R21 to R25) -/

/-- A float's state from its update (R21). -/
def floatOf (u : ChannelUpdate) : FloatState :=
  match usableUpdate u with
  | some v => if v = 1 then .on else .off
  | none => .unknown

/-- Step 1 of R21: an update for a float sets the record's float. -/
def takeFloat (w : Well) (q : Quantity) (u : ChannelUpdate) (r : WellRecord) : WellRecord :=
  if q = highFloatOf w then { r with highFloat := floatOf u }
  else if q = lowFloatOf w then { r with lowFloat := floatOf u }
  else r

/-- What a selection gives: the level, its quality, and whether the second row of R22 was taken. -/
structure Selection where
  level : Option Int
  quality : LevelQuality
  apart : Bool
  deriving DecidableEq, Repr

/-- The value of a GOOD channel, and of a HELD one with the time it was stored. -/
def goodValue (r : ChannelUpdate) : Option Int := if r.quality = .good then r.value else none
def heldValue (r : ChannelUpdate) : Option (Int × Ms) :=
  if r.quality = .held then r.value.map fun v => (v, r.storedAt.getD 0) else none

/-- The rows of R22, in order; `before` is the level as it stood. -/
def selectLevel (c1 c2 : ChannelUpdate) (limit : Int) (before : Option Int) : Selection :=
  match goodValue c1, goodValue c2 with
  | some a, some b =>
    if max (a - b) (b - a) ≤ limit then ⟨some ((a + b) / 2), .good, false⟩ else ⟨some (max a b), .good, true⟩
  | some a, none => ⟨some a, .good, false⟩
  | none, some b => ⟨some b, .good, false⟩
  | none, none =>
    match heldValue c1, heldValue c2 with
    | some (a, ta), some (b, tb) =>
      ⟨some (if tb < ta then a else if ta < tb then b else max a b), .held, false⟩
    | some (a, _), none => ⟨some a, .held, false⟩
    | none, some (b, _) => ⟨some b, .held, false⟩
    | none, none => ⟨before, .lost, false⟩

/-- The disagreement episode after a selection (R23). -/
def nextEpisode (e : Episode) (apart : Bool) (now : Ms) : Episode :=
  if apart then
    match e with
    | .none => .timing now
    | e => e
  else .none

/-- A record with a new selection: level, quality, episode, and the volume of a present level (R21 to R23, R28). -/
def applySelection (s : State) (w : Well) (r : WellRecord) (x : Selection) : WellRecord :=
  let r := { r with level := x.level, quality := x.quality, episode := nextEpisode r.episode x.apart s.now }
  match x.level with
  | some level =>
    let v := wellVolume s w level
    { r with volume := v.1, aboveTable := v.2 }
  | none => r

/-- The floats contradict a GOOD level (R24). -/
def contradicted (t : Setup) (w : Well) (r : WellRecord) : Bool :=
  match r.level with
  | some level =>
    r.quality == .good
      && ((r.highFloat == .on && decide (level < t.highFloat.get w - 150))
        || (r.lowFloat == .on && decide (t.lowFloat.get w + 150 < level)))
  | none => false

/-! ## The pumped volume (R32, R33) -/

/-- The flow set at the present head and speeds (R33, step 3). -/
def newFlowSet (s : State) (w : Well) : PerPump Nat :=
  PerPump.make fun p =>
    if s.wellOf p = some w ∧ countsRunning (s.pump p) then
      pumpFlow (wmuCurves s w) (headOf s w) p (speedUsed s p)
    else 0

/-- The sum of a flow set. -/
def flowSum (f : PerPump Nat) : Nat := f.p1 + f.p2 + f.p3 + f.p4 + f.p5 + f.p6

/-- Steps 1 and 2 of R33 on a record, at a time. -/
def addPumped (r : WellRecord) (now : Ms) : WellRecord :=
  match r.integratedAt with
  | some t =>
    let m := r.remainder + flowSum r.flowSet * (now - t)
    { r with pumpedLitres := r.pumpedLitres + m / 1000, remainder := m % 1000 }
  | none => r

/-- An integration event of a well, provided it has a level (R33). -/
def integrate (s : State) (w : Well) : State :=
  if (s.well w).level.isSome then
    let r := addPumped (s.well w) s.now
    s.setWell w { r with flowSet := newFlowSet s w, integratedAt := some s.now }
  else s

/-- A contradiction is reported for each transducer that is GOOD at the check (R24). -/
def contradictionEvent (w : Well) (first second : ChannelUpdate) : Instr :=
  .floatContradiction w (first.quality == .good) (second.quality == .good)

/-- A selection event (R21) on the well's two transducer channels as the delivery found them. -/
def selectionEvent (s : State) (w : Well) (q : Quantity) (u first second : ChannelUpdate) : State :=
  let r := takeFloat w q u (s.well w)
  let x := selectLevel first second (s.setup.disagreement.get w) r.level
  let s := s.setWell w (applySelection s w r x)
  let s := s.raiseIf (contradicted s.setup w (s.well w)) (contradictionEvent w first second)
  deliverWell (integrate s w) w

/-- LEVEL_SELECTION (R21). -/
def execLevelSelection (q : Quantity) (s : State) (u first second : ChannelUpdate := .absent) :
    Host.Outcome State Fault Refusal :=
  whenLive s fun s => match quantityWell q with
    | some w => selectionEvent s w q u first second
    | none => s

/-- When a TIMING episode reaches 60 s (R23). -/
def disagreeAt (r : WellRecord) : Option Ms :=
  match r.episode with
  | .timing since => some (since + 60000)
  | _ => none

/-- DISAGREE_TIMEOUT (R23). -/
def execDisagreeTimeout (w : Well) (s : State) : Host.Outcome State Fault Refusal :=
  whenDue s (disagreeAt (s.well w)) fun s =>
    (s.setWell w { s.well w with episode := .logged }).submit
      (.disagree w (s.chan (firstTransducer w)).value (s.chan (secondTransducer w)).value)

/-- PUMP_FLOW_NOTICE (R33): an integration event of the pump's well, and of the well it leaves. -/
def execPumpFlowNotice (p : Pump) (left : Option Well) (s : State) : Host.Outcome State Fault Refusal :=
  whenLive s fun s =>
    let s := match left with
      | some w => if s.wellOf p = some w then s else integrate s w
      | none => s
    match s.wellOf p with
    | some w => integrate s w
    | none => s

/-! ## The balance (R34 to R41) -/

/-- The volume and flag of a present level, on the table as it stands. -/
def recomputeVolume (s : State) (w : Well) : State :=
  match (s.well w).level with
  | some level =>
    let v := wellVolume s w level
    s.setWell w { s.well w with volume := v.1, aboveTable := v.2 }
  | none => s

/-- The balance volume of the balance level, on the table as it stands (R27, step 2). -/
def recomputeBalance (s : State) (w : Well) : State :=
  match (s.well w).established, (s.well w).balanceLevel with
  | true, some level => s.setWell w { s.well w with balanceVolume := some (wellVolume s w level).1 }
  | _, _ => s

/-- A pending level-volume switch takes effect (R27): it is the table's only consumer, so the switch is complete. -/
def takeLevelVolume (s : State) (w : Well) : State :=
  if (s.well w).pendingLevelVolume then
    let s := completeCommit (s.setWell w { s.well w with pendingLevelVolume := false }) (.levelVolume w)
    recomputeVolume (recomputeBalance s w) w
  else s

/-- Every well has taken the pending curves. -/
def curvesTaken (s : State) : Bool := !(s.wells.a.pendingCurves) && !(s.wells.b.pendingCurves)

/-- A pending pump-curve switch takes effect for a well (R40): the flow set is recomputed, DC is notified, and the last
well completes the switch. -/
def takeCurves (s : State) (w : Well) : State :=
  if (s.well w).pendingCurves then
    let s := s.setWell w { s.well w with pendingCurves := false }
    let s := s.setWell w { s.well w with flowSet := newFlowSet s w }
    let s := s.raise (.curveSwitchNotice w)
    if curvesTaken s then completeCommit s .pumpCurves else s
  else s

/-- R35: the balance is established. -/
def establishBalance (r : WellRecord) (now : Ms) : WellRecord :=
  { r with balanceLevel := r.level, balanceVolume := some r.volume, balanceTime := some now, pumpedLitres := 0,
           established := true }

/-- The raw inflow before clamping (R36, step 1). -/
def rawInflowOf (r : WellRecord) (now : Ms) : Int :=
  truncDiv (((r.volume : Int) - (r.balanceVolume.getD 0 : Nat) + r.pumpedLitres) * 1000)
    ((now - r.balanceTime.getD 0 : Nat) : Int)

/-- The filtered inflow (R37). -/
def smoothed (old raw k : Nat) : Nat := ((old : Int) + truncDiv ((raw : Int) - old) (2 ^ k : Nat)).toNat

/-- R36 and R37: the inflow of a balance, and the move forward. -/
def computeBalance (r : WellRecord) (now : Ms) (k : Nat) : WellRecord :=
  let x := rawInflowOf r now
  let raw := (clampInt 0 50000 x).toNat
  { r with
    rawInflow := raw
    negativeBalances := if x < 0 then satInc 65535 r.negativeBalances else r.negativeBalances
    smoothedInflow := smoothed r.smoothedInflow raw k
    inflowGood := true
    pumpedLitres := 0
    balanceLevel := r.level
    balanceVolume := some r.volume
    balanceTime := some now }

/-- Step 4 of R34 by the level quality; an EMPTY table leaves every balance field (R41). -/
def balanceStep (s : State) (w : Well) : State :=
  let r := s.well w
  if (s.tables.levelVolume.get w).isEmpty then s
  else
    match r.quality, r.established with
    | .good, false => s.setWell w (establishBalance r s.now)
    | .good, true => s.setWell w (computeBalance r s.now (s.setup.smoothing.get w).toNat)
    | _, _ => s.setWell w { r with inflowGood := false }

/-- The balance interval in ms (R20). -/
def balanceMs (s : State) (w : Well) : Nat := (s.setup.balanceInterval.get w).toNat * 1000

/-- The steps of a balance expiry, in order (R34). -/
def balanceEvent (s : State) (w : Well) : State :=
  let s := takeLevelVolume s w
  let s := integrate s w
  let s := takeCurves s w
  let s := balanceStep s w
  let s := deliverWell s w
  s.setWell w { s.well w with balanceAt := some (s.now + balanceMs s w) }

/-- BALANCE_EXPIRY (R34). -/
def execBalanceExpiry (w : Well) (s : State) : Host.Outcome State Fault Refusal :=
  whenDue s (s.well w).balanceAt fun s => balanceEvent s w

end Sys2Proof.Machine
end

