-- ==== Sys2Proof/Machine/SetupSwitch.lean ====
section
/-! DEFINITION. What a Station Setup switch does in each block (R10, R16, R20, R25, R33, R47, R68, R70, R83, R84, R87, R92,
R95, R100, R136). The new setup is active already; `old` is the setup before it. -/

namespace Sys2Proof.Machine

/-! ## WMU (R20, R25, R33) -/

/-- The switch changes the assignment or the kind of a pump that is, or was, the well's. -/
def pumpsChanged (old new : Setup) (w : Well) : Bool :=
  Pump.all.any fun p =>
    (old.wellOf p == some w || new.wellOf p == some w)
      && (old.wellOf p != new.wellOf p || old.kind.get p != new.kind.get p)

/-- WMU takes the switch for a well: an integration event (R33), a delivery (R25). -/
def switchWell (old : Setup) (s : State) (w : Well) : State :=
  let new := s.setup
  let s := if old.dischargeInvert != new.dischargeInvert || pumpsChanged old new w then integrate s w else s
  if old.highFloat.get w != new.highFloat.get w || old.lowFloat.get w != new.lowFloat.get w
      || old.disagreement.get w != new.disagreement.get w then deliverWell s w
  else s

/-! ## DC (R47, R48, R68) -/

/-- A well's Rotation List after the switch (R48): pumps that stay keep their order, new ones join at the tail, several of them
in ascending pump number, which is the model's choice (log entry 47). -/
def switchList (old new : Setup) (w : Well) (list : List Pump) : List Pump :=
  (list.filter fun p => new.wellOf p == some w)
    ++ Pump.all.filter fun p => new.wellOf p == some w && old.wellOf p != some w

/-- A pump enters UNAVAILABLE(NO_STATUS) with its drive status UNKNOWN (R47); a motor that was turning counts on (R61). -/
def switchSilent (s : State) (p : Pump) : State :=
  let turningNow := countsRunning (s.pump p)
  let s := enter s p (.unavailable .noStatus)
  s.setPump p { s.pump p with drive := .unknown, silentRunning := turningNow }

/-- A pump whose assignment changed (R47). One that leaves FLOAT with its motor turning counts as running and is charged
nothing: the model's choice (log entry 49). A NOT_FITTED pump taken into FLOAT keeps its status deadline as it stood, the model's
choice too (log entry 69). -/
def moveWell (s : State) (p : Pump) : State :=
  match s.wellOf p with
  | none => enter (releaseCharge s p) p (.unavailable .notFitted)
  | some w =>
    if s.ssu.well.get w = .fallback then toFloat (releaseCharge s p) p
    else
      match (s.pump p).state with
      | .unavailable .notFitted | .float =>
        let s := switchSilent s p
        s.setPump p { s.pump p with statusAt := some (s.now + 15000) }
      | _ => s

/-- A pump whose drive node address changed (R47): the new drive has reported nothing. The status deadline is left as it stood,
the model's choice (log entry 69). -/
def moveDrive (s : State) (p : Pump) : State :=
  match (s.pump p).state with
  | .unavailable .notFitted | .float => s.setPump p { s.pump p with drive := .unknown, lastReport := none }
  | _ =>
    let s := switchSilent s p
    s.setPump p { s.pump p with lastReport := none }

/-- The Start History after a lower limit (R70): the oldest entries leave. -/
def trimHistory (h : List Ms) (limit : Nat) : List Ms := h.drop (h.length - limit)

/-- A pump whose kind changed (R84): its speeds are 100 when made FIXED, its min speed when made VARIABLE. -/
def moveKind (s : State) (p : Pump) : State :=
  let v := resetSpeed s.setup p
  s.setPump p { s.pump p with staged := v, formula := v, applied := v }

/-- What the switch does to one pump (R47, R68, R70, R84). -/
def switchPump (old : Setup) (s : State) (p : Pump) : State :=
  let s := if old.wellOf p = s.wellOf p then s else moveWell s p
  let s := if old.drive.get p = s.setup.drive.get p then s else moveDrive s p
  let s := if old.kind.get p = s.setup.kind.get p then s else moveKind s p
  let r := s.pump p
  let refresh := if old.refreshPeriod = s.setup.refreshPeriod then r.refreshAt
    else r.refreshAt.map fun _ => s.now + refreshMs s
  s.setPump p { r with
    history := trimHistory r.history (s.setup.startsPerHour.get p).toNat, refreshAt := refresh }

/-- The pumps to stop for a lowered max running, in order (R47): AUTO before MANUAL, STARTING before RUNNING, and the last
in rotation order first. -/
def stopOrder (s : State) (w : Well) : List Pump :=
  let back := (s.duty.rotation.get w).reverse
  let group (o : Owner) (st : PumpState) := back.filter fun p => (s.pump p).owner == o && (s.pump p).state == st
  [group .auto .starting, group .auto .running, group .manual .starting, group .manual .running].flatten

/-- A pump is stopped while the count exceeds the max running. -/
def stopOver (w : Well) (s : State) (p : Pump) : State :=
  if maxRunning s w < commandedRunning s w then stopPump s p true else s

/-- Max running lowered (R47). -/
def lowerMaximum (old : Setup) (s : State) (w : Well) : State :=
  if s.setup.maxRunning.get w < old.maxRunning.get w then State.each (stopOver w) (stopOrder s w) s else s

/-- The staged speed at the switch, but for a pump whose kind changed, which has its speed from that (R84). -/
def restageKept (old : Setup) (w : Well) (level : Int) (s : State) (p : Pump) : State :=
  if old.kind.get p = s.setup.kind.get p then restage w level s p else s

/-- Interlock and staged speed of a well's pumps at the switch (R54, R84), on the level the record holds whatever its quality.
With no level the staged speeds stand, and so does that of a VARIABLE pump of no well, which has no level to compute from: the
model's choice (log entry 50). -/
def refitWell (old : Setup) (s : State) (w : Well) : State :=
  let d := deliveryOf (s.well w)
  let s := State.each (evalInterlock d) (s.setup.pumpsOf w) s
  match d.level with
  | none => s
  | some level => State.each (restageKept old w level) (s.setup.pumpsOf w) s

/-- DC takes the switch. The stops for a lowered max running come before the interlock evaluation (log entry 58), well A before
well B (log entry 57), and the pumps in ascending number (log entry 59): the model's choices. -/
def switchDuty (old : Setup) (s : State) : State :=
  let rot : PerWell (List Pump) :=
    ⟨switchList old s.setup .a s.duty.rotation.a, switchList old s.setup .b s.duty.rotation.b⟩
  let s := { s with duty := { s.duty with rotation := rot } }
  let s := State.each (switchPump old) Pump.all s
  let s := State.each (lowerMaximum old) Well.all s
  let s := State.each (refitWell old) Well.all s
  State.each evaluateWithin Well.all s

/-! ## SB (R87, R92, R95) -/

/-- A well's reserve at the switch: recomputed while it is in FALLBACK (R92). -/
def switchReserve (s : State) (w : Well) : Nat :=
  if s.ssu.well.get w = .fallback then reserveOf s.setup w else s.budget.reserve.get w

/-- SB takes the switch: a change of capacity as R88 states, without a record, and an examination (R95). The reserves are
recomputed first: the model's choice (log entry 52). -/
def switchBudget (old : Setup) (s : State) : State :=
  let s := { s with budget := { s.budget with reserve := ⟨switchReserve s .a, switchReserve s .b⟩ } }
  examine (capacityChange s (capacityOf old s.budget.supply)).1

/-! ## All blocks -/

/-- The blocks take a Station Setup switch; `before` is the state before it. Their order, WMU, DC, SB, SC, SSU, is the model's
choice (log entry 51). -/
def takeSetup (before : State) (s : State) : State :=
  let old := before.setup
  let s := State.each (switchWell old) Well.all s
  let s := settle before (switchDuty old s)
  let s := switchBudget old s
  let s := switchScreens old s
  switchStation s

end Sys2Proof.Machine
end

