-- ==== Sys2Proof/Machine/TableOps.lean ====
section
/-! DEFINITION. The banked tables as MU addresses them: sections, entries, and the conditions a commit checks (R2, R26, R31,
R121, R175, R177 to R180, R183). -/

namespace Sys2Proof.Machine

/-! ## Sections and entries (R177) -/

/-- How many entries a section holds; a table without a header section has none in it. -/
def sectionLength : TableId → Section → Nat
  | .sampleMap, .main => 24
  | .levelVolume _, .main => 33
  | .levelVolume _, .header => 1
  | .pumpCurves, .main => 54
  | .weir, .main => 34
  | .weir, .header => 2
  | .stationSetup, .main => 185
  | .gates, .main => 32
  | .sources, .main => 16
  | .sampleMap, .header | .pumpCurves, .header | .stationSetup, .header | .gates, .header | .sources, .header => 0

/-- The entry is of the form of the table and section. -/
def entryFits : TableId → Section → TableEntry → Bool
  | .sampleMap, .main, .sample _ => true
  | .levelVolume _, .main, .volume _ => true
  | .levelVolume _, .header, .lvHeader _ _ => true
  | .pumpCurves, .main, .flow _ => true
  | .weir, .main, .flow _ => true
  | .weir, .header, .flow _ => true
  | .stationSetup, .main, .setup _ => true
  | .gates, .main, .gate _ => true
  | .sources, .main, .source _ => true
  | .pumpCurves, .header, .flow _ => true
  | .stationSetup, .header, .setup _ => true
  | .gates, .header, .gate _ => true
  | .sources, .header, .source _ => true
  | .sampleMap, .header, .sample _ => true
  | _, _, _ => false

/-- A level-volume bank with an entry written. -/
def putVolume (t : LevelVolume) (sect : Section) (i : Nat) : TableEntry → LevelVolume
  | .volume v => match sect with
    | .main => { t with volumes := t.volumes.set i v }
    | .header => t
  | .lvHeader base stepSize => match sect with
    | .header => { t with base := base, stepSize := stepSize }
    | .main => t
  | _ => t

/-- A WEIR bank with an entry written. -/
def putWeir (t : Weir) (sect : Section) (i : Nat) : TableEntry → Weir
  | .flow v => match sect with
    | .main => { t with flows := t.flows.set i v }
    | .header => { t with steps := t.steps.set (if i = 0 then .one else .two) v }
  | _ => t

variable {α : Type}

/-- Writing goes to the inactive bank (R178). -/
def Banks.write (b : Banks α) (f : α → α) : Banks α := { b with inactive := f b.inactive }

/-- A Station Setup bank with the value of an index written. -/
def putSetup (t : Setup) (i : Nat) (v : SetupValue) : Setup :=
  match SetupKey.all[i]? with
  | some key => setupPut t key v
  | none => t

/-- One entry written to the inactive bank at an index of a section. -/
def putEntry (t : Tables) (id : TableId) (sect : Section) (i : Nat) (e : TableEntry) : Tables :=
  match id, e with
  | .sampleMap, .sample x => { t with sampleMap := Banks.write t.sampleMap fun b => b.set i x }
  | .levelVolume w, e =>
    { t with levelVolume := t.levelVolume.set w (Banks.write (t.levelVolume.get w) fun b => putVolume b sect i e) }
  | .pumpCurves, .flow v => { t with pumpCurves := Banks.write t.pumpCurves fun b => b.set i v }
  | .weir, e => { t with weir := Banks.write t.weir fun b => putWeir b sect i e }
  | .stationSetup, .setup v => { t with setup := Banks.write t.setup fun b => putSetup b i v }
  | .gates, .gate x => { t with gates := Banks.write t.gates fun b => b.set i x }
  | .sources, .source x => { t with sources := Banks.write t.sources fun b => b.set i x }
  | _, _ => t

/-- Entries written in payload order, until one would lie outside the section; how many were written (R178). -/
def writeEntries (id : TableId) (sect : Section) (dir : Direction) :
    Option Nat → List TableEntry → Tables → Tables × Nat
  | some i, e :: es, t =>
    if i < sectionLength id sect then
      let x := writeEntries id sect dir (nextIndex dir i) es (putEntry t id sect i e)
      (x.1, x.2 + 1)
    else (t, 0)
  | _, _, t => (t, 0)

/-- The contents of a bank. -/
def Banks.bank (b : Banks α) : BankName → α
  | .active => b.active
  | .inactive => b.inactive

/-- The entry of a bank at an index of a section, as it stands (R179). -/
def readEntry (t : Tables) (id : TableId) (bank : BankName) (sect : Section) (i : Nat) : Option TableEntry :=
  match id, sect with
  | .sampleMap, .main => (Banks.bank t.sampleMap bank)[i]?.map .sample
  | .levelVolume w, .main => (Banks.bank (t.levelVolume.get w) bank).volumes[i]?.map .volume
  | .levelVolume w, .header =>
    let b := Banks.bank (t.levelVolume.get w) bank
    some (.lvHeader b.base b.stepSize)
  | .pumpCurves, .main => (Banks.bank t.pumpCurves bank)[i]?.map .flow
  | .weir, .main => (Banks.bank t.weir bank).flows[i]?.map .flow
  | .weir, .header => some (.flow ((Banks.bank t.weir bank).steps.get (if i = 0 then .one else .two)))
  | .stationSetup, .main => SetupKey.all[i]?.map fun key => .setup (setupGet (Banks.bank t.setup bank) key)
  | .gates, .main => (Banks.bank t.gates bank)[i]?.map .gate
  | .sources, .main => (Banks.bank t.sources bank)[i]?.map .source
  | _, .header => none

/-- Entries read one after another, until one would lie outside the section (R179). -/
def readEntries (t : Tables) (id : TableId) (bank : BankName) (sect : Section) (dir : Direction) :
    Nat → Option Nat → List TableEntry
  | n + 1, some i =>
    if i < sectionLength id sect then
      match readEntry t id bank sect i with
      | some e => e :: readEntries t id bank sect dir n (nextIndex dir i)
      | none => []
    else []
  | _, _ => []

/-- The active bank of a table is EMPTY. -/
def emptyMark (t : Tables) : TableId → Bool
  | .sampleMap => t.sampleMap.isEmpty
  | .levelVolume w => (t.levelVolume.get w).isEmpty
  | .pumpCurves => t.pumpCurves.isEmpty
  | .weir => t.weir.isEmpty
  | .stationSetup => t.setup.isEmpty
  | .gates => t.gates.isEmpty
  | .sources => t.sources.isEmpty

/-- The inactive bank takes a copy of the active one (R179). -/
def Banks.discard (b : Banks α) : Banks α := { b with inactive := b.active }

def discardTable (t : Tables) : TableId → Tables
  | .sampleMap => { t with sampleMap := Banks.discard t.sampleMap }
  | .levelVolume w => { t with levelVolume := t.levelVolume.set w (Banks.discard (t.levelVolume.get w)) }
  | .pumpCurves => { t with pumpCurves := Banks.discard t.pumpCurves }
  | .weir => { t with weir := Banks.discard t.weir }
  | .stationSetup => { t with setup := Banks.discard t.setup }
  | .gates => { t with gates := Banks.discard t.gates }
  | .sources => { t with sources := Banks.discard t.sources }

/-! ## Validation (R180): the section and index of the first failing entry -/

def inRange (lo hi v : Int) : Bool := decide (lo ≤ v ∧ v ≤ hi)

/-- The kind a quantity has (00_scope.md, Station quantities). -/
def quantityKind : Quantity → ChannelKind
  | .la1 | .la2 | .lb1 | .lb2 | .riv | .su1 | .su2 | .su3 | .ov1 | .ov2 => .analog
  | .fah | .fal | .fbh | .fbl | .rh1 | .rh2 | .rh3 => .discrete

/-- The fields of an ANALOG entry lie in their ranges, the window in order, the reference whole (R1, R2). -/
def analogOk (e : SampleEntry) : Bool :=
  inRange (-5000) 15000 e.zero && inRange 1 20000 e.span && decide (e.windowLow ≤ e.windowHigh)
    && decide (e.windowHigh ≤ 4095)
    && match e.expected, e.tolerance with
       | some x, some y => decide (x ≤ 4095 ∧ y ≤ 4095)
       | none, none => true
       | _, _ => false

/-- An entry by itself meets the conditions of R2. -/
def sampleOk (e : SampleEntry) : Bool :=
  inRange 1 62 e.node && decide (e.channel ≤ 15) && inRange 5 600 e.holdLimit
    && (match e.quantity with
        | .name q => e.kind == quantityKind q
        | .unnamed _ => false)
    && (match e.kind with
        | .analog => analogOk e
        | .discrete => e.expected.isNone && e.tolerance.isNone)

/-- The key of one entry comes before another's (R1). -/
def keyBefore (a b : SampleEntry) : Bool := decide (a.node < b.node ∨ (a.node = b.node ∧ a.channel < b.channel))

/-- An entry meets R2 behind those before it, nearest first. -/
def sampleFollows (before : List SampleEntry) (e : SampleEntry) : Bool :=
  sampleOk e
    && (match before with
        | x :: _ => keyBefore x e
        | [] => true)
    && before.all fun x => x.quantity != e.quantity

/-- The first slot of the Sample Map that breaks a condition (R2); empty slots are passed over. -/
def sampleFailing : List SampleEntry → Nat → SampleMap → Option Nat
  | _, _, [] => none
  | before, i, none :: rest => sampleFailing before (i + 1) rest
  | before, i, some e :: rest => if sampleFollows before e then sampleFailing (e :: before) (i + 1) rest else some i

/-- The first of numbered values that fails a test on its index, the value before it and itself. -/
def firstFailing (ok : Nat → Nat → Nat → Bool) : Nat → Nat → List Nat → Option Nat
  | _, _, [] => none
  | i, before, v :: rest => if ok i before v then firstFailing ok (i + 1) v rest else some i

/-- R26: the volumes, then the header. -/
def volumeFailing (t : LevelVolume) : Option (Section × Nat) :=
  match firstFailing (fun i before v => decide (v ≤ 4000000) && (i == 0 || decide (before ≤ v))) 0 0 t.volumes with
  | some i => some (.main, i)
  | none => if inRange (-5000) 15000 t.base && inRange 10 1000 t.stepSize then none else some (.header, 0)

/-- R31: each curve falls. -/
def curvesFailing (t : PumpCurves) : Option Nat :=
  firstFailing (fun i before v => decide (v ≤ 5000) && (i % 9 == 0 || decide (v ≤ before))) 0 0 t

/-- R121: each curve rises; then the head steps. -/
def weirFailing (t : Weir) : Option (Section × Nat) :=
  match firstFailing (fun i before v => decide (v ≤ 20000) && (i % 17 == 0 || decide (before ≤ v))) 0 0 t.flows with
  | some i => some (.main, i)
  | none =>
    if !(inRange 5 200 t.steps.one) then some (.header, 0)
    else if !(inRange 5 200 t.steps.two) then some (.header, 1)
    else none

/-- R175: the slots in order. -/
def slotFailing : List SourceEntry → Nat → Sources → Option Nat
  | _, _, [] => none
  | before, i, none :: rest => slotFailing before (i + 1) rest
  | before, i, some e :: rest =>
    if inRange 1 62 e.address && decide (e.ceiling ≤ 3) && before.all (fun x => x.address != e.address) then
      slotFailing (e :: before) (i + 1) rest
    else some i

/-- An entry under which a source may commit again (R175). -/
def canManage (e : SourceEntry) : Bool := e.ceiling == 0 && e.manage

def sourcesFailing (t : Sources) : Option Nat :=
  match slotFailing [] 0 t with
  | some i => some i
  | none => if (t.filterMap id).any canManage then none else some 15

/-- A target of the kind its action takes (R184). -/
def targetFits : GateAction → GateTarget → Bool
  | .pumpEnable, .pump _ | .pumpDisable, .pump _ | .pumpClear, .pump _ | .pumpRelease, .pump _ => true
  | .rakeRun, .screen _ | .rakeEnable, .screen _ | .rakeDisable, .screen _ | .screenClear, .screen _ => true
  | .channelClear, .quantity _ | .refCheck, .quantity _ => true
  | .rotate, .well _ => true
  | .forceStorm, .none | .allowDry, .none => true
  | _, _ => false

/-- A precondition in its ranges (R183). -/
def preconditionOk (x : Precondition) : Bool :=
  (match x.quantity with | .name _ => true | .unnamed _ => false)
    && (match x.comparison with | .name _ => true | .unnamed _ => false)
    && inRange (-5000) 15000 x.constant

/-- A used entry of GATES meets R183. -/
def gateOk (g : GateEntry) : Bool :=
  (match g.action with | .name a => targetFits a g.target | .unnamed _ => false)
    && decide (g.authority ≤ 3)
    && (match g.enabled with | .name _ => true | .unnamed _ => false)
    && (match g.precondition with | some x => preconditionOk x | none => true)

def gatesFailing (t : Gates) : Option Nat :=
  t.findIdx? fun g => match g with
    | some g => !(gateOk g)
    | none => false

/-- The first failing entry of a table's inactive bank (R180). -/
def failing (t : Tables) : TableId → Option (Section × Nat)
  | .sampleMap => (sampleFailing [] 0 t.sampleMap.inactive).map (Section.main, ·)
  | .levelVolume w => volumeFailing (t.levelVolume.get w).inactive
  | .pumpCurves => (curvesFailing t.pumpCurves.inactive).map (Section.main, ·)
  | .weir => weirFailing t.weir.inactive
  | .stationSetup => (setupFirstFailing t.setup.inactive).map (Section.main, ·)
  | .gates => (gatesFailing t.gates.inactive).map (Section.main, ·)
  | .sources => (sourcesFailing t.sources.inactive).map (Section.main, ·)

end Sys2Proof.Machine
end

