-- ==== Sys2Proof/Machine/ManagementBlock.lean ====
section
/-! DEFINITION. MU: management requests, commits, gates, the clock and the restart (chapter 11). -/

namespace Sys2Proof.Machine

/-! ## Responses and checks (R176) -/

/-- The answer to a request (R171, R176): one that is not placed is dropped and counted. -/
def respond (s : State) (h : ReqHead) (result : ResultCode) (data : RspData) : State :=
  (offerGeneral s h.source (some h.frameSeq) (.mgmtRsp h.tag result data)).getD
    { s with lp := { s.lp with responseDrops := satInc 65535 s.lp.responseDrops } }

/-- The authority an operation needs (R176). -/
inductive Need where
  | manage | trusted | top
  deriving DecidableEq, Repr

/-- The effective authority meets the need. -/
def needMet (s : State) (n : Need) (authority : Nat) : Bool :=
  match n with
  | .manage => true
  | .trusted => decide (authority ≤ s.mu.lockLevel)
  | .top => authority == 0

/-- The checks of R176, in order: the result of the first that fails, or the effective authority. -/
def checkRequest (s : State) (h : ReqHead) (form : Bool) (need : Need) : Except ResultCode Nat :=
  match sourceEntry s h.source with
  | none => .error .notKnown
  | some e =>
    if !e.manage then .error .denied
    else if !form then .error .badArgument
    else if needMet s need (effective e h.authority) then .ok (effective e h.authority)
    else .error .denied

/-- An operation whose arguments are read and have their form. -/
def onRequest {α : Type} (s : State) (h : ReqHead) (args : Option α) (form : α → Bool) (need : Need)
    (f : State → Nat → α → State) : State :=
  match checkRequest s h (args.any form) need, args with
  | .ok authority, some a => f s authority a
  | .error r, _ => respond s h r .none
  | _, none => s

/-- The table has a pending commit (R180). -/
def commitHolds (s : State) (t : TableId) : Bool :=
  match s.mu.commit with
  | .scheduled t' _ => t' == t
  | .storing t' _ _ => t' == t
  | .none => false

/-! ## Tables (R178, R179) -/

/-- The count and entries of a write (R178, section 12.2). -/
def writeForm (a : WriteArgs) : Bool :=
  decide (1 ≤ a.count ∧ a.count ≤ min 12 (41 / entryWidth a.table a.sect)) && a.entries.length == a.count
    && a.entries.all (entryFits a.table a.sect)

/-- OK when every entry was done (R178, R179). -/
def countResult (done count : Nat) : ResultCode := if done = count then .ok else .outOfRange

def writeTable (s : State) (h : ReqHead) (a : WriteArgs) : State :=
  if commitHolds s a.table then respond s h .busy .none
  else
    let x := writeEntries a.table a.sect a.direction (some a.start) a.entries s.tables
    respond { s with tables := x.1 } h (countResult x.2 a.count) (.written x.2)

/-- TABLE_WRITE (R178). -/
def execTableWrite (h : ReqHead) (args : Option WriteArgs) (s : State) : Host.Outcome State Fault Refusal :=
  whenLive s fun s => onRequest s h args writeForm .trusted fun s _ a => writeTable s h a

/-- The count of a read fits one response (R179, section 12.2). -/
def readForm (a : ReadArgs) : Bool := decide (1 ≤ a.count ∧ a.count ≤ min 12 (44 / entryWidth a.table a.sect))

/-- The standing of a bank (R179): only an active bank is EMPTY. -/
def standingOf (s : State) (t : TableId) (bank : BankName) : Standing :=
  if commitHolds s t then .pending
  else
    match bank with
    | .active => if emptyMark s.tables t then .empty else .valid
    | .inactive => .valid

def readTable (s : State) (h : ReqHead) (a : ReadArgs) : State :=
  let es := readEntries s.tables a.table a.bank a.sect a.direction a.count (some a.start)
  respond s h (countResult es.length a.count) (.entries es.length (standingOf s a.table a.bank) es)

/-- TABLE_READ (R179). -/
def execTableRead (h : ReqHead) (args : Option ReadArgs) (s : State) : Host.Outcome State Fault Refusal :=
  whenLive s fun s => onRequest s h args readForm .manage fun s _ a => readTable s h a

/-- Arguments that need no more than to be read. -/
def anyForm {α : Type} (_ : α) : Bool := true

/-- TABLE_DISCARD (R179). -/
def execTableDiscard (h : ReqHead) (args : Option TableId) (s : State) : Host.Outcome State Fault Refusal :=
  whenLive s fun s => onRequest s h args anyForm .trusted fun s _ t =>
    if commitHolds s t then respond s h .busy .none
    else respond { s with tables := discardTable s.tables t } h .ok .none

/-! ## The commit (R180, R181) -/

/-- A state in which the setup may change a pump's well, drive or kind (R46). -/
def pumpMayChange (st : PumpState) : Bool :=
  match st with
  | .off | .resting | .unavailable _ | .float => true
  | .startWait | .starting | .running | .stopping | .backoff | .lockedOut => false

/-- A state in which the setup may change a rake's drive (R100). -/
def rakeMayChange (st : RakeState) : Bool := st == .parked || st == .jammed || st == .outOfService

/-- The first pump that a new setup would change against R46. -/
def pumpConflict (s : State) (new : Setup) : Option Pump :=
  Pump.all.find? fun p =>
    (new.well.get p != s.setup.well.get p || new.drive.get p != s.setup.drive.get p
      || new.kind.get p != s.setup.kind.get p) && !(pumpMayChange (s.pump p).state)

/-- The first rake that a new setup would change against R100. -/
def rakeConflict (s : State) (new : Setup) : Option Screen :=
  Screen.all.find? fun k => new.rakeDrive.get k != s.setup.rakeDrive.get k && !(rakeMayChange (s.screen k).state)

/-- The data of a CONFLICT of a valid Station Setup (R180): of several, the lowest-numbered pump, and a screen when no pump
conflicts, the model's choice (log entry 54). -/
def setupConflict (s : State) : Option RspData :=
  match pumpConflict s s.tables.setup.inactive, rakeConflict s s.tables.setup.inactive with
  | some p, _ => some (.pump p)
  | none, some k => some (.screen k)
  | none, none => none

/-- The level quantity of a point is LOST, SUSPECT or unmapped (R133). -/
def pointBlind (s : State) (o : Point) : Bool :=
  let q := (s.chan (pointQuantity o)).quality
  q == .lost || q == .suspect || (entryFor s (pointQuantity o)).isNone

/-- The switch is arranged with the consumers (R27, R40, R133, R180), the commit being SCHEDULED. -/
def arrange (s : State) (t : TableId) : State :=
  match t with
  | .sampleMap =>
    let old := mapEntries s
    takeSampleMap old (completeCommit s t)
  | .stationSetup => takeSetup s (completeCommit s t)
  | .gates => completeCommit s t
  | .sources => completeCommit s t
  | .levelVolume w => s.setWell w { s.well w with pendingLevelVolume := true }
  | .pumpCurves =>
    { s with
      wells := ⟨{ s.wells.a with pendingCurves := true }, { s.wells.b with pendingCurves := true }⟩
      duty := { s.duty with newCurves := PerWell.of false } }
  | .weir =>
    let s := { s with
      points := ⟨{ s.points.one with pendingSwitch := true }, { s.points.two with pendingSwitch := true }⟩ }
    State.each (fun s o => if pointBlind s o then takeWeir s o else s) Point.all s

/-- A valid commit becomes SCHEDULED, and the switch is arranged. -/
def scheduleCommit (s : State) (h : ReqHead) (t : TableId) : State :=
  arrange { s with mu := { s.mu with commit := .scheduled t h } } t

def commitTable (s : State) (h : ReqHead) (t : TableId) : State :=
  if s.mu.commit ≠ .none then respond s h .busy .none
  else
    match failing s.tables t with
    | some (sect, i) => respond s h .invalidTable (.failing sect i)
    | none =>
      match t with
      | .stationSetup =>
        match setupConflict s with
        | some data => respond s h .conflict data
        | none => scheduleCommit s h t
      | _ => scheduleCommit s h t

/-- TABLE_COMMIT (R180). -/
def execTableCommit (h : ReqHead) (args : Option TableId) (s : State) : Host.Outcome State Fault Refusal :=
  whenLive s fun s => onRequest s h args anyForm .trusted fun s _ t => commitTable s h t

/-- The store with a table's active contents written (R182). -/
def writeStore (s : State) (t : TableId) : State :=
  { s with store := setPair s.store t (writePair (storePair s.store t) (activeContents s.tables t)) }

/-- The write of a table completes (R181, step 3); with a restart waiting, nothing is answered or recorded (R186). -/
def finishStore (s : State) (t : TableId) (h : ReqHead) : State :=
  let generation := nextGeneration (storePair s.store t)
  let s := writeStore s t
  let s := { s with mu := { s.mu with commit := .none } }
  if s.mu.restartWaiting.isSome then s.raise .deferredRestart
  else (respond s h .ok .none).submit (.tableCommit t generation)

/-- STORE_WRITE_COMPLETE (R181). -/
def execStoreWriteComplete (s : State) : Host.Outcome State Fault Refusal :=
  whenLive s fun s => match s.mu.commit with
    | .storing t h _ => finishStore s t h
    | _ => s

/-! ## Reading records (R179) -/

/-- The setup copies of a Pump Record in the order of R43 and R69: weights, times, levels and limits. -/
def setupCopies (t : Setup) (p : Pump) : List Int :=
  [t.drive.get p, t.startWeight.get p, t.runWeight.get p, t.minRun.get p, t.minRest.get p, t.dryLevel.get p,
   t.startConfirm.get p, t.startsPerHour.get p, t.attemptLimit.get p, t.skipTime.get p, t.minSpeed.get p,
   t.speedGain.get p]

/-- The place of a pump in its well's Rotation List, from 1; none when NOT_FITTED. -/
def rotationPosition (s : State) (p : Pump) : Option Nat :=
  (s.wellOf p).bind fun w => ((s.duty.rotation.get w).findIdx? (· == p)).map (· + 1)

/-- The log summary: everything but the record bodies (R149). -/
def logSummary (l : EventLog) : LogSummary :=
  ⟨l.records.map fun r => (r.sequence, r.body.kindCode, r.timestamp, r.timeUnset), { l with records := [] }⟩

/-- The record as its owner holds it (R179). -/
def imageOf (s : State) : RecordName → RecordImage
  | .well w => .well (s.well w)
  | .pump p => .pump (s.pump p) (rotationPosition s p) (s.setup.well.get p) (s.setup.kind.get p)
      (setupCopies s.setup p) (s.setup.policy.get p)
  | .screen k => .screen (s.screen k)
  | .point o => .point (pointQuantity o) (pointWell o) (s.point o)
  | .channel q => .channel q (s.chan q)
  | .budget => .budget s.budget (capacity s) (committed s.budget) (releasing s.budget)
  | .log => .log (logSummary s.elr)
  | .loop => .loop s.lp.ownAddress (s.lp.forward.length, s.lp.control.length, s.lp.general.length)
      s.lp.consecutiveForwards s.lp.ownSequence
      [s.lp.checkErrors, s.lp.headerErrors, s.lp.overruns, s.lp.responseDrops, s.lp.broadcastCommands]
      s.lp.loopSilent s.lp.silenceAt
  | .station => .station s.ssu s.mu.clock s.mu.timeUnset s.mu.lockLevel s.mu.commit

/-- The number of parts a record is read in; its layout is not given (log entry 8). -/
def partsOf (r : RecordImage) : Nat := Config.recordPartsBeyondFirst r + 1

/-- READ_RECORD (R179): a part beyond the last is BAD_ARGUMENT. -/
def execReadRecord (h : ReqHead) (args : Option (RecordName × Nat)) (s : State) : Host.Outcome State Fault Refusal :=
  whenLive s fun s =>
    onRequest s h args (fun a => decide (a.2 < partsOf (imageOf s a.1))) .manage fun s _ a =>
      let image := imageOf s a.1
      respond s h .ok (.record a.2 (partsOf image) image)

/-! ## Gates (R184) -/

def compares (c : Comparison) (v constant : Int) : Bool :=
  match c with
  | .above => decide (constant < v)
  | .atOrAbove => decide (constant ≤ v)
  | .below => decide (v < constant)
  | .atOrBelow => decide (v ≤ constant)

/-- The precondition holds on the channel record as it stands (R184). -/
def preconditionHolds (s : State) (x : Precondition) : Bool :=
  match x.quantity, x.comparison with
  | .name q, .name c =>
    match (s.chan q).quality, (s.chan q).value with
    | .good, some v => compares c v x.constant
    | _, _ => false
  | _, _ => false

/-- A gate of DC, with what follows its change; one that does not apply changes nothing (R184). -/
def dutyGate (s : State) (x : State × Bool) : State × Bool := if x.2 then (settle s x.1, true) else (s, false)

/-- The owning block carries the action out, or finds that it does not apply (R184). -/
def applyGate (s : State) (a : GateAction) (t : GateTarget) : State × Bool :=
  match a, t with
  | .pumpEnable, .pump p => dutyGate s (pumpEnable s p)
  | .pumpDisable, .pump p => dutyGate s (pumpDisable s p)
  | .pumpClear, .pump p => dutyGate s (pumpClear s p)
  | .pumpRelease, .pump p => dutyGate s (pumpRelease s p)
  | .rotate, .well w => dutyGate s (rotateGate s w)
  | .rakeRun, .screen k => rakeRun s k
  | .rakeEnable, .screen k => rakeEnable s k
  | .rakeDisable, .screen k => rakeDisable s k
  | .screenClear, .screen k => screenClear s k
  | .channelClear, .quantity q => channelClear s q
  | .refCheck, .quantity q => refCheck s q
  | .forceStorm, _ => forceStorm s
  | .allowDry, _ => allowDry s
  | _, _ => (s, false)

/-- The gate of a number, from the active table. -/
def gateAt (s : State) (n : Nat) : Option GateEntry := (s.tables.gates.active[n]?).join

/-- The action of a gate that passed its checks. -/
def runGate (s : State) (h : ReqHead) (g : GateEntry) : State :=
  match g.action with
  | .name a =>
    let x := applyGate s a g.target
    respond x.1 h (if x.2 then .ok else .conflict) .none
  | .unnamed _ => respond s h .conflict .none

def invoke (s : State) (h : ReqHead) (authority n : Nat) : State :=
  match gateAt s n with
  | none => respond s h .disabled .none
  | some g =>
    if g.enabled ≠ .name true then respond s h .disabled .none
    else if g.authority < authority then respond s h .denied .none
    else
      match g.precondition with
      | some x => if preconditionHolds s x then runGate s h g else respond s h .precondition .none
      | none => runGate s h g

/-- INVOKE_GATE (R184). -/
def execInvokeGate (h : ReqHead) (args : Option Nat) (s : State) : Host.Outcome State Fault Refusal :=
  whenLive s fun s => onRequest s h args (fun n => decide (n ≤ 31)) .manage fun s authority n => invoke s h authority n

/-! ## Lock level, clock, counters (R176, R185) -/

/-- SET_LOCK_LEVEL (R176). -/
def execSetLockLevel (h : ReqHead) (args : Option Nat) (s : State) : Host.Outcome State Fault Refusal :=
  whenLive s fun s => onRequest s h args (fun n => decide (n ≤ 3)) .top fun s _ n =>
    respond { s with mu := { s.mu with lockLevel := n } } h .ok .none

/-- SET_TIME (R185). -/
def execSetTime (h : ReqHead) (args : Option (BitVec 32)) (s : State) : Host.Outcome State Fault Refusal :=
  whenLive s fun s => onRequest s h args anyForm .trusted fun s _ t =>
    respond { s with mu := { s.mu with clock := t, timeUnset := false, clockAt := some (s.now + 1000) } } h .ok .none

/-- The counts that CLEAR_COUNTERS sets to 0 (R185). -/
def clearCounts (s : State) : State :=
  { s with
    lp := { s.lp with checkErrors := 0, headerErrors := 0, overruns := 0, responseDrops := 0, broadcastCommands := 0 }
    elr := { clearLost s.elr with badAcks := 0 }
    wells := ⟨{ s.wells.a with negativeBalances := 0 }, { s.wells.b with negativeBalances := 0 }⟩ }

/-- CLEAR_COUNTERS (R185). -/
def execClearCounters (h : ReqHead) (args : Option Unit) (s : State) : Host.Outcome State Fault Refusal :=
  whenLive s fun s => onRequest s h args anyForm .trusted fun s _ _ => respond (clearCounts s) h .ok .none

/-- CLOCK_ADVANCE (R185): every 1,000 ms, wrapping. -/
def execClockAdvance (s : State) : Host.Outcome State Fault Refusal :=
  whenDue s s.mu.clockAt fun s =>
    { s with mu := { s.mu with clock := s.mu.clock + 1, clockAt := s.mu.clockAt.map (· + 1000) } }

/-! ## Restart (R186) -/

/-- The restart of every block, and its answer. -/
def restartNow (s : State) (h : ReqHead) : State := respond (restartPart s) h .ok .none

/-- A store write is in progress. -/
def storing (s : State) : Bool :=
  match s.mu.commit with
  | .storing _ _ _ => true
  | _ => false

/-- RESTART (R182, R186): it waits for a store write; a restart that waits is kept (log entry 25). One that comes when the write
has completed and the restart that waited is not made yet is made at once, and the one that waited is gone with the record of
MU, unanswered: the model's choice (log entry 78). -/
def execRestart (h : ReqHead) (args : Option Unit) (s : State) : Host.Outcome State Fault Refusal :=
  whenLive s fun s => onRequest s h args anyForm .trusted fun s _ _ =>
    if storing s then { s with mu := { s.mu with restartWaiting := some (s.mu.restartWaiting.getD h) } }
    else restartNow s h

/-- DEFERRED_RESTART (R186): the write has completed. -/
def execDeferredRestart (s : State) : Host.Outcome State Fault Refusal :=
  whenLive s fun s => match s.mu.restartWaiting with
    | some h => if storing s then s else restartNow s h
    | none => s

end Sys2Proof.Machine
end

