-- ==== Sys2Proof/Machine/LoopBlock.lean ====
section
/-! DEFINITION. LP: arrival, disposal, LOOP OUT and loop silence (chapter 10). -/

namespace Sys2Proof.Machine

/-- A change of the Loop Record. -/
def State.setLp (s : State) (l : Loop) : State := { s with lp := l }

/-! ## Arrival (R166) -/

/-- What every good frame brings: the generator's step (R74) and the silence restart (R174). -/
def noteGood (s : State) : State :=
  { s with
    duty := { s.duty with backoff := backoffStep s.duty.backoff }
    lp := { s.lp with silenceAt := some (s.now + 2000), loopSilent := false } }

def countHeader (s : State) : State := s.setLp { s.lp with headerErrors := satInc 65535 s.lp.headerErrors }
def countCheck (s : State) : State := s.setLp { s.lp with checkErrors := satInc 65535 s.lp.checkErrors }
def countBroadcast (s : State) : State :=
  s.setLp { s.lp with broadcastCommands := satInc 65535 s.lp.broadcastCommands }

/-- A DRIVE_STAT goes to the owner of its drive. -/
def handDriveStat (s : State) (src : Addr) (payload : List Byte) : State :=
  let s := s.raiseIf (pumpAtDrive s src).isSome (.driveStat src payload)
  s.raiseIf (screenAtDrive s src).isSome (.rakeDriveStat src payload)

/-- The hand-off by kind (R168), but for DRIVE_CMD, MGMT_REQ and REPORT_ACK. -/
def handFrame (s : State) (f : RawFrame) : State :=
  match frameKind f.kind with
  | .sample => s.raise (.sampleFrame (rawSource f) f.payload)
  | .edge => s.raise (.edgeFrame (rawSource f) f.payload)
  | .driveStat => handDriveStat s (rawSource f) f.payload
  | .supplyStat => s.raise (.supplyStat (rawSource f) (Config.supplyField f.payload))
  | .cadence | .driveCmd | .mgmtReq | .mgmtRsp | .report | .reportAck | .status | .refusal | .unknown => s

/-- A management request is an event of its own (R168, R176); shorter than 2 bytes it is discarded (R188). -/
def handRequest (s : State) (f : RawFrame) : State :=
  match f.payload with
  | op :: tag :: args =>
    s.raise (requestCommand ⟨rawSource f, rawAuthority f, rawSequence f, tag⟩ op args)
  | _ => s

/-- A DRIVE_CMD to a fitted pump (R169, R188): the state, and whether the frame passes. -/
def policeFrame (s : State) (p : Pump) (f : RawFrame) : State × Bool :=
  match driveCommandOf f.payload with
  | some (act, speed) => police s p (rawSource f) (rawAuthority f) (rawSequence f) act speed
  | none => (countHeader s, false)

/-- A frame addressed to the part: it is not forwarded (R167). -/
def consumeFrame (s : State) (f : RawFrame) : State :=
  match frameKind f.kind, pumpAtDrive s (rawDestination f) with
  | .mgmtReq, _ => handRequest s f
  | .reportAck, _ => s.raise (.reportAck (rawSource f) f.payload)
  | .driveCmd, some p => (policeFrame s p f).1
  | _, _ => handFrame s f

/-- A frame for another node: a DRIVE_CMD to a fitted pump passes policing first (R167, R169). -/
def passFrame (s : State) (f : RawFrame) : State :=
  match frameKind f.kind, pumpAtDrive s (rawDestination f) with
  | .driveCmd, some p =>
    let x := policeFrame s p f
    if x.2 then joinForward x.1 f else x.1
  | _, _ => joinForward (handFrame s f) f

/-- A broadcast frame: a DRIVE_CMD is held back (R169). -/
def broadcastFrame (s : State) (f : RawFrame) : State :=
  match frameKind f.kind with
  | .driveCmd => countBroadcast s
  | _ => joinForward (handFrame s f) f

/-- The disposition of a good frame with usable addresses, by the first row that applies (R167). -/
def disposeFrame (s : State) (f : RawFrame) : State :=
  if rawSource f = s.lp.ownAddress then s
  else if rawDestination f = s.lp.ownAddress then consumeFrame s f
  else if rawDestination f = 63 then broadcastFrame s f
  else passFrame s f

/-- A frame whose last byte has arrived (R166, R187). -/
def arriveFrame (s : State) (f : RawFrame) : State :=
  if goodCheck f then
    let s := noteGood s
    if addressesUnusable f then countHeader s else disposeFrame s f
  else countCheck s

/-- FRAME_ARRIVAL (R166). -/
def execFrameArrival (f : RawFrame) (s : State) : Host.Outcome State Fault Refusal :=
  whenLive s fun s => arriveFrame s f

/-- FORWARD_ONLY_ARRIVAL (R164): whatever its check; a full queue loses it, uncounted. -/
def execForwardOnlyArrival (f : RawFrame) (s : State) : Host.Outcome State Fault Refusal :=
  .next (if s.powered && s.mode == .forwardOnly && decide (s.lp.forward.length < 8) then joinForward s f else s)

/-! ## LOOP OUT (R173) -/

/-- The head of the CONTROL queue, or else of the GENERAL queue, begins to leave. -/
def sendInserted (l : Loop) : Loop :=
  match l.control, l.general with
  | f :: rest, _ => { l with control := rest, sending := some (.inserted f), consecutiveForwards := 0 }
  | [], f :: rest => { l with general := rest, sending := some (.inserted f), consecutiveForwards := 0 }
  | [], [] => l

/-- An inserted frame waits. -/
def insertedWaits (l : Loop) : Bool := !(l.control.isEmpty && l.general.isEmpty)

/-- The choice of the next frame (R173). -/
def chooseFrame (l : Loop) : Loop :=
  match l.forward with
  | f :: rest =>
    if insertedWaits l then
      if l.consecutiveForwards < 4 then
        { l with forward := rest, sending := some (.forwarded f), consecutiveForwards := l.consecutiveForwards + 1 }
      else sendInserted l
    else { l with forward := rest, sending := some (.forwarded f), consecutiveForwards := 0 }
  | [] => sendInserted l

/-- LOOP_OUT_FREE (R173): a frame finished leaving, or one joined a queue while LOOP OUT was idle. -/
def execLoopOutFree (finished : Bool) (s : State) : Host.Outcome State Fault Refusal :=
  .next (if s.powered then
      if finished then s.setLp (chooseFrame { s.lp with sending := none })
      else if s.lp.sending.isNone then s.setLp (chooseFrame s.lp)
      else s
    else s)

/-- SILENCE_TIMER_EXPIRY (R174). -/
def execSilenceTimerExpiry (s : State) : Host.Outcome State Fault Refusal :=
  whenDue s s.lp.silenceAt fun s => s.setLp { s.lp with loopSilent := true, silenceAt := none }

end Sys2Proof.Machine
end

