-- ==== Sys2Proof/Machine/Timers.lean ====
section
/-! DEFINITION. Time: the timers that are due, and what the part does when no command waits (log entries 1, 2 and 7). -/

namespace Sys2Proof.Machine

/-- An event, if a condition holds. -/
def eventIf (b : Bool) (e : Instr) : List Instr := if b then [e] else []

/-- The timers of CU that are due for a quantity (R11, R12, R16, R17). -/
def dueChannel (s : State) (q : Quantity) : List Instr :=
  let r := s.chan q
  [eventIf (r.quality == .good && due r.staleAt s.now) (.stalenessDeadline q),
   eventIf (r.quality == .held && due r.holdAt s.now) (.holdDeadline q),
   eventIf (due r.referenceAt s.now) (.referenceIntervalExpiry q),
   eventIf (due r.referenceRetryAt s.now) (.referenceRetry q),
   eventIf (due (referenceTimeoutAt r) s.now) (.referenceTimeout q)].flatten

/-- The timers of a node's cadence that are due (R18). -/
def dueNode (s : State) (c : CadenceState) : List Instr :=
  [eventIf (due c.repeatAt s.now) (.cadenceRepeatExpiry c.node),
   eventIf (due c.retryAt s.now) (.cadenceRetry c.node)].flatten

/-- The timers of WMU and SSU that are due for a well (R23, R34, R145). -/
def dueWell (s : State) (w : Well) : List Instr :=
  [eventIf (due (disagreeAt (s.well w)) s.now) (.disagreeTimeout w),
   eventIf (due (s.well w).balanceAt s.now) (.balanceExpiry w),
   eventIf (due (s.ssu.recoveryAt.get w) s.now) (.recoveryTimerExpiry w),
   eventIf (due (s.ssu.statusWait.get w) s.now) (.statusWaitEnd w)].flatten

/-- The end of the wait a pump is in (R75, R77, R80). -/
def dueWait (s : State) (p : Pump) : List Instr :=
  if due (s.pump p).waitEnd s.now then
    match (s.pump p).state with
    | .backoff => [.backoffEnd p]
    | .resting => [.restEnd p]
    | .unavailable .skipped => [.skipEnd p]
    | _ => []
  else []

/-- The timers of DC that are due for a pump. -/
def duePump (s : State) (p : Pump) : List Instr :=
  let r := s.pump p
  [eventIf (due r.statusAt s.now) (.statusDeadlineExpiry p),
   eventIf (due r.startAt s.now) (.startDeadlineExpiry p),
   eventIf (due r.stopAt s.now && !r.stopFailed) (.stopDeadlineExpiry p),
   dueWait s p,
   eventIf (r.stopDeferred && minRunAt s p == some s.now) (.minRunExpiry p),
   eventIf (due (agingAt r) s.now) (.startHistoryAging p),
   eventIf (due r.deadHeadAt s.now) (.deadHeadExpiry p),
   eventIf (due r.runTickAt s.now) (.runSecondsTick p),
   eventIf (due r.retryAt s.now) (.commandRetry p),
   eventIf (due r.refreshAt s.now) (.refreshExpiry p)].flatten

/-- The jam timer of a rake (R115). -/
def dueJam (s : State) (k : Screen) : List Instr :=
  if due (s.screen k).jamAt s.now then
    match (s.screen k).state with
    | .jamReverse => [.reverseEnd k]
    | .jamPause => [.pauseEnd k]
    | _ => []
  else []

/-- The timers of SC that are due for a screen. -/
def dueScreen (s : State) (k : Screen) : List Instr :=
  let r := s.screen k
  [eventIf (due r.leaveAt s.now) (.leaveDeadlineExpiry k),
   eventIf (due r.cycleAt s.now) (.cycleDeadlineExpiry k),
   dueJam s k,
   eventIf (due r.intervalAt s.now) (.intervalTimerExpiry k),
   eventIf (due r.retryAt s.now) (.rakeCommandRetry k),
   eventIf (due r.refreshAt s.now) (.rakeRefreshExpiry k)].flatten

/-- A store write that has taken its time (R181). -/
def dueStore (s : State) : List Instr :=
  match s.mu.commit with
  | .storing _ _ doneAt => eventIf (decide (doneAt ≤ s.now)) .storeWriteComplete
  | _ => []

/-- Every timer that is due, in the model's order (log entry 1). -/
def dueEvents (s : State) : List Instr :=
  [eventIf (due s.mu.clockAt s.now) .clockAdvance,
   eventIf (due s.lp.silenceAt s.now) .silenceTimerExpiry,
   (Quantity.all.map (dueChannel s)).flatten,
   (s.nodes.map (dueNode s)).flatten,
   (Well.all.map (dueWell s)).flatten,
   (Pump.all.map (duePump s)).flatten,
   (Screen.all.map (dueScreen s)).flatten,
   eventIf (due s.hourAt s.now) .hourTimerExpiry,
   eventIf (due s.ssu.holdAt s.now) .holdTimerExpiry,
   eventIf (due s.elr.sendRetryAt s.now) .reportRetry,
   eventIf (due s.elr.reportAt s.now) .reportTimerExpiry,
   eventIf (due s.elr.statusAt s.now) .statusTimerExpiry,
   eventIf (due s.elr.partRetryAt s.now) .statusPartRetry,
   dueStore s].flatten

/-- A millisecond passes: the timers it makes due are raised. -/
def tick (s : State) : State :=
  let s := { s with now := s.now + 1 }
  if s.live then s.raiseAll (dueEvents s) else s

/-- What the part does when no command waits: the next event on its way becomes the waiting command; with none on its way
a powered part counts a millisecond, and one without power rests. -/
def idle (s : State) : State :=
  match s.raised with
  | e :: es => { s with pending := [e], raised := es }
  | [] => if s.powered then tick s else s

end Sys2Proof.Machine
end

