-- ==== Sys2Proof/Machine/Dispatch.lean ====
section
/-! DEFINITION. The dispatch: one arm per command, each one call of its meaning. -/

namespace Sys2Proof.Machine

/-- The effect of a command on everything but the queue of commands. -/
def exec (i : Instr) (s : State) : Host.Outcome State Fault Refusal :=
  match i with
  | .powerOn strap => Sys2Proof.Machine.execPowerOn strap s
  | .forwardOnlyArrival f => Sys2Proof.Machine.execForwardOnlyArrival f s
  | .frameArrival f => Sys2Proof.Machine.execFrameArrival f s
  | .loopOutFree finished => Sys2Proof.Machine.execLoopOutFree finished s
  | .silenceTimerExpiry => Sys2Proof.Machine.execSilenceTimerExpiry s
  | .sampleFrame src payload => Sys2Proof.Machine.execSampleFrame src payload s
  | .edgeFrame src payload => Sys2Proof.Machine.execEdgeFrame src payload s
  | .stalenessDeadline q => Sys2Proof.Machine.execStalenessDeadline q s
  | .holdDeadline q => Sys2Proof.Machine.execHoldDeadline q s
  | .floatContradiction w first second => Sys2Proof.Machine.execFloatContradiction w s first second
  | .surgeNotice w => Sys2Proof.Machine.execSurgeNotice w s
  | .referenceIntervalExpiry q => Sys2Proof.Machine.execReferenceIntervalExpiry q s
  | .referenceRetry q => Sys2Proof.Machine.execReferenceRetry q s
  | .referenceTimeout q => Sys2Proof.Machine.execReferenceTimeout q s
  | .cadenceRepeatExpiry node => Sys2Proof.Machine.execCadenceRepeatExpiry node s
  | .cadenceRetry node => Sys2Proof.Machine.execCadenceRetry node s
  | .stationStateToCu st => Sys2Proof.Machine.execStationStateToCu st s
  | .levelSelection q u first second => Sys2Proof.Machine.execLevelSelection q s u first second
  | .disagreeTimeout w => Sys2Proof.Machine.execDisagreeTimeout w s
  | .pumpFlowNotice p left => Sys2Proof.Machine.execPumpFlowNotice p left s
  | .balanceExpiry w => Sys2Proof.Machine.execBalanceExpiry w s
  | .wellRecordDeliveryDc w d => Sys2Proof.Machine.execWellRecordDeliveryDc w d s
  | .wellRecordDeliverySc w d => Sys2Proof.Machine.execWellRecordDeliverySc w d s
  | .wellRecordDeliveryOa w d => Sys2Proof.Machine.execWellRecordDeliveryOa w d s
  | .wellRecordDeliverySsu w d => Sys2Proof.Machine.execWellRecordDeliverySsu w d s
  | .driveStat src payload => Sys2Proof.Machine.execDriveStat src payload s
  | .startDeadlineExpiry p => Sys2Proof.Machine.execStartDeadlineExpiry p s
  | .stopDeadlineExpiry p => Sys2Proof.Machine.execStopDeadlineExpiry p s
  | .backoffEnd p => Sys2Proof.Machine.execBackoffEnd p s
  | .restEnd p => Sys2Proof.Machine.execRestEnd p s
  | .skipEnd p => Sys2Proof.Machine.execSkipEnd p s
  | .statusDeadlineExpiry p => Sys2Proof.Machine.execStatusDeadlineExpiry p s
  | .minRunExpiry p => Sys2Proof.Machine.execMinRunExpiry p s
  | .startHistoryAging p => Sys2Proof.Machine.execStartHistoryAging p s
  | .refreshExpiry p => Sys2Proof.Machine.execRefreshExpiry p s
  | .commandRetry p => Sys2Proof.Machine.execCommandRetry p s
  | .deadHeadExpiry p => Sys2Proof.Machine.execDeadHeadExpiry p s
  | .runSecondsTick p => Sys2Proof.Machine.execRunSecondsTick p s
  | .pumpGrant p => Sys2Proof.Machine.execPumpGrant p s
  | .pumpShed p => Sys2Proof.Machine.execPumpShed p s
  | .fallbackEntryDc w => Sys2Proof.Machine.execFallbackEntryDc w s
  | .fallbackExitDc w names => Sys2Proof.Machine.execFallbackExitDc w names s
  | .stationStateToDc st => Sys2Proof.Machine.execStationStateToDc st s
  | .wellStateToDc w st => Sys2Proof.Machine.execWellStateToDc w st s
  | .curveSwitchNotice w => Sys2Proof.Machine.execCurveSwitchNotice w s
  | .startRequest r cls => Sys2Proof.Machine.execStartRequest r cls s
  | .requestWithdrawal r => Sys2Proof.Machine.execRequestWithdrawal r s
  | .chargeTransfer r => Sys2Proof.Machine.execChargeTransfer r s
  | .grantReturn r => Sys2Proof.Machine.execGrantReturn r s
  | .chargeRelease r => Sys2Proof.Machine.execChargeRelease r s
  | .externalCharge p convert => Sys2Proof.Machine.execExternalCharge p convert s
  | .stopNotice p => Sys2Proof.Machine.execStopNotice p s
  | .shedDecline r => Sys2Proof.Machine.execShedDecline r s
  | .supplyStat src value => Sys2Proof.Machine.execSupplyStat src value s
  | .fallbackEntrySb w => Sys2Proof.Machine.execFallbackEntrySb w s
  | .fallbackExitSb w names => Sys2Proof.Machine.execFallbackExitSb w names s
  | .upstreamLevelUpdate k u => Sys2Proof.Machine.execUpstreamLevelUpdate k s u
  | .homeOffEdge k at_ => Sys2Proof.Machine.execHomeOffEdge k at_ s
  | .homeOnEdge k at_ => Sys2Proof.Machine.execHomeOnEdge k at_ s
  | .homeQualityNotice k u => Sys2Proof.Machine.execHomeQualityNotice k s u
  | .rakeGrant k => Sys2Proof.Machine.execRakeGrant k s
  | .rakeDriveStat src payload => Sys2Proof.Machine.execRakeDriveStat src payload s
  | .rakeShed k => Sys2Proof.Machine.execRakeShed k s
  | .leaveDeadlineExpiry k => Sys2Proof.Machine.execLeaveDeadlineExpiry k s
  | .cycleDeadlineExpiry k => Sys2Proof.Machine.execCycleDeadlineExpiry k s
  | .reverseEnd k => Sys2Proof.Machine.execReverseEnd k s
  | .pauseEnd k => Sys2Proof.Machine.execPauseEnd k s
  | .intervalTimerExpiry k => Sys2Proof.Machine.execIntervalTimerExpiry k s
  | .hourTimerExpiry => Sys2Proof.Machine.execHourTimerExpiry s
  | .rakeRefreshExpiry k => Sys2Proof.Machine.execRakeRefreshExpiry k s
  | .rakeCommandRetry k => Sys2Proof.Machine.execRakeCommandRetry k s
  | .stationStateToSc st => Sys2Proof.Machine.execStationStateToSc st s
  | .overflowLevelUpdate o u => Sys2Proof.Machine.execOverflowLevelUpdate o u s
  | .wellStateToOa w st => Sys2Proof.Machine.execWellStateToOa w st s
  | .rivUpdateSsu u => Sys2Proof.Machine.execRivUpdateSsu s u
  | .spillStateDelivery o st => Sys2Proof.Machine.execSpillStateDelivery o st s
  | .holdTimerExpiry => Sys2Proof.Machine.execHoldTimerExpiry s
  | .blindedChange k flag => Sys2Proof.Machine.execBlindedChange k flag s
  | .recoveryTimerExpiry w => Sys2Proof.Machine.execRecoveryTimerExpiry w s
  | .statusWaitEnd w => Sys2Proof.Machine.execStatusWaitEnd w s
  | .driveStatusReport p known => Sys2Proof.Machine.execDriveStatusReport p known s
  | .recordSubmission body => Sys2Proof.Machine.execRecordSubmission body s
  | .reportRetry => Sys2Proof.Machine.execReportRetry s
  | .reportAck src payload => Sys2Proof.Machine.execReportAck src payload s
  | .reportTimerExpiry => Sys2Proof.Machine.execReportTimerExpiry s
  | .statusTimerExpiry => Sys2Proof.Machine.execStatusTimerExpiry s
  | .statusPartRetry => Sys2Proof.Machine.execStatusPartRetry s
  | .stationStateToElr st => Sys2Proof.Machine.execStationStateToElr st s
  | .tableWrite h args => Sys2Proof.Machine.execTableWrite h args s
  | .tableRead h args => Sys2Proof.Machine.execTableRead h args s
  | .tableDiscard h args => Sys2Proof.Machine.execTableDiscard h args s
  | .tableCommit h args => Sys2Proof.Machine.execTableCommit h args s
  | .readRecord h args => Sys2Proof.Machine.execReadRecord h args s
  | .invokeGate h args => Sys2Proof.Machine.execInvokeGate h args s
  | .setLockLevel h args => Sys2Proof.Machine.execSetLockLevel h args s
  | .setTime h args => Sys2Proof.Machine.execSetTime h args s
  | .clearCounters h args => Sys2Proof.Machine.execClearCounters h args s
  | .restart h args => Sys2Proof.Machine.execRestart h args s
  | .deferredRestart => Sys2Proof.Machine.execDeferredRestart s
  | .storeWriteComplete => Sys2Proof.Machine.execStoreWriteComplete s
  | .clockAdvance => Sys2Proof.Machine.execClockAdvance s
  | .powerLoss => Sys2Proof.Machine.execPowerLoss s

end Sys2Proof.Machine
end

