-- ==== Sys2Proof/Safety.lean ====
section
/-! DEFINITION. What a safe run is: the part never stops, and its records keep the laws that the chapters state of them. -/

namespace Sys2Proof.Machine

/-- The pages of the held records that are not of class OVERFLOW. -/
def quietPages (rs : List LogRecord) : Nat := pagesOf (rs.filter fun r => r.body.cls != .overflow)

/-- The Event Log keeps its account (R151, R152): the pages used are those of the held records and at most 512, the
classes other than OVERFLOW take at most 480, and the held records carry consecutive sequence numbers, oldest first,
the newest directly below the sequence counter. -/
structure LogLaw (l : EventLog) : Prop where
  pages : pagesOf l.records = l.pagesUsed
  room : l.pagesUsed ≤ 512
  reserve : quietPages l.records ≤ 480
  order : ∀ i r, l.records[i]? = some r → r.sequence + BitVec.ofNat 16 (l.records.length - i) = l.sequence

/-- The Loop Record keeps its ranges (R165): its address, its queues, its turns and its five counts. -/
structure LoopLaw (l : Loop) : Prop where
  address : l.ownAddress ≤ 63
  forward : l.forward.length ≤ 8
  control : l.control.length ≤ 8
  general : l.general.length ≤ 8
  turns : l.consecutiveForwards ≤ 4
  checks : l.checkErrors ≤ 65535
  headers : l.headerErrors ≤ 65535
  overruns : l.overruns ≤ 65535
  drops : l.responseDrops ≤ 65535
  broadcasts : l.broadcastCommands ≤ 65535

/-- An overflow point keeps its account (R123 to R129, R132): a slot stands exactly outside DRY, it has a number but in
TENTATIVE and an end time in CLOSING alone, its accumulator holds less than a litre, and every litre of the slot and of the
unconfirmed spills is one of the cumulative litres. -/
structure SpillLaw (r : PointRecord) : Prop where
  slot : r.slot.isSome ↔ r.spill ≠ .dry
  number : ∀ x, r.slot = some x → (x.number = none ↔ r.spill = .tentative)
  stop : ∀ x, r.slot = some x → (x.stop.isSome ↔ r.spill = .closing)
  accumulator : ∀ x, r.slot = some x → x.accumulator ≤ 1999
  litres : ((r.slot.map (·.volume)).getD 0) + r.unconfirmed ≤ r.cumulative

/-- DC makes no evaluation of a well: it is in FALLBACK, or its level quality is LOST (R50, R52). -/
def noEvaluation (s : State) (w : Well) : Prop := s.ssu.well.get w = .fallback ∨ (s.well w).quality = .lost

/-- No record of the two wells lets DC evaluate a demand. -/
def Quiet (s : State) : Prop := ∀ w, noEvaluation s w

/-- The blocks commands reach (00_scope.md); LP's also stand for the supply of the part. -/
inductive Block where
  | lp | cu | wmu | dc | sb | sc | oa | ssu | elr | mu
  deriving DecidableEq, Repr

/-- The block a command reaches. -/
def blockOf : Instr → Block
  | .powerOn _ | .forwardOnlyArrival _ | .frameArrival _ | .loopOutFree _ | .silenceTimerExpiry | .powerLoss => .lp
  | .sampleFrame _ _ | .edgeFrame _ _ | .stalenessDeadline _ | .holdDeadline _ | .floatContradiction _ _ _ | .surgeNotice _
  | .referenceIntervalExpiry _ | .referenceRetry _ | .referenceTimeout _ | .cadenceRepeatExpiry _ | .cadenceRetry _
  | .stationStateToCu _ => .cu
  | .levelSelection _ _ _ _ | .disagreeTimeout _ | .pumpFlowNotice _ _ | .balanceExpiry _ => .wmu
  | .wellRecordDeliveryDc _ _ | .driveStat _ _ | .startDeadlineExpiry _ | .stopDeadlineExpiry _ | .backoffEnd _
  | .restEnd _ | .skipEnd _ | .statusDeadlineExpiry _ | .minRunExpiry _ | .startHistoryAging _ | .refreshExpiry _
  | .commandRetry _ | .deadHeadExpiry _ | .runSecondsTick _ | .pumpGrant _ | .pumpShed _ | .fallbackEntryDc _
  | .fallbackExitDc _ _ | .stationStateToDc _ | .wellStateToDc _ _ | .curveSwitchNotice _ => .dc
  | .startRequest _ _ | .requestWithdrawal _ | .chargeTransfer _ | .grantReturn _ | .chargeRelease _
  | .externalCharge _ _ | .stopNotice _ | .shedDecline _ | .supplyStat _ _ | .fallbackEntrySb _
  | .fallbackExitSb _ _ => .sb
  | .wellRecordDeliverySc _ _ | .upstreamLevelUpdate _ _ | .homeOffEdge _ _ | .homeOnEdge _ _ | .homeQualityNotice _ _
  | .rakeGrant _ | .rakeDriveStat _ _ | .rakeShed _ | .leaveDeadlineExpiry _ | .cycleDeadlineExpiry _ | .reverseEnd _
  | .pauseEnd _ | .intervalTimerExpiry _ | .hourTimerExpiry | .rakeRefreshExpiry _ | .rakeCommandRetry _
  | .stationStateToSc _ => .sc
  | .wellRecordDeliveryOa _ _ | .overflowLevelUpdate _ _ | .wellStateToOa _ _ => .oa
  | .wellRecordDeliverySsu _ _ | .rivUpdateSsu _ | .spillStateDelivery _ _ | .holdTimerExpiry | .blindedChange _ _
  | .recoveryTimerExpiry _ | .statusWaitEnd _ | .driveStatusReport _ _ => .ssu
  | .recordSubmission _ | .reportRetry | .reportAck _ _ | .reportTimerExpiry | .statusTimerExpiry | .statusPartRetry
  | .stationStateToElr _ => .elr
  | .tableWrite _ _ | .tableRead _ _ | .tableDiscard _ _ | .tableCommit _ _ | .readRecord _ _ | .invokeGate _ _
  | .setLockLevel _ _ | .setTime _ _ | .clearCounters _ _ | .restart _ _ | .deferredRestart | .storeWriteComplete
  | .clockAdvance => .mu

/-- A request is answered (R171, R176): the response, carrying the sequence of the request, joins the GENERAL queue, or is
dropped and counted when that is full. -/
def Answered (s t : State) (h : ReqHead) (result : ResultCode) (data : RspData) : Prop :=
  if s.lp.general.length < 8 then
    t.lp.general = s.lp.general ++ [⟨h.source, s.lp.ownAddress, h.frameSeq, .mgmtRsp h.tag result data⟩]
  else t.lp.general = s.lp.general ∧ t.lp.responseDrops = satInc 65535 s.lp.responseDrops

/-- A state with a request answered and nothing else changed (R171, R173, R176): the response, carrying the sequence of the
request, joins the GENERAL queue, where it brings a choice at LOOP OUT if nothing leaves and nothing waits; when that queue is
full it is dropped and counted. -/
def answered (s : State) (h : ReqHead) (result : ResultCode) (data : RspData) : State :=
  if s.lp.general.length < 8 then
    { s with
      lp := { s.lp with
        general := s.lp.general ++ [⟨h.source, s.lp.ownAddress, h.frameSeq, .mgmtRsp h.tag result data⟩] }
      raised := s.raised ++
        if s.lp.sending = none ∧ s.lp.forward = [] ∧ s.lp.control = [] ∧ s.lp.general = [] then [.loopOutFree false]
        else [] }
  else { s with lp := { s.lp with responseDrops := satInc 65535 s.lp.responseDrops } }

/-- The source of a request may manage, and its effective authority reaches the lock level (R175, R176). -/
def Permitted (s : State) (h : ReqHead) : Prop :=
  ∃ e, sourceEntry s h.source = some e ∧ e.manage = true ∧ max h.authority e.ceiling ≤ s.mu.lockLevel

/-! ## Pumps -/

/-- The control owners as R45 has them: owner FLOAT with state FLOAT and no other, MANUAL in STARTING and RUNNING alone, a
manual source with owner MANUAL alone. -/
structure OwnerLaw (r : PumpRecord) : Prop where
  float : r.owner = .float ↔ r.state = .float
  manual : r.owner = .manual → r.state = .starting ∨ r.state = .running
  source : r.manualSource.isSome → r.owner = .manual

/-- The part commands a pump of the well to run, or has asked to (R55). -/
def claims (s : State) (w : Well) (p : Pump) : Bool :=
  s.wellOf p == some w
    && ((s.pump p).state == .startWait || (s.pump p).state == .starting || (s.pump p).state == .running)

/-- The law of R55, with what keeps it: the owners (R45), and the Rotation Lists, each holding the pumps of its well once
(R48). The pumps commanded to run and those in START_WAIT are together at most max running. -/
structure RunningLaw (s : State) : Prop where
  owners : ∀ p, OwnerLaw (s.pump p)
  lists : ∀ w p, p ∈ s.duty.rotation.get w ↔ s.wellOf p = some w
  once : ∀ w, (s.duty.rotation.get w).Nodup
  limit : ∀ w, (Pump.all.filter (claims s w)).length ≤ (s.setup.maxRunning.get w).toNat

/-- How many AUTO eligible pumps of a list are in one of some states. -/
def competing (s : State) (w : Well) (sts : List PumpState) (ps : List Pump) : Nat :=
  (ps.filter fun p => (s.pump p).owner == .auto && eligible s w p && sts.contains (s.pump p).state).length

/-- The AUTO places of a demand (R56, step 1). -/
def places (s : State) (w : Well) (demand : Nat) : Nat :=
  demand - ((s.duty.rotation.get w).filter fun p => (s.pump p).owner == .manual
    && ((s.pump p).state == .starting || (s.pump p).state == .running)).length

/-- A pump of the well is selected for a demand, by the pumps ahead of it in rotation order (R56): running ones first, then
waiting ones, then idle ones, while places are left and max running allows one more. -/
def Chosen (s : State) (w : Well) (demand : Nat) (p : Pump) : Prop :=
  ∃ ahead behind room, s.duty.rotation.get w = ahead ++ p :: behind
    ∧ (s.pump p).owner = .auto ∧ eligible s w p = true
    ∧ room = min (places s w demand - competing s w [.starting, .running] (s.duty.rotation.get w))
        ((s.setup.maxRunning.get w).toNat - commandedRunning s w)
    ∧ ((s.pump p).state = .starting ∨ (s.pump p).state = .running →
        competing s w [.starting, .running] ahead < places s w demand)
    ∧ ((s.pump p).state = .startWait → competing s w [.startWait] ahead < room)
    ∧ ((s.pump p).state = .off →
        competing s w [.startWait] (s.duty.rotation.get w) + competing s w [.off] ahead < room)

/-- The reasons to refuse another node's DRIVE_CMD to a pump, in order, each with when it applies: the checks of R63 on its
source, and for a RUN or REVERSE the reasons of R64, the last by R96. -/
def refusalRows (s : State) (p : Pump) (src : Addr) (claimed : Nat) (act : DriveAction) : List (RefusalReason × Prop) :=
  let run := act = .run ∨ act = .reverse
  let fresh := run ∧ (s.pump p).state ≠ .starting ∧ (s.pump p).state ≠ .running
  let entry := s.budget.pumps.get p
  [(.noPermission, ∀ e, sourceEntry s src = some e → e.manualDrive = false),
    (.authority, ∃ e, sourceEntry s src = some e ∧ s.setup.manualLevel < ((max claimed e.ceiling : Nat) : Int)),
    (.fallback, run ∧ ∃ w, s.wellOf p = some w ∧ s.ssu.well.get w = .fallback),
    (.locked, run ∧ ((s.pump p).state = .lockedOut ∨ (∃ why, (s.pump p).state = .unavailable why)
      ∨ (s.pump p).disabled = true)),
    (.dry, run ∧ (s.pump p).interlock = true),
    (.starts, fresh ∧ (s.setup.startsPerHour.get p).toNat ≤ (s.pump p).history.length),
    (.limit, fresh ∧ ∃ w, s.wellOf p = some w ∧ (s.setup.maxRunning.get w).toNat ≤ commandedRunning s w),
    (.budget, fresh ∧ ((∃ q ∈ s.budget.queue, q.requester ≠ .pump p) ∨ entry.kind = .start
      ∨ capacity s < committed s.budget - entry.weight + startWeight s (.pump p)))]

/-- The command is refused for a reason, the first that applies. -/
def RefusedFor (s : State) (p : Pump) (src : Addr) (claimed : Nat) (act : DriveAction) (why : RefusalReason) : Prop :=
  ∃ before applies after, refusalRows s p src claimed act = before ++ (why, applies) :: after
    ∧ applies ∧ ∀ row ∈ before, ¬ row.2

/-- No reason to refuse the command applies. -/
def Unrefused (s : State) (p : Pump) (src : Addr) (claimed : Nat) (act : DriveAction) : Prop :=
  ∀ row ∈ refusalRows s p src claimed act, ¬ row.2

/-- Nothing that would run a drive waits to leave: no RUN or REVERSE for it in the CONTROL queue or the forward queue (R54,
R172). -/
def NoRunWaits (t : State) (drive : Addr) : Prop :=
  (∀ f ∈ t.lp.control, outIsRunFor drive f = false) ∧ ∀ f ∈ t.lp.forward, rawIsRunFor drive f = false

/-- What a failed attempt, the `n`-th, leaves of a pump (R73 to R76, R78): a STOP offered; below the attempt limit the backoff
with the wait drawn, and at the limit the policy, the record of which names the cause. -/
def AttemptFailed (s t : State) (p : Pump) (n : Nat) (cause : TripCause) : Prop :=
  let g := (backoffStep s.duty.backoff).toNat
  let wait := ((s.setup.minRest.get p).toNat + g % 2 ^ (min n 4) * s.setup.slotTime.toNat) * 1000
  (s.lp.control.length < 8 →
    (⟨driveOf s p, s.lp.ownAddress, s.lp.ownSequence, .driveCmd .stop 100 (s.pump p).count⟩ : OutFrame) ∈ t.lp.control)
  ∧ (t.pump p).owner = .auto ∧ (t.pump p).startAt = none ∧ (t.pump p).runStart = none
  ∧ (n < (s.setup.attemptLimit.get p).toNat → (t.pump p).state = .backoff ∧ (t.pump p).attempts = n
      ∧ t.duty.backoff = backoffStep s.duty.backoff ∧ (t.pump p).waitEnd = some (s.now + wait))
  ∧ ((s.setup.attemptLimit.get p).toNat ≤ n →
    (s.setup.policy.get p = .name .lockout → (t.pump p).state = .lockedOut ∧ (t.pump p).lockout = true
      ∧ (t.pump p).attempts = n ∧ .recordSubmission (.pumpLockout p cause) ∈ t.raised)
    ∧ (s.setup.policy.get p = .name .skip → (t.pump p).state = .unavailable .skipped ∧ (t.pump p).attempts = n
      ∧ (t.pump p).waitEnd = some (s.now + (s.setup.skipTime.get p).toNat * 60000)
      ∧ .recordSubmission (.pumpFault p n cause) ∈ t.raised)
    ∧ (s.setup.policy.get p = .name .persist → (t.pump p).state = .backoff ∧ (t.pump p).attempts = 0
      ∧ t.duty.backoff = backoffStep s.duty.backoff ∧ (t.pump p).waitEnd = some (s.now + wait)
      ∧ .recordSubmission (.pumpFault p n cause) ∈ t.raised))

/-- The pump counts as running for the pumped volume (R32): by its drive's last report, in UNAVAILABLE(LOCAL) also while it is
charged as external load, and in UNAVAILABLE(NO_STATUS) when it was running as it fell silent. -/
def CountsRunning (r : PumpRecord) : Prop :=
  r.state ≠ .unavailable .notFitted ∧
    if r.state = .unavailable .noStatus then r.silentRunning = true
    else ∃ d, r.lastReport = some d ∧ (d.state = .running ∨ d.state = .float ∧ d.floatRunning = true
      ∨ d.state = .localHand ∧ d.floatRunning = true ∧ r.state = .unavailable .localHand ∧ r.charge = .external)

/-- The level conditions of a well in FALLBACK (R145), on a delivered level: it is GOOD, the level-volume table is not EMPTY,
and neither is the PUMP_CURVES bank that the well's pumps use. -/
def LevelMet (s : State) (w : Well) (quality : LevelQuality) (level : Option Int) : Prop :=
  quality = .good ∧ level.isSome ∧ (s.tables.levelVolume.get w).isEmpty = false
    ∧ (s.tables.pumpCurves.isEmpty = false ∨ curvesScheduled s = true ∧ (s.well w).pendingCurves = false)

/-- A storm condition holds on the records as they stand (R139). -/
def StormFound (s : State) : Prop :=
  s.ssu.tideLock = true ∨ s.ssu.forced = true ∨ (∃ o, s.ssu.spillSeen.get o ≠ .dry)
    ∨ (∃ w level, (s.well w).quality ≠ .lost ∧ (s.well w).level = some level ∧ s.setup.stormLevel.get w ≤ level)
    ∨ ∃ w, s.setup.stormInflow.get w ≤ ((s.well w).smoothedInflow : Int)

/-! ## The Start Budget -/

/-- A list takes alternately one of a first list and one of a second for as long as both last, and then the rest of the longer
in order (R98). -/
def Alternates {α : Type} (l first second : List α) : Prop :=
  let m := min first.length second.length
  (∀ k, k < m → l[2 * k]? = first[k]? ∧ l[2 * k + 1]? = second[k]?)
    ∧ l.drop (2 * m) = first.drop m ++ second.drop m

/-- The AUTO pumps of a well in a state that a sweep may shed, their entry of the kind that state has, from the last in the
Rotation List towards the head (R98). -/
def shedPumps (s : State) (st : PumpState) (kind : ChargeKind) (w : Well) : List Pump :=
  (s.duty.rotation.get w).reverse.filter fun p => decide ((s.pump p).owner = .auto ∧ (s.pump p).state = st
    ∧ (s.budget.pumps.get p).kind = kind ∧ (s.budget.pumps.get p).releasing = false)

/-- A list is that of a sweep's candidates, in order (R98): the rakes in a cycle or a jam, 3 before 2 before 1; the unconfirmed
starts; the running pumps; the pumps of the two wells in turn, well B first. -/
def ShedOrder (s : State) (l : List Requester) : Prop :=
  ∃ starts runs : List Pump,
    l = (([Screen.s3, .s2, .s1].filter fun k => decide (
          ((s.screen k).state = .cycling ∨ (s.screen k).state = .jamReverse ∨ (s.screen k).state = .jamPause)
          ∧ ((s.budget.rakes.get k).kind = .start ∨ (s.budget.rakes.get k).kind = .running)
          ∧ (s.budget.rakes.get k).releasing = false)).map .rake)
        ++ starts.map .pump ++ runs.map .pump
      ∧ Alternates starts (shedPumps s .starting .start .b) (shedPumps s .starting .start .a)
      ∧ Alternates runs (shedPumps s .running .running .b) (shedPumps s .running .running .a)

/-! ## Channels -/

/-- The event delivers an update of a quantity to its consumer (R5). -/
def Delivers (q : Quantity) (u : ChannelUpdate) (e : Instr) : Prop :=
  (∃ a b, quantityWell q ≠ none ∧ e = .levelSelection q u a b) ∨ q = .riv ∧ e = .rivUpdateSsu u
    ∨ (∃ k, q = upstreamOf k ∧ e = .upstreamLevelUpdate k u) ∨ (∃ k, q = homeOf k ∧ e = .homeQualityNotice k u)
    ∨ ∃ o, q = pointQuantity o ∧ e = .overflowLevelUpdate o u

/-! ## Tables -/

/-- A bank has the entries that its table has (R177). -/
def FullContents : TableContents → Prop
  | .sampleMap t => t.length = 24
  | .levelVolume t => t.volumes.length = 33
  | .pumpCurves t => t.length = 54
  | .weir t => t.flows.length = 34
  | .stationSetup _ => True
  | .gates t => t.length = 32
  | .sources t => t.length = 16

/-- The contents of a table's inactive bank. -/
def inactiveContents (t : Tables) : TableId → TableContents
  | .sampleMap => .sampleMap t.sampleMap.inactive
  | .levelVolume w => .levelVolume (t.levelVolume.get w).inactive
  | .pumpCurves => .pumpCurves t.pumpCurves.inactive
  | .weir => .weir t.weir.inactive
  | .stationSetup => .stationSetup t.setup.inactive
  | .gates => .gates t.gates.inactive
  | .sources => .sources t.sources.inactive

/-- Both banks of every table are full, and so is every copy in the store. -/
structure TablesLaw (s : State) : Prop where
  active : ∀ id, FullContents (activeContents s.tables id)
  inactive : ∀ id, FullContents (inactiveContents s.tables id)
  first : ∀ id c, (storePair s.store id).first = some c → FullContents c.contents
  second : ∀ id c, (storePair s.store id).second = some c → FullContents c.contents

/-- The laws of a safe state: the log, the loop, the overflow points, the pumps, the tables, and the backoff generator, which
is never 0 (R74). -/
structure Safe (s : State) : Prop where
  log : LogLaw s.elr
  loop : LoopLaw s.lp
  points : ∀ o, SpillLaw (s.point o)
  running : RunningLaw s
  tables : TablesLaw s
  backoff : s.duty.backoff ≠ 0

/-- How many of `count` entries from index `start` on lie within a section (R178, R179). -/
def entriesInside (id : TableId) (sect : Section) (dir : Direction) (start count : Nat) : Nat :=
  if start < sectionLength id sect then
    min count (match dir with
      | .up => sectionLength id sect - start
      | .down => start + 1)
  else 0

/-- The index of the k-th entry, counted from 0. -/
def entryIndex (dir : Direction) (start k : Nat) : Nat :=
  match dir with
  | .up => start + k
  | .down => start - k

/-- Two Station Setup values are of one kind: numbers, wells, kinds or policies. -/
def sameKind : SetupValue → SetupValue → Prop
  | .num _, .num _ | .well _, .well _ | .kind _, .kind _ | .policy _, .policy _ => True
  | _, _ => False

/-! ### What a commit asks of an entry (R2, R20, R26, R31, R46, R68, R100, R121, R175, R183) -/

/-- A value lies within a range. -/
def Within (lo hi v : Int) : Prop := lo ≤ v ∧ v ≤ hi

/-- The fields of a Sample Map entry lie in the ranges of R1 and agree with each other (R2). -/
def SampleEntryValid (e : SampleEntry) : Prop :=
  Within 1 62 e.node ∧ e.channel ≤ 15 ∧ Within 5 600 e.holdLimit
    ∧ (∃ q, e.quantity = .name q ∧ e.kind = quantityKind q)
    ∧ (e.kind = .discrete → e.expected = none ∧ e.tolerance = none)
    ∧ (e.kind = .analog → Within (-5000) 15000 e.zero ∧ Within 1 20000 e.span ∧ e.windowLow ≤ e.windowHigh
        ∧ e.windowHigh ≤ 4095 ∧ (e.expected.isSome ↔ e.tolerance.isSome)
        ∧ (∀ x, e.expected = some x → x ≤ 4095) ∧ (∀ x, e.tolerance = some x → x ≤ 4095))

/-- The entry at a slot of the Sample Map, against those before it: keys ascend and no quantity comes twice (R2). -/
def MapSlotValid (t : SampleMap) (i : Nat) : Prop :=
  ∀ e, t[i]? = some (some e) → SampleEntryValid e
    ∧ ∀ j x, j < i → t[j]? = some (some x) →
      (x.node < e.node ∨ x.node = e.node ∧ x.channel < e.channel) ∧ x.quantity ≠ e.quantity

/-- A flow of a table of curves of `n` flows each, falling or rising along the curve (R31, R121). -/
def FlowValid (t : List Nat) (n top : Nat) (falls : Bool) (i : Nat) : Prop :=
  ∀ v, t[i]? = some v → v ≤ top
    ∧ ∀ u, i % n ≠ 0 → t[i - 1]? = some u → if falls then v ≤ u else u ≤ v

/-- A slot of SOURCES (R175); slot 15 also stands for the condition that some source can commit again. -/
def SourceSlotValid (t : Sources) (i : Nat) : Prop :=
  (∀ e, t[i]? = some (some e) → Within 1 62 e.address ∧ e.ceiling ≤ 3
      ∧ ∀ j x, j < i → t[j]? = some (some x) → x.address ≠ e.address)
    ∧ (i = 15 → ∃ e, some e ∈ t ∧ e.ceiling = 0 ∧ e.manage = true)

/-- The target is one that the action takes (R184). -/
def TargetTaken : GateAction → GateTarget → Prop
  | .pumpEnable, g | .pumpDisable, g | .pumpClear, g | .pumpRelease, g => ∃ p, g = .pump p
  | .rakeRun, g | .rakeEnable, g | .rakeDisable, g | .screenClear, g => ∃ k, g = .screen k
  | .channelClear, g | .refCheck, g => ∃ q, g = .quantity q
  | .rotate, g => ∃ w, g = .well w
  | .forceStorm, g | .allowDry, g => g = .none

/-- An entry of GATES (R183). -/
def GateValid (t : Gates) (i : Nat) : Prop :=
  ∀ g, t[i]? = some (some g) → (∃ a, g.action = .name a ∧ TargetTaken a g.target) ∧ g.authority ≤ 3
    ∧ (∃ b, g.enabled = .name b)
    ∧ ∀ x, g.precondition = some x → (∃ q, x.quantity = .name q) ∧ (∃ c, x.comparison = .name c)
      ∧ Within (-5000) 15000 x.constant

/-- A Station Setup value is a name of its list, or lies within its range. -/
def SetupValueValid (t : Setup) (key : SetupKey) : Prop :=
  match setupGet t key with
  | .num v => ∃ lo hi, key.range = some (lo, hi) ∧ Within lo hi v
  | .well c => ∃ x, c = .name x
  | .kind c => ∃ x, c = .name x
  | .policy c => ∃ x, c = .name x

/-- The conditions between two values of the Station Setup (R20, R46, R100), at the later of the two in table order (R180). -/
def SetupPairValid (t : Setup) : SetupKey → Prop
  | .lowFloat w => t.lowFloat.get w < t.highFloat.get w
  | .well p => ∀ w, t.wellOf p = some w →
      ((Pump.all.filter fun q => decide (q.index < p.index ∧ t.wellOf q = some w)).length < 4)
  | .drive p => ∀ q, q.index < p.index → (t.wellOf p).isSome → (t.wellOf q).isSome → t.drive.get q ≠ t.drive.get p
  | .runWeight p => t.runWeight.get p ≤ t.startWeight.get p
  | .startLevels w n => 1 < n → (t.startLevels.get w).get (n - 1) < (t.startLevels.get w).get n
  | .stopLevels w n => (1 < n → (t.stopLevels.get w).get (n - 1) < (t.stopLevels.get w).get n)
      ∧ (t.stopLevels.get w).get n < (t.startLevels.get w).get n
  | .rakeDrive k => (∀ j, j.index < k.index → t.rakeDrive.get j ≠ t.rakeDrive.get k)
      ∧ (∀ p, (t.wellOf p).isSome → t.drive.get p ≠ t.rakeDrive.get k) ∧ t.rakeDrive.get k ≠ t.supplyMonitor
  | .rakeRunWeight k => t.rakeRunWeight.get k ≤ t.rakeStartWeight.get k
  | .stopDiff k => t.stopDiff.get k < t.rakeStartDiff.get k
  | .criticalDiff k => t.rakeStartDiff.get k ≤ t.criticalDiff.get k
  | .blindingDiff k => t.criticalDiff.get k ≤ t.blindingDiff.get k
  | _ => True

/-- The entry of a table's inactive bank at an index of a section breaks no condition of its commit. -/
def EntryValid (t : Tables) (id : TableId) (sect : Section) (i : Nat) : Prop :=
  match id, sect with
  | .sampleMap, .main => MapSlotValid t.sampleMap.inactive i
  | .levelVolume w, .main => ∀ v, (t.levelVolume.get w).inactive.volumes[i]? = some v → v ≤ 4000000
      ∧ ∀ u, i ≠ 0 → (t.levelVolume.get w).inactive.volumes[i - 1]? = some u → u ≤ v
  | .levelVolume w, .header => i = 0 → Within (-5000) 15000 (t.levelVolume.get w).inactive.base
      ∧ Within 10 1000 (t.levelVolume.get w).inactive.stepSize
  | .pumpCurves, .main => FlowValid t.pumpCurves.inactive 9 5000 true i
  | .weir, .main => FlowValid t.weir.inactive.flows 17 20000 false i
  | .weir, .header => (i = 0 → Within 5 200 (t.weir.inactive.steps.get .one))
      ∧ (i = 1 → Within 5 200 (t.weir.inactive.steps.get .two))
  | .stationSetup, .main => ∀ key, SetupKey.all[i]? = some key →
      SetupValueValid t.setup.inactive key ∧ SetupPairValid t.setup.inactive key
  | .gates, .main => GateValid t.gates.inactive i
  | .sources, .main => SourceSlotValid t.sources.inactive i
  | .sampleMap, .header | .pumpCurves, .header | .stationSetup, .header | .gates, .header | .sources, .header => True

/-- An index comes before another in the order of validation: the main section first (R180, log entry 27). -/
def EntryBefore (a : Section × Nat) (b : Section × Nat) : Prop :=
  a.1 = b.1 ∧ a.2 < b.2 ∨ a.1 = .main ∧ b.1 = .header

/-! ## Timers -/

/-- A timer is due: its time has come (the rules of the timers, each in its chapter). -/
def timerDue (s : State) : Instr → Prop
  | .clockAdvance => due s.mu.clockAt s.now = true
  | .silenceTimerExpiry => due s.lp.silenceAt s.now = true
  | .stalenessDeadline q => (s.chan q).quality = .good ∧ due (s.chan q).staleAt s.now = true
  | .holdDeadline q => (s.chan q).quality = .held ∧ due (s.chan q).holdAt s.now = true
  | .referenceIntervalExpiry q => due (s.chan q).referenceAt s.now = true
  | .referenceRetry q => due (s.chan q).referenceRetryAt s.now = true
  | .referenceTimeout q => ∃ x, (s.chan q).awaiting = some x ∧ x + 60000 ≤ s.now
  | .cadenceRepeatExpiry n => ∃ c ∈ s.nodes, c.node = n ∧ due c.repeatAt s.now = true
  | .cadenceRetry n => ∃ c ∈ s.nodes, c.node = n ∧ due c.retryAt s.now = true
  | .disagreeTimeout w => ∃ x, (s.well w).episode = .timing x ∧ x + 60000 ≤ s.now
  | .balanceExpiry w => due (s.well w).balanceAt s.now = true
  | .recoveryTimerExpiry w => due (s.ssu.recoveryAt.get w) s.now = true
  | .statusWaitEnd w => due (s.ssu.statusWait.get w) s.now = true
  | .statusDeadlineExpiry p => due (s.pump p).statusAt s.now = true
  | .startDeadlineExpiry p => due (s.pump p).startAt s.now = true
  | .stopDeadlineExpiry p => due (s.pump p).stopAt s.now = true ∧ (s.pump p).stopFailed = false
  | .backoffEnd p => due (s.pump p).waitEnd s.now = true ∧ (s.pump p).state = .backoff
  | .restEnd p => due (s.pump p).waitEnd s.now = true ∧ (s.pump p).state = .resting
  | .skipEnd p => due (s.pump p).waitEnd s.now = true ∧ (s.pump p).state = .unavailable .skipped
  | .minRunExpiry p => (s.pump p).stopDeferred = true
      ∧ ∃ x, (s.pump p).runStart = some x ∧ x + (s.setup.minRun.get p).toNat * 1000 = s.now
  | .startHistoryAging p => ∃ x, (s.pump p).history.head? = some x ∧ x + 3600000 ≤ s.now
  | .deadHeadExpiry p => due (s.pump p).deadHeadAt s.now = true
  | .runSecondsTick p => due (s.pump p).runTickAt s.now = true
  | .commandRetry p => due (s.pump p).retryAt s.now = true
  | .refreshExpiry p => due (s.pump p).refreshAt s.now = true
  | .leaveDeadlineExpiry k => due (s.screen k).leaveAt s.now = true
  | .cycleDeadlineExpiry k => due (s.screen k).cycleAt s.now = true
  | .reverseEnd k => due (s.screen k).jamAt s.now = true ∧ (s.screen k).state = .jamReverse
  | .pauseEnd k => due (s.screen k).jamAt s.now = true ∧ (s.screen k).state = .jamPause
  | .intervalTimerExpiry k => due (s.screen k).intervalAt s.now = true
  | .rakeCommandRetry k => due (s.screen k).retryAt s.now = true
  | .rakeRefreshExpiry k => due (s.screen k).refreshAt s.now = true
  | .hourTimerExpiry => due s.hourAt s.now = true
  | .holdTimerExpiry => due s.ssu.holdAt s.now = true
  | .reportRetry => due s.elr.sendRetryAt s.now = true
  | .reportTimerExpiry => due s.elr.reportAt s.now = true
  | .statusTimerExpiry => due s.elr.statusAt s.now = true
  | .statusPartRetry => due s.elr.partRetryAt s.now = true
  | .storeWriteComplete => ∃ id h d, s.mu.commit = .storing id h d ∧ d ≤ s.now
  | _ => False

/-! ## Gates -/

/-- A channel value compares with a constant as a precondition asks (R184). -/
def Compares : Comparison → Int → Int → Prop
  | .above, v, k => k < v
  | .atOrAbove, v, k => k ≤ v
  | .below, v, k => v < k
  | .atOrBelow, v, k => v ≤ k

/-- A gate's precondition holds: it is absent, or its quantity's channel is GOOD and the value compares (R184). -/
def PreconditionMet (s : State) (pre : Option Precondition) : Prop :=
  ∀ x, pre = some x → ∃ q c v, x.quantity = .name q ∧ x.comparison = .name c ∧ (s.chan q).quality = .good
    ∧ (s.chan q).value = some v ∧ Compares c v x.constant

end Sys2Proof.Machine
end

