-- ==== Sys2Proof/Certificates/Slice0/Obligations.lean ====
section
/-! DEFINITION. The statements about the part, for the provers. The rules named in a docstring are those of spec/ that the
statement formalises, in whole or in part; `s.live` is the part under power in full mode (R164), where its blocks work. -/

open Sys2Proof Sys2Proof.Machine

/-! ## The step and what every step keeps -/

/-- The queue of commands: a step takes the command at the front and is its effect on the state with the rest of the queue. -/
def Obligations.StepRunsFrontCommand : Prop :=
  ∀ (c : Instr) (rest : List Instr) (s : State),
    s.pending = c :: rest → step s = exec c { s with pending := rest }

/-- With no command waiting (the model's choice, log entries 1 and 2): the oldest event on its way becomes the command; with
none on its way a powered part counts a millisecond and raises the timers that this makes due, each by the rule that runs it,
and no other event; a part without power rests. -/
def Obligations.IdleStep : Prop :=
  ∀ s : State, s.pending = [] →
    (∀ e es, s.raised = e :: es → step s = .next { s with pending := [e], raised := es })
    ∧ (s.raised = [] → s.powered = false → step s = .next s)
    ∧ (s.raised = [] → s.powered = true → ∃ t, step s = .next t
        ∧ t = { s with now := s.now + 1, raised := t.raised }
        ∧ t.raised = (if s.live then dueEvents { s with now := s.now + 1 } else [])
        ∧ (s.live = true → ∀ e, e ∈ t.raised ↔ timerDue t e))

/-- No command stops the part, and a command leaves the queue of waiting commands alone. -/
def Obligations.EveryCommandCompletes : Prop :=
  ∀ (c : Instr) (s : State), ∃ t, exec c s = .next t ∧ t.pending = s.pending

/-- R151, R152: every step keeps the Event Log's account. -/
def Obligations.EveryStepKeepsLog : Prop :=
  ∀ s t : State, LogLaw s.elr → step s = .next t → LogLaw t.elr

/-- R165, R74: every step keeps the ranges of the Loop Record (its address, queues, turns and counts), and the backoff
generator never holds 0. -/
def Obligations.EveryStepKeepsLoopAndBackoff : Prop :=
  ∀ s t : State, step s = .next t →
    (LoopLaw s.lp → LoopLaw t.lp) ∧ (s.duty.backoff ≠ 0 → t.duty.backoff ≠ 0)

/-- R45: every step keeps the law of owners. R55: every step keeps the law that the pumps of a well commanded to run, with
those that wait for a grant, are at most its max running; the owners, and Rotation Lists that hold the pumps of their well
once (R48), are part of that law. -/
def Obligations.EveryStepKeepsRunningLimit : Prop :=
  ∀ s t : State, step s = .next t →
    ((∀ p, OwnerLaw (s.pump p)) → ∀ p, OwnerLaw (t.pump p)) ∧ (RunningLaw s → RunningLaw t)

/-- R123 to R129, R132: every step keeps the account of each overflow point. -/
def Obligations.EveryStepKeepsSpillAccount : Prop :=
  ∀ (s t : State) (o : Point), SpillLaw (s.point o) → step s = .next t → SpillLaw (t.point o)

/-- R177: every step keeps the banks of the tables, and the copies in the store, full. -/
def Obligations.EveryStepKeepsTablesFull : Prop :=
  ∀ s t : State, TablesLaw s → step s = .next t → TablesLaw t

/-- Reset meets the laws that every step keeps. -/
def Obligations.ResetMeetsLaws : Prop := Safe State.reset

/-- R181, R182: the active Station Setup changes at a commit, a restart, a loss of power and a power-on alone, and the store
at a completed store write, a loss of power and a power-on alone (a power-on of a powered part is a loss of power first: log
entry 34). -/
def Obligations.SetupAndStoreChangeRarely : Prop :=
  ∀ (c : Instr) (s t : State), exec c s = .next t →
    ((∀ h args, c ≠ .tableCommit h args) → (∀ h args, c ≠ .restart h args) → c ≠ .deferredRestart
        → (∀ strap, c ≠ .powerOn strap) → c ≠ .powerLoss → t.setup = s.setup)
    ∧ (c ≠ .storeWriteComplete → c ≠ .powerLoss → (∀ strap, c ≠ .powerOn strap) → t.store = s.store)

/-- The frame of the commands of the eight blocks that own records of the plant: each answers a next state in which every
record but those named stays. -/
def Obligations.CommandsKeepTheRest : Prop :=
  ∀ (c : Instr) (s : State),
    (blockOf c = .cu → ∃ t, exec c s = .next t ∧ t = { s with
        lp := t.lp, channels := t.channels, nodes := t.nodes, blanking := t.blanking, raised := t.raised })
    ∧ (blockOf c = .wmu → ∃ t, exec c s = .next t ∧ t = { s with
        wells := t.wells, raised := t.raised, tables := t.tables, mu := t.mu, free := t.free })
    ∧ (blockOf c = .dc → ∃ t, exec c s = .next t ∧ t = { s with
        lp := t.lp, pumps := t.pumps, duty := t.duty, raised := t.raised })
    ∧ (blockOf c = .sb → ∃ t, exec c s = .next t ∧ t = { s with budget := t.budget, raised := t.raised })
    ∧ (blockOf c = .sc → ∃ t, exec c s = .next t ∧ t = { s with
        lp := t.lp, screens := t.screens, hourAt := t.hourAt, raised := t.raised })
    ∧ (blockOf c = .oa → ∃ t, exec c s = .next t ∧ t = { s with
        points := t.points, raised := t.raised, tables := t.tables, mu := t.mu, free := t.free })
    ∧ (blockOf c = .ssu → ∃ t, exec c s = .next t ∧ t = { s with ssu := t.ssu, raised := t.raised })
    ∧ (blockOf c = .elr → ∃ t, exec c s = .next t ∧ t = { s with lp := t.lp, elr := t.elr, raised := t.raised })

/-! ## LP -/

/-- R164: in forward-only mode a frame is forwarded whatever it is, or lost when the queue is full. While the blocks do not
work, the commands of the nine blocks other than LP, the arrival of a frame for the blocks and the silence timer change
nothing: that last clause is the model's choice (log entry 7), since such a command cannot come about. -/
def Obligations.ForwardOnlyForwards : Prop :=
  ∀ (f : RawFrame) (c : Instr) (s : State),
    (s.powered = true → s.mode = .forwardOnly →
      (s.lp.forward.length < 8 → ∃ t, exec (.forwardOnlyArrival f) s = .next t
          ∧ t = { s with lp := { s.lp with forward := s.lp.forward ++ [f] }, raised := t.raised }
          ∧ (s.lp.sending = none → s.lp.forward = [] → s.lp.control = [] → s.lp.general = [] →
              t.raised = s.raised ++ [.loopOutFree false]))
      ∧ (8 ≤ s.lp.forward.length → exec (.forwardOnlyArrival f) s = .next s))
    ∧ (s.live = false → blockOf c ≠ .lp ∨ c = .frameArrival f ∨ c = .silenceTimerExpiry → exec c s = .next s)

/-- R164, R165, R182: power brings the part up from the store alone: full mode on a usable strap, and otherwise forward-only
mode. Full mode finds every fitted pump in FLOAT and a fault submitted for each table without a copy that passes; forward-only
mode finds nothing waiting to leave. A loss of power leaves the store, but for the copy of a table being written that the write
overwrites, the copy it keeps standing as it was: the first when it passes and is not the lower of two that pass, and otherwise
the second; nothing waits to leave and nothing is on its way. The model's choices here: the internal counter starts at 0 (log
entry 2), a well's demand is 0 at reset (log entry 6), what a part without power holds beside its store (log entry 34), and the
first copy kept where neither of two generations is the higher (log entry 61). -/
def Obligations.PowerComesAndGoes : Prop :=
  ∀ (strap : BitVec 6) (s : State),
    (s.powered = false →
      ∃ t, exec (.powerOn strap) s = .next t
        ∧ t.powered = true ∧ t.now = 0 ∧ t.lp.ownAddress = strap.toNat ∧ t.lp.forward = [] ∧ t.lp.general = []
        ∧ t.lp.sending = none
        ∧ t.store = s.store ∧ t.tables = loadTables s.store ∧ t.budget = Budget.reset t.setup
        ∧ t.duty = Duty.reset t.setup ∧ t.ssu = Station.reset t.setup ∧ t.points = PerPoint.of PointRecord.reset
        ∧ t.elr.records = [] ∧ t.elr.sequence = 0 ∧ t.mu.clock = 0 ∧ t.mu.timeUnset = true ∧ t.mu.lockLevel = 0
        ∧ (if 1 ≤ strap.toNat ∧ strap.toNat ≤ 62 then
            t.mode = .full ∧ t.lp.silenceAt = some 2000
              ∧ (∀ p w, t.wellOf p = some w → (t.pump p).state = .float ∧ (t.pump p).owner = .float)
              ∧ (∀ id, storeFaulty s.store id = true → .recordSubmission (.tableStoreFault id) ∈ t.raised)
          else t.mode = .forwardOnly ∧ t.lp.control = [] ∧ t.raised = [] ∧ t.lp.silenceAt = none))
    ∧ (s.powered = true →
      ∃ t, exec .powerLoss s = .next t ∧ t.powered = false ∧ t.lp.forward = [] ∧ t.lp.control = [] ∧ t.lp.general = []
        ∧ t.lp.sending = none ∧ t.raised = [] ∧ t.elr.records = []
        ∧ ((∀ id h d, s.mu.commit ≠ .storing id h d) → t.store = s.store)
        ∧ (∀ id h d, s.mu.commit = .storing id h d →
          (∀ other, other ≠ id → storePair t.store other = storePair s.store other)
          ∧ ∀ c, c = storePair s.store id →
            if copyPasses c.first = true ∧ (copyPasses c.second = true →
                higherGeneration (generationOf c.second) (generationOf c.first) = false) then
              (storePair t.store id).first = c.first
            else (storePair t.store id).second = c.second))

/-- R166 to R170, R174, R176, R187, R188: a frame with a bad check is counted and goes no further, and so do one with unusable
addresses, one of the part's own and a broadcast DRIVE_CMD. A good frame restarts the silence timer and steps the generator.
One of another node is handed to the block of its kind; for another node it joins the forward queue or is lost and counted
there, and for the part itself it is consumed: a management request and an acknowledgement become events of their own. A
DRIVE_CMD for a fitted pump's drive that has not its form is held back and counted; the policing of one that has is stated
below. -/
def Obligations.ArrivalIsDisposed : Prop :=
  ∀ (f : RawFrame) (s g : State), s.live = true →
    g = { s with
      duty := { s.duty with backoff := backoffStep s.duty.backoff }
      lp := { s.lp with silenceAt := some (s.now + 2000), loopSilent := false } } →
    (goodCheck f = false → exec (.frameArrival f) s = .next { s with
        lp := { s.lp with checkErrors := satInc 65535 s.lp.checkErrors } })
    ∧ (goodCheck f = true → addressesUnusable f = true → exec (.frameArrival f) s = .next { g with
        lp := { g.lp with headerErrors := satInc 65535 s.lp.headerErrors } })
    ∧ (goodCheck f = true → addressesUnusable f = false →
      (rawSource f = s.lp.ownAddress → exec (.frameArrival f) s = .next g)
      ∧ (rawSource f ≠ s.lp.ownAddress →
        (s.lp.ownAddress ≠ 63 → rawDestination f = 63 → frameKind f.kind = .driveCmd →
          exec (.frameArrival f) s = .next { g with
            lp := { g.lp with broadcastCommands := satInc 65535 s.lp.broadcastCommands } })
        ∧ (frameKind f.kind ≠ .driveCmd → ∃ t, exec (.frameArrival f) s = .next t
          ∧ (frameKind f.kind = .sample → .sampleFrame (rawSource f) f.payload ∈ t.raised)
          ∧ (frameKind f.kind = .edge → .edgeFrame (rawSource f) f.payload ∈ t.raised)
          ∧ (frameKind f.kind = .supplyStat → .supplyStat (rawSource f) (Config.supplyField f.payload) ∈ t.raised)
          ∧ (frameKind f.kind = .driveStat → (pumpAtDrive s (rawSource f)).isSome →
              .driveStat (rawSource f) f.payload ∈ t.raised)
          ∧ (frameKind f.kind = .driveStat → (screenAtDrive s (rawSource f)).isSome →
              .rakeDriveStat (rawSource f) f.payload ∈ t.raised)
          ∧ (rawDestination f ≠ s.lp.ownAddress → t = { g with
              lp := { g.lp with
                forward := if s.lp.forward.length < 8 then s.lp.forward ++ [f] else s.lp.forward
                overruns := if s.lp.forward.length < 8 then s.lp.overruns else satInc 65535 s.lp.overruns }
              raised := t.raised })
          ∧ (rawDestination f = s.lp.ownAddress → t = { g with raised := t.raised }))
        ∧ (rawDestination f = s.lp.ownAddress →
          (∀ op tag args, frameKind f.kind = .mgmtReq → f.payload = op :: tag :: args →
            exec (.frameArrival f) s = .next { g with raised := s.raised ++
              [requestCommand ⟨rawSource f, rawAuthority f, rawSequence f, tag⟩ op args] })
          ∧ (frameKind f.kind = .mgmtReq → f.payload.length < 2 → exec (.frameArrival f) s = .next g)
          ∧ (frameKind f.kind = .reportAck → exec (.frameArrival f) s = .next { g with
              raised := s.raised ++ [.reportAck (rawSource f) f.payload] })
          ∧ (frameKind f.kind = .driveCmd → pumpAtDrive s (rawDestination f) = none →
              exec (.frameArrival f) s = .next g))
        ∧ (rawDestination f ≠ s.lp.ownAddress → rawDestination f ≠ 63 → frameKind f.kind = .driveCmd →
          (pumpAtDrive s (rawDestination f) = none → ∃ t, exec (.frameArrival f) s = .next t ∧ t = { g with
              lp := { g.lp with
                forward := if s.lp.forward.length < 8 then s.lp.forward ++ [f] else s.lp.forward
                overruns := if s.lp.forward.length < 8 then s.lp.overruns else satInc 65535 s.lp.overruns }
              raised := t.raised })
          ∧ ((pumpAtDrive s (rawDestination f)).isSome → driveCommandOf f.payload = none →
              exec (.frameArrival f) s = .next { g with
                lp := { g.lp with headerErrors := satInc 65535 s.lp.headerErrors } }))))

/-- R67: a DRIVE_CMD for a fitted pump that policing refuses is not forwarded; a REFUSAL frame that names the drive, the action
and the reason is offered to the source and dropped when the CONTROL queue is full; the MANUAL record is submitted all the
same; the Pump Records and the account of SB stand. The reason is the first that applies of the checks of R63, a source without
an entry or without MANUAL_DRIVE and an effective authority above the manual level, and, for a RUN or REVERSE, of the rows of
R64, the last by R96. Premise: the pump is in FLOAT only while its well is in FALLBACK (R44); the moments at an exit when it is
not so yet are stated below, as the model's choice (log entry 64). -/
def Obligations.RefusedDriveDoesNotPass : Prop :=
  ∀ (f : RawFrame) (p : Pump) (act : DriveAction) (speed : Nat) (why : RefusalReason) (s : State),
    s.live = true → goodCheck f = true → addressesUnusable f = false → rawSource f ≠ s.lp.ownAddress →
    rawDestination f ≠ 63 → frameKind f.kind = .driveCmd → pumpAtDrive s (rawDestination f) = some p →
    driveCommandOf f.payload = some (act, speed) → ((s.pump p).state = .float → inFallback s p = true) →
    RefusedFor s p (rawSource f) (rawAuthority f) act why →
    ∃ t, exec (.frameArrival f) s = .next t
      ∧ t.lp.forward = s.lp.forward ∧ t.pumps = s.pumps ∧ t.budget = s.budget
      ∧ .recordSubmission (.manual (rawSource f) p act why) ∈ t.raised
      ∧ t.lp.control = (if s.lp.control.length < 8 then
          s.lp.control ++ [⟨rawSource f, s.lp.ownAddress, rawSequence f, .refusal (driveOf s p) act why⟩]
        else s.lp.control)
      ∧ (sourceEntry s (rawSource f) = none → why = .noPermission)

/-- R63 to R66, R96: a manual command that policing does not refuse is forwarded: its source has an entry with MANUAL_DRIVE,
the effective authority is at most the manual level, and for a RUN or REVERSE no reason of R64 applies. A RUN or REVERSE makes
the pump MANUAL, with the source, action and speed of the frame; a pump that neither starts nor runs is charged at once and
enters STARTING, where it waited its request being gone. A STOP or FLOAT sends a starting or running pump to STOPPING under
AUTO without a command of DC's own, takes a waiting one's request back, and leaves any other as it stands. The model's choice
(log entry 64): a RUN or REVERSE for a pump still in FLOAT does not pass, also where SSU has taken its well out of FALLBACK and
DC has not taken the exit notice yet; it is refused with FALLBACK as any refused command is. -/
def Obligations.ManualCommandsPass : Prop :=
  ∀ (f : RawFrame) (p : Pump) (act : DriveAction) (speed v : Nat) (e : SourceEntry) (s : State),
    s.live = true → goodCheck f = true → addressesUnusable f = false → rawSource f ≠ s.lp.ownAddress →
    rawDestination f ≠ s.lp.ownAddress → rawDestination f ≠ 63 → frameKind f.kind = .driveCmd →
    pumpAtDrive s (rawDestination f) = some p → driveCommandOf f.payload = some (act, speed) →
    sourceEntry s (rawSource f) = some e → e.manualDrive = true →
    ((max (rawAuthority f) e.ceiling : Nat) : Int) ≤ s.setup.manualLevel → v = max 30 (min 100 speed) →
    (act = .run ∨ act = .reverse → (s.pump p).state ≠ .float →
      Unrefused s p (rawSource f) (rawAuthority f) act →
      ∃ t, exec (.frameArrival f) s = .next t
        ∧ t.lp.forward = (if s.lp.forward.length < 8 then s.lp.forward ++ [f] else s.lp.forward)
        ∧ (t.pump p).owner = .manual ∧ (t.pump p).manualSource = some (rawSource f) ∧ (t.pump p).manual = some (act, v)
        ∧ (t.pump p).applied = (if s.setup.isVariable p then v else (s.pump p).applied)
        ∧ if (s.pump p).state = .starting ∨ (s.pump p).state = .running then
            (t.pump p).state = (s.pump p).state ∧ (t.pump p).charge = (s.pump p).charge ∧ (t.pump p).stopDeferred = false
              ∧ (t.pump p).history = (s.pump p).history ∧ (t.pump p).startAt = (s.pump p).startAt ∧ t.budget = s.budget
          else (t.pump p).state = .starting ∧ (t.pump p).charge = .start ∧ (t.pump p).waitEnd = none
            ∧ (t.pump p).stopAt = none ∧ (t.pump p).startAt = some (s.now + (s.setup.startConfirm.get p).toNat * 1000)
            ∧ (t.pump p).history = appendStart (s.pump p).history s.now
            ∧ t.budget = { s.budget with
                pumps := s.budget.pumps.set p ⟨.start, startWeight s (.pump p), false⟩, queue := [] })
    ∧ (act = .stop ∨ act = .float → ∃ t, exec (.frameArrival f) s = .next t
      ∧ t.lp.forward = (if s.lp.forward.length < 8 then s.lp.forward ++ [f] else s.lp.forward)
      ∧ ((s.pump p).state = .starting ∨ (s.pump p).state = .running →
          (t.pump p).state = .stopping ∧ (t.pump p).owner = .auto ∧ (t.pump p).stopAt = some (s.now + 30000)
          ∧ (t.pump p).attempts = (s.pump p).attempts ∧ (t.pump p).count = (s.pump p).count
          ∧ ((s.pump p).charge = .start → (t.pump p).charge = .none ∧ .grantReturn (.pump p) ∈ t.raised)
          ∧ ((s.pump p).charge = .running → (t.pump p).charge = .running ∧ .stopNotice p ∈ t.raised))
      ∧ ((s.pump p).state = .startWait → .requestWithdrawal (.pump p) ∈ t.raised
          ∧ ((s.pump p).lockout = true → (t.pump p).state = .lockedOut)
          ∧ ((s.pump p).lockout = false → (s.pump p).disabled = true → (t.pump p).state = .unavailable .disabled)
          ∧ ((s.pump p).lockout = false → (s.pump p).disabled = false →
              (t.pump p).state = .off ∨ (t.pump p).state = .startWait)
          ∧ ((s.pump p).lockout = false → (s.pump p).disabled = false → Quiet s → (t.pump p).state = .off))
      ∧ ((s.pump p).state ≠ .starting → (s.pump p).state ≠ .running → (s.pump p).state ≠ .startWait →
          t.pumps = s.pumps))
    ∧ (act = .run ∨ act = .reverse → (s.pump p).state = .float → ∃ t, exec (.frameArrival f) s = .next t
      ∧ t.lp.forward = s.lp.forward ∧ t.pumps = s.pumps ∧ t.budget = s.budget
      ∧ .recordSubmission (.manual (rawSource f) p act .fallback) ∈ t.raised
      ∧ t.lp.control = (if s.lp.control.length < 8 then
          s.lp.control ++ [⟨rawSource f, s.lp.ownAddress, rawSequence f, .refusal (driveOf s p) act .fallback⟩]
        else s.lp.control))

/-- R173: LOOP OUT takes the oldest forwarded frame first, the frames of the part itself waiting for up to four of them in a
row; then, or with nothing to forward, the oldest CONTROL frame, and the oldest GENERAL frame when no CONTROL frame waits. A
frame that waits alone in its queue leaves at once, and a frame being sent is finished first. -/
def Obligations.LoopOutChooses : Prop :=
  ∀ (finished : Bool) (s : State), s.powered = true →
    (finished = false → s.lp.sending ≠ none → exec (.loopOutFree finished) s = .next s)
    ∧ (finished = true ∨ s.lp.sending = none →
      (s.lp.forward = [] → s.lp.control = [] → s.lp.general = [] →
        exec (.loopOutFree finished) s = .next { s with lp := { s.lp with sending := none } })
      ∧ (∀ f fs, s.lp.forward = f :: fs → s.lp.control = [] → s.lp.general = [] →
        exec (.loopOutFree finished) s = .next { s with lp := { s.lp with
          forward := fs, sending := some (.forwarded f), consecutiveForwards := 0 } })
      ∧ (∀ f fs, s.lp.forward = f :: fs → s.lp.control ≠ [] ∨ s.lp.general ≠ [] → s.lp.consecutiveForwards < 4 →
        exec (.loopOutFree finished) s = .next { s with lp := { s.lp with
          forward := fs, sending := some (.forwarded f), consecutiveForwards := s.lp.consecutiveForwards + 1 } })
      ∧ (∀ g gs, s.lp.control = g :: gs → s.lp.forward = [] ∨ 4 ≤ s.lp.consecutiveForwards →
        exec (.loopOutFree finished) s = .next { s with lp := { s.lp with
          control := gs, sending := some (.inserted g), consecutiveForwards := 0 } })
      ∧ (∀ g gs, s.lp.control = [] → s.lp.general = g :: gs → s.lp.forward = [] ∨ 4 ≤ s.lp.consecutiveForwards →
        exec (.loopOutFree finished) s = .next { s with lp := { s.lp with
          general := gs, sending := some (.inserted g), consecutiveForwards := 0 } }))

/-- R174: the silence timer runs with 2 s from reset and restarts at each good frame, which clears LOOP_SILENT; a frame whose
check fails does neither; the expiry sets the flag and stops the timer; a stopped timer stays stopped; LP goes on sending. -/
def Obligations.SilenceTimer : Prop :=
  ∀ s : State,
    (∀ strap : BitVec 6, s.powered = false → 1 ≤ strap.toNat → strap.toNat ≤ 62 → ∃ t, exec (.powerOn strap) s = .next t
      ∧ t.lp.silenceAt = some (t.now + 2000) ∧ t.lp.loopSilent = false)
    ∧ (s.live = true →
      (∀ h c, (c = .restart h (some ()) ∧ Permitted s h ∨ c = .deferredRestart ∧ s.mu.restartWaiting = some h) →
        (∀ id x d, s.mu.commit ≠ .storing id x d) → ∃ t, exec c s = .next t
          ∧ t.lp.silenceAt = some (t.now + 2000) ∧ t.lp.loopSilent = false)
      ∧ (∀ f, goodCheck f = true → ∃ t, exec (.frameArrival f) s = .next t
        ∧ t.lp.silenceAt = some (s.now + 2000) ∧ t.lp.loopSilent = false)
      ∧ (∀ f, goodCheck f = false → ∃ t, exec (.frameArrival f) s = .next t
        ∧ t.lp.silenceAt = s.lp.silenceAt ∧ t.lp.loopSilent = s.lp.loopSilent)
      ∧ (∀ d, s.lp.silenceAt = some d → d ≤ s.now →
        exec .silenceTimerExpiry s = .next { s with lp := { s.lp with loopSilent := true, silenceAt := none } })
      ∧ (s.lp.silenceAt = none → exec .silenceTimerExpiry s = .next s)
      ∧ (∃ own lengths turns n counts, imageOf s .loop = .loop own lengths turns n counts s.lp.loopSilent s.lp.silenceAt)
      ∧ (∀ g gs, s.lp.loopSilent = true → s.lp.sending = none → s.lp.forward = g :: gs → ∃ t,
        exec (.loopOutFree false) s = .next t ∧ t.lp.sending ≠ none ∧ t.lp.loopSilent = true))

/-! ## CU -/

/-- R6 to R8, R13, R14, R17: a payload that is not one to six whole readings is discarded, and nothing arrives. The readings of
any other are taken in payload order at one time, as if each came in a frame of its own, and change no channel but those of
their ANALOG entries. What becomes of a reading whose quantity no other of the frame has: a reference reading is not stored and,
when one is awaited, completes the check: it fails beyond the tolerance or with RANGE, which makes the channel SUSPECT, and a
pass ends SUSPECT. Another reading with RANGE or outside its window is rejected, the third in a row making the channel SUSPECT.
One in an open blanking window is not stored. Any other is stored as the level its raw code gives, and a second one in a row
takes a HELD or LOST channel to GOOD. Two stored readings of one channel in one frame are two arrivals: each is delivered with
its own value, and they take a HELD or LOST channel to GOOD. That the hold deadline becomes absent when the channel leaves HELD
is the model's choice (log entry 45), and so are the transducer values that come with an update of a well's quantity (log entry
44). -/
def Obligations.ReadingsAreTaken : Prop :=
  ∀ (src : Addr) (s : State), s.live = true →
    (∀ payload : List Byte, payload.length % 3 ≠ 0 ∨ payload = [] ∨ 18 < payload.length →
      exec (.sampleFrame src payload) s = .next s)
    ∧ (∀ first rest : List Byte, first.length % 3 = 0 → rest.length % 3 = 0 → first ≠ [] → rest ≠ [] →
        first.length + rest.length ≤ 18 →
      ∃ m t, exec (.sampleFrame src first) s = .next m ∧ m.now = s.now ∧ exec (.sampleFrame src rest) m = .next t
        ∧ exec (.sampleFrame src (first ++ rest)) s = .next t)
    ∧ (∀ (payload : List Byte) (readings : List Reading) (q : Quantity), sampleReadings payload = some readings →
        (∀ x ∈ readings, ∀ y, entryAt s src x.channel = some y → y.kind = .analog → y.quantity ≠ .name q) →
      ∃ t, exec (.sampleFrame src payload) s = .next t ∧ t.chan q = s.chan q)
    ∧ (∀ (payload : List Byte) (before between after : List Reading) (x y : Reading) (e : SampleEntry) (q : Quantity)
        (v : Reading → Int),
        sampleReadings payload = some (before ++ x :: between ++ y :: after) →
        (∀ z ∈ before ++ between ++ after, ∀ e', entryAt s src z.channel = some e' → e'.quantity ≠ .name q) →
        entryAt s src x.channel = some e → y.channel = x.channel → e.kind = .analog → e.quantity = .name q →
        (∀ z, z = x ∨ z = y → z.isRef = false ∧ z.range = false ∧ e.windowLow ≤ z.raw ∧ z.raw ≤ e.windowHigh) →
        blanked s q = false →
        v = (fun z => clampInt (-5000) 15000 (e.zero + truncDiv ((z.raw : Int) * e.span) 4095)) →
      ∃ t, exec (.sampleFrame src payload) s = .next t
        ∧ (t.chan q).value = some (v y) ∧ (t.chan q).storedAt = some s.now ∧ (t.chan q).arrivedAt = some s.now
        ∧ (t.chan q).rejects = 0
        ∧ ((s.chan q).quality = .good ∨ (s.chan q).quality = .suspect → (t.chan q).quality = (s.chan q).quality)
        ∧ ((s.chan q).quality = .held ∨ (s.chan q).quality = .lost →
            (t.chan q).quality = .good ∧ (t.chan q).recovery = 0 ∧ (t.chan q).holdAt = none)
        ∧ ((s.chan q).quality = .lost → .recordSubmission (.sensorRecovered q .lost) ∈ t.raised)
        ∧ ∃ one two early middle late, t.raised = early ++ one :: middle ++ two :: late
          ∧ Delivers q ⟨some (v x), if (s.chan q).recovery = 0 then (s.chan q).quality else (t.chan q).quality,
              some s.now, true⟩ one
          ∧ Delivers q ⟨some (v y), (t.chan q).quality, some s.now, true⟩ two)
    ∧ ∀ (payload : List Byte) (before after : List Reading) (rd : Reading) (e : SampleEntry) (q : Quantity)
        (r : ChannelRecord),
        sampleReadings payload = some (before ++ rd :: after) →
        (∀ x ∈ before ++ after, ∀ y, entryAt s src x.channel = some y → y.quantity ≠ .name q) →
        entryAt s src rd.channel = some e → e.kind = .analog → e.quantity = .name q →
        r = { s.chan q with arrivedAt := some s.now, staleAt := some (s.now + staleOf s src) } →
      ∃ t, exec (.sampleFrame src payload) s = .next t
        ∧ (rd.isRef = true → (s.chan q).awaiting = none → t.chan q = r)
        ∧ (∀ x y d, rd.isRef = true → (s.chan q).awaiting = some d → e.expected = some x → e.tolerance = some y →
          if rd.range = true ∨ x + y < rd.raw ∨ rd.raw + y < x then
            if (s.chan q).quality = .suspect then t.chan q = { r with awaiting := none }
            else t.chan q = { r with awaiting := none, quality := .suspect, holdAt := none }
              ∧ .recordSubmission (.sensorSuspect q .reference) ∈ t.raised
          else if (s.chan q).quality = .suspect then
            if (s.chan q).value = none then
              t.chan q = { r with awaiting := none, rejects := 0, recovery := 0, quality := .lost }
            else t.chan q = { r with awaiting := none, rejects := 0, recovery := 0, quality := .good }
              ∧ .recordSubmission (.sensorRecovered q .suspect) ∈ t.raised
          else t.chan q = { r with awaiting := none })
        ∧ (rd.isRef = false → rd.range = true ∨ rd.raw < e.windowLow ∨ e.windowHigh < rd.raw →
          if 3 ≤ satInc 255 (s.chan q).rejects ∧ (s.chan q).quality ≠ .suspect then
            t.chan q = { r with
                rejects := satInc 255 (s.chan q).rejects, recovery := 0, quality := .suspect, holdAt := none }
              ∧ .recordSubmission (.sensorSuspect q .rejects) ∈ t.raised
          else t.chan q = { r with rejects := satInc 255 (s.chan q).rejects, recovery := 0 })
        ∧ (rd.isRef = false → rd.range = false → e.windowLow ≤ rd.raw → rd.raw ≤ e.windowHigh → blanked s q = true →
          t.chan q = { r with rejects := 0 })
        ∧ (rd.isRef = false → rd.range = false → e.windowLow ≤ rd.raw → rd.raw ≤ e.windowHigh → blanked s q = false →
          (t.chan q).value = some (clampInt (-5000) 15000 (e.zero + truncDiv ((rd.raw : Int) * e.span) 4095))
          ∧ t.chan q = { r with
              value := (t.chan q).value, storedAt := some s.now, rejects := 0
              quality := (t.chan q).quality, recovery := (t.chan q).recovery, holdAt := (t.chan q).holdAt }
          ∧ ((s.chan q).quality = .good ∨ (s.chan q).quality = .suspect → (t.chan q).quality = (s.chan q).quality
              ∧ (t.chan q).recovery = (s.chan q).recovery ∧ (t.chan q).holdAt = (s.chan q).holdAt)
          ∧ ((s.chan q).quality = .held ∨ (s.chan q).quality = .lost →
              if (s.chan q).recovery = 0 then (t.chan q).quality = (s.chan q).quality ∧ (t.chan q).recovery = 1
                  ∧ (t.chan q).holdAt = (s.chan q).holdAt
              else (t.chan q).quality = .good ∧ (t.chan q).recovery = 0 ∧ (t.chan q).holdAt = none
                ∧ ((s.chan q).quality = .lost → .recordSubmission (.sensorRecovered q .lost) ∈ t.raised))
          ∧ (quantityWell q = none →
              updateEvent t q ⟨(t.chan q).value, (t.chan q).quality, some s.now, true⟩ ∈ t.raised)
          ∧ (∀ w, quantityWell q = some w → ∃ a b,
              .levelSelection q ⟨(t.chan q).value, (t.chan q).quality, some s.now, true⟩ a b ∈ t.raised
                ∧ (q = firstTransducer w → a = ⟨(t.chan q).value, (t.chan q).quality, some s.now, false⟩)
                ∧ (q = secondTransducer w → b = ⟨(t.chan q).value, (t.chan q).quality, some s.now, false⟩)))

/-- R9, R13: an EDGE frame of a discrete entry stores the state it carries, inverted where the entry says so, and counts
toward recovery; a float's change reaches WMU and a home switch's edges reach SC with their arrival time. That the edges are
delivered in any quality of the channel is the model's choice (log entry 17), and so is that the hold deadline becomes absent
(log entry 45). -/
def Obligations.EdgeIsStored : Prop :=
  ∀ (src : Addr) (payload : List Byte) (ch : Nat) (st : Bool) (n : BitVec 8) (e : SampleEntry) (q : Quantity)
    (s : State), s.live = true → edgeFields payload = some (ch, st, n) → entryAt s src ch = some e →
    e.kind = .discrete → e.quantity = .name q →
    ∃ t, exec (.edgeFrame src payload) s = .next t
      ∧ (t.chan q).value = some (if st = e.invert then 0 else 1) ∧ (t.chan q).edgeCount = some n
      ∧ (t.chan q).storedAt = some s.now ∧ (t.chan q).arrivedAt = some s.now
      ∧ (t.chan q).staleAt = some (s.now + staleOf s src)
      ∧ ((s.chan q).quality = .held ∨ (s.chan q).quality = .lost →
          if (s.chan q).recovery = 0 then (t.chan q).quality = (s.chan q).quality ∧ (t.chan q).recovery = 1
          else (t.chan q).quality = .good ∧ (t.chan q).recovery = 0 ∧ (t.chan q).holdAt = none
            ∧ updateEvent t q ⟨(t.chan q).value, .good, some s.now, true⟩ ∈ t.raised
            ∧ ((s.chan q).quality = .lost → .recordSubmission (.sensorRecovered q .lost) ∈ t.raised))
      ∧ ((s.chan q).quality = .good ∨ (s.chan q).quality = .suspect → (t.chan q).quality = (s.chan q).quality)
      ∧ (∀ w, quantityWell q = some w → (s.chan q).value ≠ (t.chan q).value →
          updateEvent t q ⟨(t.chan q).value, (t.chan q).quality, some s.now, true⟩ ∈ t.raised)
      ∧ (∀ k, homeScreen q = some k → (s.chan q).value = some 1 → (t.chan q).value = some 0 →
          .homeOffEdge k s.now ∈ t.raised)
      ∧ (∀ k, homeScreen q = some k → (s.chan q).value = some 0 → (t.chan q).value = some 1 →
          .homeOnEdge k s.now ∈ t.raised)
      ∧ ((s.chan q).value = (t.chan q).value → (s.chan q).quality = .good → t.raised = s.raised)
      ∧ ∀ other, other ≠ q → t.chan other = s.chan other

/-- R11, R12: a GOOD channel whose staleness deadline passes becomes HELD for its hold limit, and a HELD one whose hold
deadline passes becomes LOST, with no hold deadline (the model's choice, log entry 45); either deadline does nothing in
another quality. R10, R14, R24: a float contradiction takes each transducer it is reported for to SUSPECT, if it is not, and
touches no other channel, nor one that the Sample Map does not hold (R3; what the notice carries is the model's choice, log
entry 44); a surge notice opens the well's
blanking window. R23: a disagreement that has lasted 60 s is recorded once, with both values. -/
def Obligations.ChannelDeadlinesAndNotices : Prop :=
  ∀ (q : Quantity) (w : Well) (first second : Bool) (s : State), s.live = true →
    (∀ d, (s.chan q).staleAt = some d → d ≤ s.now → ∃ t, exec (.stalenessDeadline q) s = .next t
      ∧ t = (if (s.chan q).quality = .good then { s with
          channels := s.channels.set q { s.chan q with
            quality := .held, recovery := 0, holdAt := some (s.now + holdLimitOf s q * 1000) }
          raised := s.raised ++ [updateEvent t q ⟨(s.chan q).value, .held, (s.chan q).storedAt, false⟩] } else s))
    ∧ (∀ d, (s.chan q).holdAt = some d → d ≤ s.now → ∃ t, exec (.holdDeadline q) s = .next t
      ∧ t = (if (s.chan q).quality = .held then { s with
          channels := s.channels.set q { s.chan q with quality := .lost, recovery := 0, holdAt := none }
          raised := s.raised ++ [updateEvent t q ⟨(s.chan q).value, .lost, (s.chan q).storedAt, false⟩,
            .recordSubmission (.sensorLost q)] } else s))
    ∧ (∃ t, exec (.floatContradiction w first second) s = .next t ∧ ∀ q,
      if (q = firstTransducer w ∧ first = true ∨ q = secondTransducer w ∧ second = true)
          ∧ (s.chan q).quality ≠ .suspect ∧ (entryFor s q).isSome then
        t.chan q = { s.chan q with quality := .suspect, holdAt := none }
          ∧ .recordSubmission (.sensorSuspect q .float) ∈ t.raised
          ∧ ∃ a b, .levelSelection q ⟨(s.chan q).value, .suspect, (s.chan q).storedAt, false⟩ a b ∈ t.raised
      else t.chan q = s.chan q)
    ∧ exec (.surgeNotice w) s = .next { s with
        blanking := s.blanking.set w (some (s.now + s.setup.surgeBlanking.toNat * 1000)) }
    ∧ (∀ since, (s.well w).episode = .timing since → since + 60000 ≤ s.now →
      exec (.disagreeTimeout w) s = .next { s with
        wells := s.wells.set w { s.well w with episode := .logged }
        raised := s.raised ++ [.recordSubmission
          (.disagree w (s.chan (firstTransducer w)).value (s.chan (secondTransducer w)).value)] })

/-- R16, R17: an interval that expires, or a retry, requests a reference check: a CADENCE frame naming the channel joins the
CONTROL queue, or is offered again after 1 s; an interval that expires while a check is awaited restarts, and a check not
answered within 60 s is given up. -/
def Obligations.ReferenceChecks : Prop :=
  ∀ (q : Quantity) (e : SampleEntry) (s : State), s.live = true → entryFor s q = some e →
    (∀ d x, (s.chan q).referenceAt = some d → d ≤ s.now → (s.chan q).awaiting = some x →
      exec (.referenceIntervalExpiry q) s = .next { s with channels := s.channels.set q { s.chan q with
        referenceAt := some (s.now + s.setup.referenceInterval.toNat * 3600000) } })
    ∧ (∀ c, (c = .referenceIntervalExpiry q ∧ due (s.chan q).referenceAt s.now = true ∧ (s.chan q).awaiting = none
          ∨ c = .referenceRetry q ∧ due (s.chan q).referenceRetryAt s.now = true) →
        ∃ t, exec c s = .next t ∧
          if s.lp.control.length < 8 then
            t.lp.control = s.lp.control ++
                [⟨e.node, s.lp.ownAddress, s.lp.ownSequence, .cadence s.ssu.state (some e.channel)⟩]
              ∧ t.lp.ownSequence = s.lp.ownSequence + 1
              ∧ (t.chan q).awaiting = some s.now ∧ (t.chan q).referenceRetryAt = none
              ∧ (t.chan q).referenceAt = some (s.now + s.setup.referenceInterval.toNat * 3600000)
          else t.lp = s.lp ∧ (t.chan q).awaiting = (s.chan q).awaiting
            ∧ ((s.chan q).referenceRetryAt = none ∨ due (s.chan q).referenceRetryAt s.now = true →
                (t.chan q).referenceRetryAt = some (s.now + 1000)))
    ∧ (∀ x, (s.chan q).awaiting = some x → x + 60000 ≤ s.now →
      exec (.referenceTimeout q) s = .next { s with channels := s.channels.set q { s.chan q with awaiting := none } })

/-- R18, R11, R141: a node's repeat or retry sends it a CADENCE frame of the station state as it stands, records the class, and
gives a changed class's stale time to the node's channels; with no room the frame is offered again after 1 s. At a change of
station state every node of the map is sent one, in the order of the nodes, while the CONTROL queue has room; those left over
keep the class recorded and are offered one again after 1 s, a second that runs already standing (log entry 10). -/
def Obligations.CadenceFrames : Prop :=
  ∀ s : State, s.live = true →
    (∀ (node : Nat) (x : CadenceState) (c : Instr), findNode s node = some x →
      (c = .cadenceRepeatExpiry node ∧ due x.repeatAt s.now = true ∨ c = .cadenceRetry node ∧ due x.retryAt s.now = true) →
      ∃ t, exec c s = .next t ∧
        if s.lp.control.length < 8 then
          t.lp.control = s.lp.control ++ [⟨node, s.lp.ownAddress, s.lp.ownSequence, .cadence s.ssu.state none⟩]
            ∧ findNode t node = some ⟨node, s.ssu.state, none, some (s.now + 600000)⟩
            ∧ (x.recorded ≠ s.ssu.state → ∀ e ∈ mapEntries s, e.node = node → ∀ q, e.quantity = .name q →
                (t.chan q).staleAt = some (s.now + staleMs s.ssu.state))
        else t.lp = s.lp ∧ t.channels = s.channels
          ∧ ∃ y, findNode t node = some y ∧ y.recorded = x.recorded
            ∧ (x.retryAt = none ∨ due x.retryAt s.now = true → y.retryAt = some (s.now + 1000)))
    ∧ (∀ st : StationState, s.lp.control.length + s.nodes.length ≤ 8 →
      ∃ t fs, exec (.stationStateToCu st) s = .next t ∧ t.lp.control = s.lp.control ++ fs
        ∧ fs.map (·.destination) = s.nodes.map (·.node) ∧ (∀ f ∈ fs, f.payload = .cadence s.ssu.state none)
        ∧ t.lp.ownSequence = s.lp.ownSequence + BitVec.ofNat 6 s.nodes.length
        ∧ t.nodes = s.nodes.map fun c => { c with
            recorded := s.ssu.state, retryAt := none, repeatAt := some (s.now + 600000) })
    ∧ (∀ (st : StationState) (k : Nat), (s.nodes.map (·.node)).Nodup → k = 8 - s.lp.control.length →
      ∃ t fs, exec (.stationStateToCu st) s = .next t ∧ t.lp.control = s.lp.control ++ fs
        ∧ fs.map (·.destination) = (s.nodes.take k).map (·.node) ∧ (∀ f ∈ fs, f.payload = .cadence s.ssu.state none)
        ∧ t.nodes = ((s.nodes.take k).map fun c => { c with
              recorded := s.ssu.state, retryAt := none, repeatAt := some (s.now + 600000) })
            ++ ((s.nodes.drop k).map fun c => { c with retryAt := some (match c.retryAt with
              | some x => if s.now < x then x else s.now + 1000
              | none => s.now + 1000) })
        ∧ ∀ q, (∀ c ∈ s.nodes.take k, c.recorded ≠ s.ssu.state →
              (∃ e ∈ mapEntries s, e.node = c.node ∧ e.quantity = .name q) →
              (t.chan q).staleAt = some (s.now + staleMs s.ssu.state))
          ∧ ((∀ c ∈ s.nodes.take k, c.recorded ≠ s.ssu.state → ∀ e ∈ mapEntries s, e.node = c.node →
                e.quantity ≠ .name q) → t.chan q = s.chan q))

/-! ## WMU -/

/-- R21, R22, R23, R24, R25, R28, R33: a selection takes the float of its update, the level that the two transducers give and
the disagreement episode, which every row of R22 but the second ends, computes the volume on the well's table, reports a
contradiction of the floats for the transducers that are GOOD, is an integration event of a well with a level, and is delivered
to four blocks; nothing else changes. The flows of the new set are spelled out below, for the pump flow notice. That the
selection uses the transducer channels its update came with is the model's choice (log entry 44), and so is that a pump of a
silent drive counts by its last report (log entry 41). -/
def Obligations.LevelIsSelected : Prop :=
  ∀ (q : Quantity) (w : Well) (u first second : ChannelUpdate) (T : Banks LevelVolume) (s : State), s.live = true →
    quantityWell q = some w → T = s.tables.levelVolume.get w →
    ∃ t four, exec (.levelSelection q u first second) s = .next t
    ∧ four = [.wellRecordDeliveryDc w (deliveryOf (t.well w)), .wellRecordDeliverySc w (deliveryOf (t.well w)),
      .wellRecordDeliveryOa w (deliveryOf (t.well w)), .wellRecordDeliverySsu w (deliveryOf (t.well w))]
    ∧ (∀ v, u.quality = .good ∨ u.quality = .held → u.value = some v →
        (q = highFloatOf w → (t.well w).highFloat = if v = 1 then .on else .off)
        ∧ (q = lowFloatOf w → (t.well w).lowFloat = if v = 1 then .on else .off))
    ∧ (u.quality = .lost ∨ u.quality = .suspect ∨ u.value = none →
        (q = highFloatOf w → (t.well w).highFloat = .unknown) ∧ (q = lowFloatOf w → (t.well w).lowFloat = .unknown))
    ∧ (q ≠ highFloatOf w → (t.well w).highFloat = (s.well w).highFloat)
    ∧ (q ≠ lowFloatOf w → (t.well w).lowFloat = (s.well w).lowFloat)
    ∧ (∀ a b, first.quality = .good → first.value = some a → second.quality = .good → second.value = some b →
        (t.well w).quality = .good
        ∧ if a - b ≤ s.setup.disagreement.get w ∧ b - a ≤ s.setup.disagreement.get w then
            (t.well w).level = some ((a + b) / 2) ∧ (t.well w).episode = .none
          else (t.well w).level = some (max a b)
            ∧ (t.well w).episode = if (s.well w).episode = .none then .timing s.now else (s.well w).episode)
    ∧ (∀ x y a, x = first ∧ y = second ∨ x = second ∧ y = first → x.quality = .good → x.value = some a →
        y.quality ≠ .good → (t.well w).quality = .good ∧ (t.well w).level = some a ∧ (t.well w).episode = .none)
    ∧ (∀ a b c d, first.quality = .held → first.value = some a → first.storedAt = some c →
        second.quality = .held → second.value = some b → second.storedAt = some d →
        (t.well w).quality = .held ∧ (t.well w).episode = .none
        ∧ (t.well w).level = some (if d < c then a else if c < d then b else max a b))
    ∧ (∀ x y a, x = first ∧ y = second ∨ x = second ∧ y = first → x.quality = .held → x.value = some a →
        y.quality = .lost ∨ y.quality = .suspect →
        (t.well w).quality = .held ∧ (t.well w).level = some a ∧ (t.well w).episode = .none)
    ∧ (first.quality = .lost ∨ first.quality = .suspect → second.quality = .lost ∨ second.quality = .suspect →
        (t.well w).quality = .lost ∧ (t.well w).level = (s.well w).level ∧ (t.well w).episode = .none)
    ∧ ((t.well w).level = none → (t.well w).integratedAt = (s.well w).integratedAt
        ∧ (t.well w).flowSet = (s.well w).flowSet ∧ (t.well w).pumpedLitres = (s.well w).pumpedLitres
        ∧ (t.well w).remainder = (s.well w).remainder ∧ (t.well w).volume = (s.well w).volume
        ∧ (t.well w).aboveTable = (s.well w).aboveTable)
    ∧ ((t.well w).level ≠ none → (t.well w).integratedAt = some s.now
        ∧ (∀ d, (s.well w).integratedAt = some d →
          (t.well w).pumpedLitres * 1000 + (t.well w).remainder
            = (s.well w).pumpedLitres * 1000 + (s.well w).remainder + flowSum (s.well w).flowSet * (s.now - d)
          ∧ (t.well w).remainder < 1000)
        ∧ ((s.well w).integratedAt = none →
          (t.well w).pumpedLitres = (s.well w).pumpedLitres ∧ (t.well w).remainder = (s.well w).remainder)
        ∧ ∀ p, (s.wellOf p ≠ some w ∨ ¬ CountsRunning (s.pump p) → (t.well w).flowSet.get p = 0)
          ∧ (s.wellOf p = some w → CountsRunning (s.pump p) → (t.well w).flowSet.get p =
              pumpFlow (wmuCurves s w) (headOf t w) p (speedUsed s p)))
    ∧ t = { s with wells := t.wells, raised := t.raised }
    ∧ t.well w = { s.well w with
        level := (t.well w).level, quality := (t.well w).quality, episode := (t.well w).episode
        highFloat := (t.well w).highFloat, lowFloat := (t.well w).lowFloat, volume := (t.well w).volume
        aboveTable := (t.well w).aboveTable, pumpedLitres := (t.well w).pumpedLitres
        remainder := (t.well w).remainder, flowSet := (t.well w).flowSet, integratedAt := (t.well w).integratedAt }
    ∧ (∀ level, (t.well w).level = some level →
        (T.isEmpty = true → (t.well w).volume = 0 ∧ (t.well w).aboveTable = false)
        ∧ (T.isEmpty = false → level < T.active.base →
            (t.well w).volume = T.active.volumes.getD 0 0 ∧ (t.well w).aboveTable = false)
        ∧ (T.isEmpty = false → T.active.base + 32 * (T.active.stepSize : Int) ≤ level →
            (t.well w).volume = T.active.volumes.getD 32 0 ∧ (t.well w).aboveTable = true)
        ∧ (∀ i f : Nat, T.isEmpty = false → level = T.active.base + T.active.stepSize * i + f → f < T.active.stepSize →
            i < 32 → (t.well w).aboveTable = false ∧ (t.well w).volume = T.active.volumes.getD i 0
              + (T.active.volumes.getD (i + 1) 0 - T.active.volumes.getD i 0) * f / T.active.stepSize)
        ∧ if (t.well w).quality = .good
              ∧ ((t.well w).highFloat = .on ∧ level < s.setup.highFloat.get w - 150
                ∨ (t.well w).lowFloat = .on ∧ s.setup.lowFloat.get w + 150 < level) then
            t.raised = s.raised ++
              [.floatContradiction w (decide (first.quality = .good)) (decide (second.quality = .good))] ++ four
          else t.raised = s.raised ++ four)
    ∧ ((t.well w).level = none → t.raised = s.raised ++ four)
    ∧ ∀ v, v ≠ w → t.well v = s.well v

/-- R29, R30, R32, R33: a pump flow notice is an integration event of the pump's well and of the well it leaves, where the
well has a level: the flows of the set, over the time since the last event, go into litres and remainder, and the set is taken
afresh. A pump of the well that counts as running has the flow its curve gives at the head of the well and at its speed; any
other has 0. A pump of a silent drive counts, but in NO_STATUS, by its last report: the model's choice (log entry 41). -/
def Obligations.PumpedVolumeIsIntegrated : Prop :=
  ∀ (p : Pump) (left : Option Well) (river : Int) (s : State), s.live = true →
    river = (match (s.chan .riv).quality, (s.chan .riv).value with
      | .good, some x => x
      | .held, some x => x
      | _, _ => s.setup.riverFallback) →
    ∃ t, exec (.pumpFlowNotice p left) s = .next t ∧ t.raised = s.raised
    ∧ (∀ v, ¬ ((s.wellOf p = some v ∨ left = some v) ∧ (s.well v).level.isSome) → t.well v = s.well v)
    ∧ ∀ v level, s.wellOf p = some v ∨ left = some v → (s.well v).level = some level →
        (∀ d, (s.well v).integratedAt = some d →
          (t.well v).pumpedLitres * 1000 + (t.well v).remainder
            = (s.well v).pumpedLitres * 1000 + (s.well v).remainder + flowSum (s.well v).flowSet * (s.now - d)
          ∧ (t.well v).remainder < 1000)
        ∧ ((s.well v).integratedAt = none →
          (t.well v).pumpedLitres = (s.well v).pumpedLitres ∧ (t.well v).remainder = (s.well v).remainder)
        ∧ t.well v = { s.well v with
            pumpedLitres := (t.well v).pumpedLitres, remainder := (t.well v).remainder
            flowSet := (t.well v).flowSet, integratedAt := some s.now }
        ∧ (∀ q, s.wellOf q ≠ some v ∨ ¬ CountsRunning (s.pump q) → (t.well v).flowSet.get q = 0)
        ∧ ∀ (q : Pump) (speed head : Nat) (curve : Option (List Nat)), s.wellOf q = some v → CountsRunning (s.pump q) →
          speed = (if s.setup.isVariable q then match (s.pump q).drive with
              | .known d x => if s.now ≤ x + 15000 then max d.speed 30 else (s.pump q).applied
              | .unknown => (s.pump q).applied
            else 100) →
          head = (max river s.setup.dischargeInvert - level).toNat * 10000 / (speed * speed) →
          curve = (if curvesScheduled s = true ∧ (s.well v).pendingCurves = false then
              some (s.tables.pumpCurves.inactive.drop (9 * q.index))
            else if s.tables.pumpCurves.isEmpty then none else some (s.tables.pumpCurves.active.drop (9 * q.index))) →
          (curve = none ∨ 16000 < head → (t.well v).flowSet.get q = 0)
          ∧ ∀ (points : List Nat) (i f : Nat), curve = some points → head ≤ 16000 → head = 2000 * i + f → i ≤ 7 →
            (f < 2000 ∨ i = 7) → (t.well v).flowSet.get q =
              (truncDiv (((points.getD i 0 : Int)
                + truncDiv (((points.getD (i + 1) 0 : Int) - (points.getD i 0 : Nat)) * f) 2000) * speed) 100).toNat

/-- R27, R34 to R41: a balance expiry first takes a pending level-volume switch: the banks are exchanged, the volume and the
balance volume are computed on the new table, and the store write begins. A pending pump-curve switch gives a new flow set and
tells DC, the last well completing it. On a table in force a GOOD level then establishes the balance, or computes the raw and
smoothed inflow of the interval and moves the balance; otherwise it keeps them with inflow quality HELD. On an EMPTY table the
balance stands. The record is delivered to DC, SC, OA and SSU in every case. `T` is the table after the switch, `volume` the
volume on it, `pumped` what the integration of this expiry leaves. -/
def Obligations.BalanceIsComputed : Prop :=
  ∀ (w : Well) (pumped volume : Nat) (T : Banks LevelVolume) (h : ReqHead) (s : State), s.live = true →
    due (s.well w).balanceAt s.now = true →
    ((s.well w).pendingLevelVolume = true → s.mu.commit = .scheduled (.levelVolume w) h) →
    T = (if (s.well w).pendingLevelVolume then
        ⟨(s.tables.levelVolume.get w).inactive, (s.tables.levelVolume.get w).inactive, false⟩
      else s.tables.levelVolume.get w) →
    volume = (match (s.well w).pendingLevelVolume, (s.well w).level with
      | true, some level => (volumeOn T.active level).1
      | _, _ => (s.well w).volume) →
    pumped = (s.well w).pumpedLitres + (match (s.well w).level, (s.well w).integratedAt with
      | some _, some d => ((s.well w).remainder + flowSum (s.well w).flowSet * (s.now - d)) / 1000
      | _, _ => 0) →
    ∃ t, exec (.balanceExpiry w) s = .next t
      ∧ (t.well w).balanceAt = some (s.now + (s.setup.balanceInterval.get w).toNat * 1000)
      ∧ (t.well w).volume = volume ∧ (t.well w).level = (s.well w).level ∧ (t.well w).pendingLevelVolume = false
      ∧ (t.well w).pendingCurves = false ∧ t.tables.levelVolume.get w = T
      ∧ ((s.well w).pendingLevelVolume = true → ∃ d, t.mu = { s.mu with commit := .storing (.levelVolume w) h d }
          ∧ s.now ≤ d ∧ d ≤ s.now + 200)
      ∧ (∀ x, (s.well w).pendingCurves = true → s.mu.commit = .scheduled .pumpCurves x →
          .curveSwitchNotice w ∈ t.raised
          ∧ (∀ p, (t.well w).flowSet.get p = if s.wellOf p = some w ∧ countsRunning (s.pump p) = true then
              pumpFlow (some s.tables.pumpCurves.inactive) (headOf s w) p (speedUsed s p) else 0)
          ∧ ((∃ v, v ≠ w ∧ (s.well v).pendingCurves = true) → t.tables = s.tables ∧ t.mu = s.mu)
          ∧ ((∀ v, v ≠ w → (s.well v).pendingCurves = false) →
            t.tables = { s.tables with
                pumpCurves := ⟨s.tables.pumpCurves.inactive, s.tables.pumpCurves.inactive, false⟩ }
              ∧ ∃ d, t.mu = { s.mu with commit := .storing .pumpCurves x d } ∧ s.now ≤ d ∧ d ≤ s.now + 200))
      ∧ (T.isEmpty = true →
          (t.well w).established = (s.well w).established ∧ (t.well w).balanceLevel = (s.well w).balanceLevel
          ∧ (t.well w).balanceVolume = (s.well w).balanceVolume ∧ (t.well w).balanceTime = (s.well w).balanceTime
          ∧ (t.well w).rawInflow = (s.well w).rawInflow ∧ (t.well w).smoothedInflow = (s.well w).smoothedInflow
          ∧ (t.well w).inflowGood = (s.well w).inflowGood ∧ (t.well w).pumpedLitres = pumped
          ∧ (t.well w).negativeBalances = (s.well w).negativeBalances)
      ∧ (T.isEmpty = false → (s.well w).quality = .good → (s.well w).established = false →
          (t.well w).established = true ∧ (t.well w).balanceLevel = (s.well w).level
          ∧ (t.well w).balanceVolume = some volume ∧ (t.well w).balanceTime = some s.now
          ∧ (t.well w).pumpedLitres = 0 ∧ (t.well w).rawInflow = (s.well w).rawInflow
          ∧ (t.well w).smoothedInflow = (s.well w).smoothedInflow ∧ (t.well w).inflowGood = (s.well w).inflowGood)
      ∧ (∀ v d x, T.isEmpty = false → (s.well w).quality = .good → (s.well w).established = true →
          (if (s.well w).pendingLevelVolume then (s.well w).balanceLevel.map (fun b => (volumeOn T.active b).1)
            else (s.well w).balanceVolume) = some v →
          (s.well w).balanceTime = some d → x = truncDiv ((volume - v + pumped : Int) * 1000) (s.now - d : Nat) →
          ((t.well w).rawInflow : Int) = clampInt 0 50000 x
          ∧ (t.well w).smoothedInflow = ((s.well w).smoothedInflow + truncDiv
              ((t.well w).rawInflow - (s.well w).smoothedInflow) (2 ^ (s.setup.smoothing.get w).toNat : Nat) : Int).toNat
          ∧ (t.well w).negativeBalances = (if x < 0 then satInc 65535 (s.well w).negativeBalances
              else (s.well w).negativeBalances)
          ∧ (t.well w).inflowGood = true ∧ (t.well w).pumpedLitres = 0 ∧ (t.well w).balanceLevel = (s.well w).level
          ∧ (t.well w).balanceVolume = some volume ∧ (t.well w).balanceTime = some s.now)
      ∧ (T.isEmpty = false → (s.well w).quality ≠ .good →
          (t.well w).inflowGood = false ∧ (t.well w).rawInflow = (s.well w).rawInflow
          ∧ (t.well w).smoothedInflow = (s.well w).smoothedInflow ∧ (t.well w).pumpedLitres = pumped
          ∧ (t.well w).balanceLevel = (s.well w).balanceLevel ∧ (t.well w).balanceTime = (s.well w).balanceTime
          ∧ (t.well w).established = (s.well w).established
          ∧ ((s.well w).pendingLevelVolume = false → (t.well w).balanceVolume = (s.well w).balanceVolume)
          ∧ ∀ b, (s.well w).pendingLevelVolume = true → (s.well w).established = true → (s.well w).balanceLevel = some b →
            (t.well w).balanceVolume = some (volumeOn T.active b).1)
      ∧ t.raised = s.raised ++ (if (s.well w).pendingCurves then [.curveSwitchNotice w] else [])
          ++ [.wellRecordDeliveryDc w (deliveryOf (t.well w)), .wellRecordDeliverySc w (deliveryOf (t.well w)),
            .wellRecordDeliveryOa w (deliveryOf (t.well w)), .wellRecordDeliverySsu w (deliveryOf (t.well w))]

/-! ## DC -/

/-- R54, R79, R84, R86, R172: at a delivery each fitted pump of the well has its interlock set exactly when the low float is
ON, no level is held, or the level is at or below the pump's dry level; a pump whose interlock is set neither waits for a
grant, starts nor runs, one that was starting or running is sent to STOPPING, and no RUN or REVERSE for its drive waits in the
CONTROL or the forward queue. The staged speed follows a level of quality GOOD or HELD by the formula, is 100 for a FIXED pump
and under forcing, and a delivery without such a level leaves the formula's speed. The dead-head timer of a VARIABLE pump runs
while the pump is RUNNING and delivers nothing at its applied speed, and forcing ends when the formula's speed delivers or the
pump leaves RUNNING. The order of these at a delivery is the model's choice (log entry 60). That a waiting forwarded DRIVE_CMD
that begins with 1 or 3 counts as a RUN or REVERSE whatever the length of its payload is the model's choice (log entry 73). -/
def Obligations.InterlockStopsPumps : Prop :=
  ∀ (w : Well) (d : WellDelivery) (s : State), s.live = true →
    ∃ t, exec (.wellRecordDeliveryDc w d) s = .next t ∧ ∀ p, s.wellOf p = some w →
      ((t.pump p).interlock = true ↔
        d.lowFloat = .on ∨ d.level = none ∨ ∃ level, d.level = some level ∧ level ≤ s.setup.dryLevel.get p)
      ∧ ((t.pump p).interlock = true →
        (t.pump p).state ≠ .startWait ∧ (t.pump p).state ≠ .starting ∧ (t.pump p).state ≠ .running)
      ∧ ((t.pump p).interlock = true → (s.pump p).state = .starting ∨ (s.pump p).state = .running →
        (t.pump p).state = .stopping ∧ (t.pump p).stopAt = some (s.now + 30000))
      ∧ ((t.pump p).interlock = true → NoRunWaits t (driveOf s p))
      ∧ (∀ level, d.quality ≠ .lost → d.level = some level →
        (t.pump p).formula = (if s.setup.isVariable p then (clampInt (s.setup.minSpeed.get p) 100 (s.setup.minSpeed.get p
            + truncDiv ((level - (s.setup.stopLevels.get w).get 1) * s.setup.speedGain.get p) 1000)).toNat else 100)
        ∧ (t.pump p).staged = if (t.pump p).forcing then 100 else (t.pump p).formula)
      ∧ (d.quality = .lost ∨ d.level = none → (t.pump p).formula = (s.pump p).formula
        ∧ ((s.pump p).staged = (if (s.pump p).forcing then 100 else (s.pump p).formula) →
            (t.pump p).staged = if (t.pump p).forcing then 100 else (t.pump p).formula))
      ∧ (s.setup.isVariable p = true →
        ((t.pump p).state = .running →
          (t.pump p).deadHeadAt = (if estimate s w p (s.pump p).applied = 0 then
              some ((s.pump p).deadHeadAt.getD (s.now + s.setup.deadHeadTime.toNat * 1000)) else none)
          ∧ ((t.pump p).forcing = true ↔ (s.pump p).forcing = true ∧ estimate s w p (t.pump p).formula = 0))
        ∧ ((t.pump p).state ≠ .running → (t.pump p).deadHeadAt = none
          ∧ ((s.pump p).state = .running → (t.pump p).forcing = false)))

/-- R50, R52, R141, R142: an evaluation takes the level demand to the number of start levels the level has reached, or down to
the number of stop levels it stands above, and in DRY the demand is the level demand up to max running, or 0 in a RESTRICTED
well at or below its restricted stop. The series are those of a committed setup: rising, and each stop below its start. -/
def Obligations.LevelDemandIsEvaluated : Prop :=
  ∀ (c : Instr) (w : Well) (level : Int) (up down : Nat) (s : State), s.live = true →
    (c = .wellRecordDeliveryDc w (deliveryOf (s.well w)) ∨ (∃ st, c = .wellStateToDc w st) ∨
      ∃ st, c = .stationStateToDc st) →
    s.ssu.well.get w ≠ .fallback → (s.well w).quality ≠ .lost → (s.well w).level = some level →
    (∀ k, 1 ≤ k → k ≤ 4 → (s.setup.stopLevels.get w).get k < (s.setup.startLevels.get w).get k) →
    (∀ k, 1 ≤ k → k ≤ 3 → (s.setup.startLevels.get w).get k ≤ (s.setup.startLevels.get w).get (k + 1)
      ∧ (s.setup.stopLevels.get w).get k ≤ (s.setup.stopLevels.get w).get (k + 1)) →
    s.duty.levelDemand.get w ≤ 4 →
    up = ([1, 2, 3, 4].filter fun k => decide ((s.setup.startLevels.get w).get k ≤ level)).length →
    down = ([1, 2, 3, 4].filter fun k => decide ((s.setup.stopLevels.get w).get k < level)).length →
    ∃ t, exec c s = .next t
      ∧ t.duty.levelDemand.get w = max up (min (s.duty.levelDemand.get w) down)
      ∧ (s.ssu.state = .dry → t.duty.demand.get w =
          if s.ssu.well.get w = .restricted ∧ level ≤ s.setup.restrictedStop.get w then 0
          else min (t.duty.levelDemand.get w) (s.setup.maxRunning.get w).toNat)

/-- R49, R51, R52, R53, R56, R57: when a pump is eligible; the flow demand in STORM, the least number of eligible pumps in
rotation order whose flows reach the inflow; an evaluation, which sets the demand and the rotation-due flag; the selection
that follows it, pump by pump; and the rotation, which waits for the AUTO pumps to have stopped. A deferred stop, looked at
again when the min run expires, stops a pump whose well no longer asks for one, and a confirmed stop makes a rotation that
waited for it. That any evaluation, and not the expiry of the min run alone, stops a pump whose stop is deferred and whose min
run has elapsed, is the model's choice (log entry 43). -/
def Obligations.PumpsAreSelected : Prop :=
  ∀ (w : Well) (p : Pump) (s : State),
    (eligible s w p = true ↔
      ((s.pump p).state = .off ∨ (s.pump p).state = .startWait ∨ (s.pump p).state = .starting ∨ (s.pump p).state = .running)
      ∧ (s.pump p).disabled = false ∧ (s.pump p).interlock = false
      ∧ (∀ d, (s.pump p).lastReport = some d → d.state ≠ .tripped)
      ∧ 0 < estimate s w p (if (s.pump p).state = .starting ∨ (s.pump p).state = .running then 100
          else if s.setup.isVariable p then (s.pump p).staged else 100)
      ∧ ((s.pump p).state = .starting ∨ (s.pump p).state = .running
        ∨ (s.pump p).history.length < (s.setup.startsPerHour.get p).toNat))
    ∧ (∀ inflow fs n, fs = ((s.duty.rotation.get w).filter (eligible s w)).map (fun q =>
          estimate s w q (if s.setup.isVariable q then (s.pump q).applied else 100)) → n = flowDemand s w inflow →
        (s.ssu.state = .dry → n = 0)
        ∧ (s.ssu.state = .storm → n ≤ fs.length ∧ (∀ k, k < n → (fs.take k).sum < inflow)
          ∧ (inflow ≤ (fs.take n).sum ∨ n = fs.length)))
    ∧ (∀ d level n dem, s.ssu.well.get w ≠ .fallback → d.quality ≠ .lost → d.level = some level →
        n = levelDemand s.setup w level (s.duty.levelDemand.get w) →
        dem = (if s.ssu.well.get w = .restricted ∧ level ≤ s.setup.restrictedStop.get w then 0
          else min (max n (flowDemand s w d.smoothedInflow)) (s.setup.maxRunning.get w).toNat) →
        evaluateOnce s w d = select { s with duty := { s.duty with
          levelDemand := s.duty.levelDemand.set w n
          demand := s.duty.demand.set w dem
          rotationDue := s.duty.rotationDue.set w (if 0 < dem then false
            else if 0 < s.duty.demand.get w then true else s.duty.rotationDue.get w) } } w dem)
    ∧ (∀ dem t, t = select s w dem → (s.duty.rotation.get w).Nodup →
        ((s.pump p).owner ≠ .auto ∨ p ∉ s.duty.rotation.get w → t.pump p = s.pump p)
        ∧ ((s.pump p).owner = .auto → p ∈ s.duty.rotation.get w →
          ((s.pump p).state = .off → Chosen s w dem p →
              (t.pump p).state = .startWait ∧ .startRequest (.pump p) .pump ∈ t.raised)
          ∧ ((s.pump p).state = .off → ¬ Chosen s w dem p → t.pump p = s.pump p)
          ∧ ((s.pump p).state = .startWait → Chosen s w dem p → t.pump p = s.pump p)
          ∧ ((s.pump p).state = .startWait → ¬ Chosen s w dem p → .requestWithdrawal (.pump p) ∈ t.raised
              ∧ (t.pump p).state = (if (s.pump p).lockout = true then .lockedOut
                else if (s.pump p).disabled = true then .unavailable .disabled else .off))
          ∧ ((s.pump p).state = .running → Chosen s w dem p → t.pump p = { s.pump p with stopDeferred := false })
          ∧ (∀ x, (s.pump p).state = .running → ¬ Chosen s w dem p → (s.pump p).runStart = some x →
              if x + (s.setup.minRun.get p).toNat * 1000 ≤ s.now then
                (t.pump p).state = .stopping ∧ (t.pump p).stopAt = some (s.now + 30000)
                  ∧ ((s.pump p).charge = .running → .stopNotice p ∈ t.raised)
              else t.pump p = { s.pump p with stopDeferred := true })
          ∧ ((s.pump p).state ≠ .off → (s.pump p).state ≠ .startWait → (s.pump p).state ≠ .running →
              t.pump p = s.pump p)))
    ∧ (rotateIfDue s w = if s.ssu.well.get w ≠ .fallback ∧ s.duty.rotationDue.get w = true
          ∧ ∀ q ∈ s.duty.rotation.get w, (s.pump q).owner = .auto → (s.pump q).state ≠ .startWait
            ∧ (s.pump q).state ≠ .starting ∧ (s.pump q).state ≠ .running ∧ (s.pump q).state ≠ .stopping then
        { s with duty := { s.duty with
          rotation := s.duty.rotation.set w
            ((s.duty.rotation.get w).drop 1 ++ (s.duty.rotation.get w).take 1)
          rotationDue := s.duty.rotationDue.set w false } }
      else s)
    ∧ (∀ start level, s.live = true → (s.pump p).state = .running → (s.pump p).owner = .auto →
        (s.pump p).stopDeferred = true → (s.pump p).runStart = some start →
        start + (s.setup.minRun.get p).toNat * 1000 ≤ s.now → s.wellOf p = some w → p ∈ s.duty.rotation.get w →
        s.ssu.state = .dry → s.ssu.well.get w ≠ .fallback → (s.well w).quality ≠ .lost → (s.well w).level = some level →
        (∀ k, 1 ≤ k → k ≤ 4 → level ≤ (s.setup.stopLevels.get w).get k) →
        level < (s.setup.startLevels.get w).get (s.duty.levelDemand.get w + 1) →
        level < (s.setup.startLevels.get w).get 1 → s.duty.levelDemand.get w ≤ 4 →
        ∃ t, exec (.minRunExpiry p) s = .next t
          ∧ t.duty.demand.get w = 0 ∧ (t.pump p).state = .stopping ∧ (t.pump p).stopAt = some (s.now + 30000)
          ∧ ((s.pump p).charge = .running → .stopNotice p ∈ t.raised))
    ∧ (∀ src payload d, s.live = true → pumpAtDrive s src = some p → driveReportOf payload = some d → d.state = .stopped →
        (s.pump p).state = .stopping → s.wellOf p = some w → s.ssu.well.get w ≠ .fallback → (s.well w).quality = .lost →
        s.duty.rotationDue.get w = true → p ∈ s.duty.rotation.get w →
        (∀ q ∈ s.duty.rotation.get w, q ≠ p → (s.pump q).owner = .auto → (s.pump q).state ≠ .startWait
          ∧ (s.pump q).state ≠ .starting ∧ (s.pump q).state ≠ .running ∧ (s.pump q).state ≠ .stopping) →
        ∃ t, exec (.driveStat src payload) s = .next t ∧ t.duty.rotationDue.get w = false
          ∧ t.duty.rotation.get w = (s.duty.rotation.get w).drop 1 ++ (s.duty.rotation.get w).take 1)

/-- R59, R72, R80: a drive's report is recorded and restarts its status deadline; RUNNING confirms a start, which WMU is told
of, and STOPPED a stop, which begins the rest. That bits 7 to 1 of the flags byte of a report are ignored is the model's choice
(log entry 77). -/
def Obligations.DriveReportsConfirm : Prop :=
  ∀ (src : Addr) (payload : List Byte) (p : Pump) (d : DriveReport) (s : State), s.live = true →
    pumpAtDrive s src = some p → driveReportOf payload = some d →
    ∃ t, exec (.driveStat src payload) s = .next t
      ∧ (t.pump p).drive = .known d s.now ∧ (t.pump p).lastReport = some d
      ∧ (t.pump p).statusAt = some (s.now + 15000)
      ∧ ((s.pump p).state = .starting → d.state = .running →
          (t.pump p).attempts = 0 ∧ ((t.pump p).state = .running ∨ (t.pump p).state = .stopping)
          ∧ ((s.pump p).charge = .start → (t.pump p).charge = .running ∧ .chargeTransfer (.pump p) ∈ t.raised)
          ∧ (∀ w, s.wellOf p = some w → .surgeNotice w ∈ t.raised) ∧ .pumpFlowNotice p none ∈ t.raised
          ∧ (Quiet s → (t.pump p).state = .running ∧ (t.pump p).runStart = some s.now))
      ∧ ((s.pump p).state = .stopping → d.state = .stopped →
          (t.pump p).state = .resting ∧ (t.pump p).charge = .none ∧ (t.pump p).owner ≠ .manual
          ∧ (t.pump p).waitEnd = some (s.now + (s.setup.minRest.get p).toNat * 1000)
          ∧ ((s.pump p).charge ≠ .none → .chargeRelease (.pump p) ∈ t.raised)
          ∧ (∀ w, s.wellOf p = some w → .surgeNotice w ∈ t.raised))
      ∧ ((s.pump p).state = .float → (t.pump p).state = .float ∧ .driveStatusReport p true ∈ t.raised)

/-- R60, R62, R73 to R76, R78, R80: a LOCAL report takes a pump that is not in FLOAT to UNAVAILABLE(LOCAL), its charge
following the motor. A trip is recorded, and by the state of the pump is a failed start, a trip while running (told to WMU and
CU, a first attempt that backs off or meets the policy), the end of a stop, the end of a wait for a grant, or no more than a
record. A moisture trip holds the lockout, in every state; a pump in FLOAT or LOCKED_OUT keeps its state and any other is
locked out, its charge released (which message releases the charge of an unconfirmed start, and what it does in LOCKED_OUT, is
the model's choice: log entry 19, and so is that an attempt count of 15 is held at 15 by a failed start: log entry 70). How a
trip takes a pump out of local control or silence is stated below. That bits 7 to 1 of the flags byte of a report are ignored
is the model's choice (log entry 77). -/
def Obligations.DriveReportsInterrupt : Prop :=
  ∀ (src : Addr) (payload : List Byte) (p : Pump) (d : DriveReport) (s : State), s.live = true →
    pumpAtDrive s src = some p → driveReportOf payload = some d →
    ∃ t, exec (.driveStat src payload) s = .next t
      ∧ (d.state = .localHand → (s.pump p).state ≠ .float → (s.pump p).state ≠ .unavailable .notFitted →
          (t.pump p).state = .unavailable .localHand ∧ (t.pump p).owner = .auto
          ∧ ((s.pump p).state = .starting → (s.pump p).charge = .start → .grantReturn (.pump p) ∈ t.raised)
          ∧ ((s.pump p).state = .startWait → .requestWithdrawal (.pump p) ∈ t.raised)
          ∧ (d.floatRunning = false → (s.pump p).charge = .running →
              (t.pump p).charge = .none ∧ .chargeRelease (.pump p) ∈ t.raised)
          ∧ (d.floatRunning = true → (s.pump p).charge = .running →
              (t.pump p).charge = .external ∧ .externalCharge p true ∈ t.raised)
          ∧ (d.floatRunning = true → (s.pump p).charge = .none →
              (t.pump p).charge = .external ∧ .externalCharge p false ∈ t.raised))
      ∧ (d.state = .tripped → (s.pump p).state ≠ .unavailable .notFitted → (t.pump p).lastTrip = d.cause)
      ∧ (d.state = .tripped → d.cause ≠ .moisture →
        ((s.pump p).state = .running → (t.pump p).charge = .none
          ∧ .recordSubmission (.pumpTripRetry p d.cause) ∈ t.raised ∧ .pumpFlowNotice p none ∈ t.raised
          ∧ (∀ w, s.wellOf p = some w → .surgeNotice w ∈ t.raised)
          ∧ ((s.pump p).charge ≠ .none → .chargeRelease (.pump p) ∈ t.raised)
          ∧ AttemptFailed s t p 1 d.cause)
        ∧ ((s.pump p).state = .starting →
          ((s.pump p).charge = .start → (t.pump p).charge = .none ∧ .grantReturn (.pump p) ∈ t.raised)
          ∧ AttemptFailed s t p (satInc 15 (s.pump p).attempts) d.cause)
        ∧ ((s.pump p).state = .stopping → (t.pump p).state = .resting ∧ (t.pump p).charge = .none
          ∧ (t.pump p).stopAt = none ∧ (t.pump p).stopFailed = false ∧ (t.pump p).attempts = (s.pump p).attempts
          ∧ (t.pump p).waitEnd = some (s.now + (s.setup.minRest.get p).toNat * 1000)
          ∧ ((s.pump p).charge ≠ .none → .chargeRelease (.pump p) ∈ t.raised)
          ∧ (∀ w, s.wellOf p = some w → .surgeNotice w ∈ t.raised))
        ∧ ((s.pump p).state = .startWait → .requestWithdrawal (.pump p) ∈ t.raised
          ∧ (t.pump p).state = (if (s.pump p).lockout = true then .lockedOut
            else if (s.pump p).disabled = true then .unavailable .disabled else .off))
        ∧ ((s.pump p).state ≠ .running → (s.pump p).state ≠ .starting → (s.pump p).state ≠ .stopping →
          (s.pump p).state ≠ .startWait → (s.pump p).state ≠ .unavailable .localHand →
          (s.pump p).state ≠ .unavailable .noStatus →
          (t.pump p).state = (s.pump p).state ∧ (t.pump p).charge = (s.pump p).charge
            ∧ (t.pump p).waitEnd = (s.pump p).waitEnd ∧ (t.pump p).attempts = (s.pump p).attempts))
      ∧ (d.state = .tripped → d.cause = .moisture →
        ((s.pump p).state ≠ .unavailable .notFitted → (t.pump p).lockout = true)
        ∧ ((s.pump p).state = .float ∨ (s.pump p).state = .lockedOut ∨ (s.pump p).state = .unavailable .notFitted →
          (t.pump p).state = (s.pump p).state ∧ (t.pump p).charge = (s.pump p).charge)
        ∧ ((s.pump p).state ≠ .float → (s.pump p).state ≠ .lockedOut → (s.pump p).state ≠ .unavailable .notFitted →
          (s.pump p).state ≠ .unavailable .localHand → (s.pump p).state ≠ .unavailable .noStatus →
          (t.pump p).state = .lockedOut ∧ (t.pump p).owner = .auto ∧ (t.pump p).waitEnd = none
          ∧ .recordSubmission (.pumpLockout p .moisture) ∈ t.raised
          ∧ ((s.pump p).state = .startWait → .requestWithdrawal (.pump p) ∈ t.raised)
          ∧ ((s.pump p).state ≠ .startWait → (t.pump p).charge = .none
            ∧ ((s.pump p).charge ≠ .none → .chargeRelease (.pump p) ∈ t.raised))
          ∧ (∀ w, (s.pump p).state = .running → s.wellOf p = some w → .surgeNotice w ∈ t.raised)))

/-- R73 to R76: a start that is not confirmed in time fails: the start charge is returned, the attempts rise, a STOP is
offered; below the limit the pump backs off for the rest time and the drawn slots, and at the limit its policy applies. That an
attempt count of 15 is held at 15 is the model's choice (log entry 70). -/
def Obligations.StartsFail : Prop :=
  ∀ (p : Pump) (s : State), s.live = true → (s.pump p).state = .starting → due (s.pump p).startAt s.now = true →
    ∃ t, exec (.startDeadlineExpiry p) s = .next t
      ∧ ((s.pump p).charge = .start → (t.pump p).charge = .none ∧ .grantReturn (.pump p) ∈ t.raised)
      ∧ AttemptFailed s t p (satInc 15 (s.pump p).attempts) (s.pump p).lastTrip

/-- R40, R43, R44, R70, R75, R77, R80, R81, R86: the timers and notices of a pump. The end of a wait takes it to OFF,
redirected by a held lockout or disabled flag, the end of a skip clearing the attempts; an evaluation that follows may ask for
the pump at once. A stop that is not confirmed in time is recorded, once, with the drive's last reported state, and the pump
stays STOPPING (that the record names no state where the drive has reported none is the model's choice, log entry 79);
dead-head forcing runs the pump at full staged speed; the run-seconds count; the entries of a Start History that have reached
3,600 s leave it; a curve notice says which bank DC's estimates use. -/
def Obligations.WaitsAndDeadlinesEnd : Prop :=
  ∀ (p : Pump) (w : Well) (s : State), s.live = true →
    (∀ c, due (s.pump p).waitEnd s.now = true →
      (c = .backoffEnd p ∧ (s.pump p).state = .backoff ∨ c = .restEnd p ∧ (s.pump p).state = .resting
        ∨ c = .skipEnd p ∧ (s.pump p).state = .unavailable .skipped) →
      ∃ t, exec c s = .next t
        ∧ (t.pump p).attempts = (if c = .skipEnd p then 0 else (s.pump p).attempts)
        ∧ ((s.pump p).lockout = true → (t.pump p).state = .lockedOut ∧ (t.pump p).waitEnd = none)
        ∧ ((s.pump p).lockout = false → (s.pump p).disabled = true →
            (t.pump p).state = .unavailable .disabled ∧ (t.pump p).waitEnd = none)
        ∧ ((s.pump p).lockout = false → (s.pump p).disabled = false → Quiet s →
            (t.pump p).state = .off ∧ (t.pump p).waitEnd = none)
        ∧ ((s.pump p).lockout = false → (s.pump p).disabled = false →
            (t.pump p).state = .off ∨ (t.pump p).state = .startWait))
    ∧ (due (s.pump p).stopAt s.now = true → (s.pump p).state = .stopping → (s.pump p).stopFailed = false →
      ∃ t, exec (.stopDeadlineExpiry p) s = .next t ∧ (t.pump p).state = .stopping ∧ (t.pump p).stopFailed = true
        ∧ (t.pump p).charge = (s.pump p).charge
        ∧ .recordSubmission (.stopFailed p ((s.pump p).lastReport.map (·.state))) ∈ t.raised)
    ∧ (due (s.pump p).deadHeadAt s.now = true →
      ∃ t, exec (.deadHeadExpiry p) s = .next t ∧ (t.pump p).forcing = true ∧ (t.pump p).staged = 100
        ∧ (t.pump p).deadHeadAt = none ∧ (t.pump p).state = (s.pump p).state)
    ∧ (∀ h, s.mu.commit = .scheduled .pumpCurves h →
      exec (.curveSwitchNotice w) s = .next { s with
        duty := { s.duty with newCurves := s.duty.newCurves.set w !(s.well w).pendingCurves } })
    ∧ (∀ d, (s.pump p).runTickAt = some d → d ≤ s.now →
      exec (.runSecondsTick p) s = .next { s with pumps := s.pumps.set p { s.pump p with
        runSeconds := satInc 4294967295 (s.pump p).runSeconds, runTickAt := some (d + 1000) } })
    ∧ (∀ first rest, (s.pump p).history = first :: rest → first + 3600000 ≤ s.now →
      ∃ t, exec (.startHistoryAging p) s = .next t
        ∧ (t.pump p).history = (s.pump p).history.filter (fun x => decide (s.now < x + 3600000))
        ∧ ∀ q, q ≠ p → (t.pump q).history = (s.pump q).history)

/-- R60, R61, R62, R145: a drive that falls silent has status UNKNOWN; its pump enters UNAVAILABLE(NO_STATUS), giving up what
it asked for, and a running pump's charge becomes EXTERNAL; a pump in FLOAT stays, and SSU is told. A report other than LOCAL
takes a pump out of NO_STATUS and of local control: to STOPPING when its motor turns, keeping an external charge, and otherwise
to OFF without a charge, redirected by a held lockout or disabled flag; a trip is recorded first, and leaves the pump in OFF.
That bits 7 to 1 of the flags byte of a report are ignored is the model's choice (log entry 77). -/
def Obligations.DrivesFallSilentAndReturn : Prop :=
  ∀ (p : Pump) (s : State), s.live = true →
    (due (s.pump p).statusAt s.now = true → ∃ t, exec (.statusDeadlineExpiry p) s = .next t
      ∧ (t.pump p).drive = .unknown ∧ (t.pump p).statusAt = none ∧ (t.pump p).lastReport = (s.pump p).lastReport
      ∧ ((s.pump p).state = .float → (t.pump p).state = .float ∧ .driveStatusReport p false ∈ t.raised)
      ∧ ((s.pump p).state ≠ .float → (s.pump p).state ≠ .unavailable .notFitted →
          (t.pump p).state = .unavailable .noStatus)
      ∧ ((s.pump p).state = .startWait → .requestWithdrawal (.pump p) ∈ t.raised)
      ∧ ((s.pump p).state = .starting → (s.pump p).charge = .start →
          (t.pump p).charge = .none ∧ .grantReturn (.pump p) ∈ t.raised)
      ∧ ((s.pump p).state = .running → (s.pump p).charge = .running →
          (t.pump p).charge = .external ∧ .externalCharge p true ∈ t.raised))
    ∧ (∀ src payload d, pumpAtDrive s src = some p → driveReportOf payload = some d → d.state ≠ .localHand →
      (s.pump p).state = .unavailable .localHand ∨ (s.pump p).state = .unavailable .noStatus →
      ∃ t, exec (.driveStat src payload) s = .next t ∧ (t.pump p).drive = .known d s.now
        ∧ (d.state = .running ∨ d.state = .starting ∨ d.state = .float ∧ d.floatRunning = true →
          (t.pump p).state = .stopping ∧ (t.pump p).owner = .auto ∧ (t.pump p).stopAt = some (s.now + 30000)
          ∧ ((s.pump p).charge = .external → (t.pump p).charge = .external ∧ .stopNotice p ∈ t.raised))
        ∧ (d.state = .stopped ∨ d.state = .tripped ∨ d.state = .float ∧ d.floatRunning = false →
          (t.pump p).charge = .none
          ∧ ((s.pump p).charge ≠ .none → .chargeRelease (.pump p) ∈ t.raised)
          ∧ ((t.pump p).lockout = true ↔ (s.pump p).lockout = true ∨ d.state = .tripped ∧ d.cause = .moisture)
          ∧ ((t.pump p).lockout = true → (t.pump p).state = .lockedOut)
          ∧ ((t.pump p).lockout = false → (s.pump p).disabled = true → (t.pump p).state = .unavailable .disabled)
          ∧ ((t.pump p).lockout = false → (s.pump p).disabled = false →
              (t.pump p).state = .off ∨ (t.pump p).state = .startWait)
          ∧ ((t.pump p).lockout = false → (s.pump p).disabled = false → d.state = .tripped ∨ Quiet s →
              (t.pump p).state = .off)
          ∧ (d.state = .tripped → (t.pump p).lastTrip = d.cause)))

/-- R44, R54, R65, R82, R83, R85: a refresh or a retry offers the command the pump's state holds: FLOAT in FLOAT; in STARTING
and RUNNING an AUTO pump's RUN at the staged speed, a MANUAL pump's RUN or REVERSE at its manual speed, or either at 100 for a
FIXED pump; no command in UNAVAILABLE(LOCAL) and UNAVAILABLE(NOT_FITTED); and otherwise STOP. With no room a refresh waits for
the next, and a retry for 1 s. While the interlock is set no RUN or REVERSE is built, and nothing is sent in its place: the
model's choice (log entry 15). -/
def Obligations.CommandsAreRepeated : Prop :=
  ∀ (p : Pump) (c : Instr) (s : State), s.live = true →
    (c = .refreshExpiry p ∧ due (s.pump p).refreshAt s.now = true
      ∨ c = .commandRetry p ∧ due (s.pump p).retryAt s.now = true) →
    (((s.pump p).state = .starting ∨ (s.pump p).state = .running) ∧ (s.pump p).interlock = true
        ∨ (s.pump p).state = .unavailable .localHand ∨ (s.pump p).state = .unavailable .notFitted →
      ∃ t, exec c s = .next t ∧ (t.pump p).state = (s.pump p).state ∧ t.lp = s.lp ∧ (t.pump p).count = (s.pump p).count
        ∧ (t.pump p).applied = (s.pump p).applied)
    ∧ ∀ (act : DriveAction) (speed : Nat),
    (((s.pump p).state = .float ∧ act = .float ∧ speed = 100)
      ∨ (((s.pump p).state = .starting ∨ (s.pump p).state = .running) ∧ (s.pump p).owner = .auto
          ∧ (s.pump p).interlock = false ∧ act = .run
          ∧ speed = if s.setup.isVariable p then (s.pump p).staged else 100)
      ∨ (((s.pump p).state = .starting ∨ (s.pump p).state = .running) ∧ (s.pump p).owner = .manual
          ∧ (s.pump p).interlock = false ∧ (act = .run ∨ act = .reverse)
          ∧ ∃ v, (s.pump p).manual = some (act, v) ∧ speed = if s.setup.isVariable p then v else 100)
      ∨ (((s.pump p).state = .off ∨ (s.pump p).state = .startWait ∨ (s.pump p).state = .stopping
            ∨ (s.pump p).state = .resting ∨ (s.pump p).state = .backoff ∨ (s.pump p).state = .lockedOut
            ∨ (s.pump p).state = .unavailable .noStatus ∨ (s.pump p).state = .unavailable .skipped
            ∨ (s.pump p).state = .unavailable .disabled) ∧ act = .stop ∧ speed = 100)) →
    ∃ t, exec c s = .next t ∧ (t.pump p).state = (s.pump p).state ∧
      if s.lp.control.length < 8 then
        t.lp.control = s.lp.control ++
            [⟨driveOf s p, s.lp.ownAddress, s.lp.ownSequence, .driveCmd act speed (s.pump p).count⟩]
          ∧ (t.pump p).count = (s.pump p).count + 1 ∧ (t.pump p).retryAt = none
          ∧ (t.pump p).refreshAt = some (s.now + s.setup.refreshPeriod.toNat * 1000)
          ∧ (t.pump p).applied = if (act = .run ∨ act = .reverse) ∧ s.setup.isVariable p = true then speed
              else (s.pump p).applied
      else t.lp = s.lp ∧ (t.pump p).count = (s.pump p).count ∧ (t.pump p).applied = (s.pump p).applied
        ∧ (c = .refreshExpiry p → (t.pump p).refreshAt = some (s.now + s.setup.refreshPeriod.toNat * 1000))
        ∧ (c = .commandRetry p → (t.pump p).retryAt = some (s.now + 1000))

/-- R70, R71, R99: a grant starts a pump in START_WAIT whose history has room, its start joining the Start History but in the
very millisecond of the newest entry, the model's choice (log entry 13), and is returned otherwise; a shed request stops an
AUTO pump that starts or runs, is met already by one that is stopping, and is declined by any other. -/
def Obligations.GrantsAndSheds : Prop :=
  ∀ (p : Pump) (s : State), s.live = true →
    (∃ t, exec (.pumpGrant p) s = .next t
      ∧ ((s.pump p).state = .startWait → (s.pump p).history.length < (s.setup.startsPerHour.get p).toNat →
          (t.pump p).state = .starting ∧ (t.pump p).charge = .start
          ∧ (t.pump p).startAt = some (s.now + (s.setup.startConfirm.get p).toNat * 1000)
          ∧ (t.pump p).history = appendStart (s.pump p).history s.now
          ∧ ((s.pump p).owner = .auto → (s.pump p).interlock = false → s.lp.control.length < 8 → ∃ f ∈ t.lp.control,
              f.destination = driveOf s p ∧ ∃ speed, f.payload = .driveCmd .run speed (s.pump p).count))
      ∧ ((s.pump p).state = .startWait → (s.setup.startsPerHour.get p).toNat ≤ (s.pump p).history.length →
          (t.pump p).state ≠ .starting ∧ .grantReturn (.pump p) ∈ t.raised)
      ∧ ((s.pump p).state ≠ .startWait → t.pump p = s.pump p ∧ .grantReturn (.pump p) ∈ t.raised))
    ∧ (∃ t, exec (.pumpShed p) s = .next t
      ∧ ((s.pump p).owner = .auto → (s.pump p).state = .starting ∨ (s.pump p).state = .running →
          (t.pump p).state = .stopping ∧ (t.pump p).stopAt = some (s.now + 30000)
          ∧ ((s.pump p).charge = .start → (t.pump p).charge = .none ∧ .grantReturn (.pump p) ∈ t.raised)
          ∧ ((s.pump p).charge = .running → (t.pump p).charge = .running ∧ .stopNotice p ∈ t.raised))
      ∧ ((s.pump p).state = .stopping → t.pump p = s.pump p)
      ∧ ((s.pump p).state ≠ .stopping →
          (s.pump p).owner ≠ .auto ∨ (s.pump p).state ≠ .starting ∧ (s.pump p).state ≠ .running →
          .shedDecline (.pump p) ∈ t.raised))

/-- R54, R61, R92, R144, R145, R146, R147, R172: a fallback entry puts every fitted pump of the well in FLOAT without a charge
and leaves no RUN or REVERSE for its drive in the CONTROL or the forward queue, the well asking for no pump (the demand of 0 is
the model's choice, log entry 6), and takes them out of SB's account and queue, a reserve kept for them. At an exit each pump
is taken as the notice names it, one named silent whose drive has reported since the exit then leaving NO_STATUS by that report
(the time at which it is taken is the model's, log entry 66), and SB gives the reserve up and charges every pump that the
notice names as adopted, or as local or silent and turning, of whatever well the setup has it by now; no other entry changes.
The model's choices: a RUN is built for an adopted pump even where its interlock is set, its command count rising by 2 with the
STOP that follows (log entry 15), and does not stay in a queue, nor does any other for a pump whose interlock is set; a named
pump that a switch has moved away since is left as it stands by DC, and the charge that SB records by its name is given back
(log entry 63). That a waiting forwarded DRIVE_CMD that begins with 1 or 3 counts as a RUN or REVERSE whatever the length of
its payload is the model's choice (log entry 73). -/
def Obligations.FallbackMovesPumps : Prop :=
  ∀ (w : Well) (names : PerPump (Option ExitName)) (s : State), s.live = true →
    (s.ssu.well.get w = .fallback → ∃ t, exec (.fallbackEntryDc w) s = .next t
      ∧ (∀ p, s.wellOf p = some w →
          (t.pump p).state = .float ∧ (t.pump p).owner = .float ∧ (t.pump p).charge = .none
          ∧ NoRunWaits t (driveOf s p))
      ∧ t.duty.levelDemand.get w = 0 ∧ t.duty.demand.get w = 0 ∧ t.duty.rotationDue.get w = false)
    ∧ (∃ t, exec (.fallbackExitDc w names) s = .next t
      ∧ (∀ p, s.wellOf p ≠ some w →
        (RunningLaw s → t.pump p = s.pump p)
        ∧ ((s.pump p).charge = .none →
            names.get p = some .adopted ∨ names.get p = some (.localHand true) ∨ names.get p = some (.silent true) →
            .chargeRelease (.pump p) ∈ t.raised))
      ∧ ∀ p, s.wellOf p = some w →
      ((t.pump p).interlock = true → NoRunWaits t (driveOf s p)
        ∧ (t.pump p).state ≠ .startWait ∧ (t.pump p).state ≠ .starting ∧ (t.pump p).state ≠ .running) ∧
      (names.get p = some .adopted → (t.pump p).charge = .running
          ∧ (t.pump p).owner = .auto ∧ ((t.pump p).state = .running ∨ (t.pump p).state = .stopping)
          ∧ s.now ∈ (t.pump p).history
          ∧ ((t.pump p).state = .running → s.lp.control.length ≤ 1 → (s.setup.pumpsOf w).length ≤ 4 →
              (∀ q, q ≠ p → driveOf s q ≠ driveOf s p) →
              ∃ f ∈ t.lp.control, f.destination = driveOf s p
                ∧ ∃ speed, f.payload = .driveCmd .run speed (s.pump p).count)
          ∧ ((s.well w).lowFloat = .on → s.lp.control = [] → (s.setup.pumpsOf w).length ≤ 4 →
              (t.pump p).state = .stopping ∧ (t.pump p).count = (s.pump p).count + 2))
      ∧ (∀ turning, names.get p = some (.localHand turning) → (t.pump p).state = .unavailable .localHand
          ∧ (t.pump p).charge = if turning then .external else .none)
      ∧ (∀ turning, names.get p = some (.silent turning) → (s.pump p).drive = .unknown →
          (t.pump p).state = .unavailable .noStatus
          ∧ (t.pump p).silentRunning = turning ∧ (t.pump p).charge = if turning then .external else .none)
      ∧ (∀ turning d x, names.get p = some (.silent turning) → (s.pump p).drive = .known d x →
        (d.state = .localHand → (t.pump p).state = .unavailable .localHand
          ∧ (t.pump p).charge = if d.floatRunning then .external else .none)
        ∧ (d.state = .running ∨ d.state = .starting ∨ d.state = .float ∧ d.floatRunning = true →
          (t.pump p).state = .stopping ∧ (t.pump p).owner = .auto ∧ (t.pump p).stopAt = some (s.now + 30000)
          ∧ (t.pump p).charge = (if turning then .external else .none)
          ∧ (turning = true → .stopNotice p ∈ t.raised))
        ∧ (d.state = .stopped ∨ d.state = .tripped ∨ d.state = .float ∧ d.floatRunning = false →
          (t.pump p).charge = .none ∧ (turning = true → .chargeRelease (.pump p) ∈ t.raised)
          ∧ ((t.pump p).lockout = true ↔ (s.pump p).lockout = true ∨ d.state = .tripped ∧ d.cause = .moisture)
          ∧ ((t.pump p).lockout = true → (t.pump p).state = .lockedOut)
          ∧ ((t.pump p).lockout = false → (s.pump p).disabled = true → (t.pump p).state = .unavailable .disabled)
          ∧ ((t.pump p).lockout = false → (s.pump p).disabled = false →
              (t.pump p).state = .off ∨ (t.pump p).state = .startWait)))
      ∧ (names.get p = some .stopped → (s.pump p).lockout = true → (t.pump p).state = .lockedOut)
      ∧ (names.get p = some .stopped → (s.pump p).lockout = false → (s.pump p).disabled = true →
          (t.pump p).state = .unavailable .disabled)
      ∧ (names.get p = some .stopped → (s.pump p).lockout = false → (s.pump p).disabled = false →
          (t.pump p).state = .off ∨ (t.pump p).state = .startWait))
    ∧ (∃ t, exec (.fallbackEntrySb w) s = .next t ∧ t.budget.reserve = s.budget.reserve.set w (reserveOf s.setup w)
      ∧ ∀ p, s.wellOf p = some w → t.budget.pumps.get p = ⟨.none, 0, false⟩
        ∧ ∀ q ∈ t.budget.queue, q.requester ≠ .pump p)
    ∧ (∃ t, exec (.fallbackExitSb w names) s = .next t ∧ t.budget.reserve = s.budget.reserve.set w 0
      ∧ ∀ p, (∀ q ∈ s.budget.queue, q.requester ≠ .pump p) →
        ((s.budget.pumps.get p).kind = .none → names.get p = some .adopted →
          t.budget.pumps.get p = ⟨.running, (s.setup.runWeight.get p).toNat, false⟩)
        ∧ ((s.budget.pumps.get p).kind = .none →
          names.get p = some (.localHand true) ∨ names.get p = some (.silent true) →
          t.budget.pumps.get p = ⟨.external, (s.setup.runWeight.get p).toNat, false⟩)
        ∧ ((s.budget.pumps.get p).kind ≠ .none ∨ names.get p = none ∨ names.get p = some .stopped
            ∨ names.get p = some (.localHand false) ∨ names.get p = some (.silent false) →
          t.budget.pumps.get p = s.budget.pumps.get p))

/-! ## SB -/

/-- R93, R95: a request of the standing one's rank keeps its place; any other joins behind its rank with the next arrival
number. The head is then granted for as long as its start weight fits, so that no grant takes the committed weight above the
capacity. That a grant sets an entry that is not NONE to START as well is the model's choice (log entry 80). -/
def Obligations.RequestsAreGranted : Prop :=
  ∀ (r : Requester) (cls : RequestClass) (s : State), s.live = true →
    (∀ q, standing s.budget r = some q → q.cls.rank = cls.rank → exec (.startRequest r cls) s = .next s)
    ∧ ((∀ q, standing s.budget r = some q → q.cls.rank ≠ cls.rank) →
      ∃ t before after granted, exec (.startRequest r cls) s = .next t
        ∧ s.budget.queue.filter (fun q => q.requester != r) = before ++ after
        ∧ before ++ ⟨r, cls, s.budget.arrivals⟩ :: after = granted ++ t.budget.queue
        ∧ (∀ q ∈ before, q.cls.rank ≤ cls.rank) ∧ (∀ q, after.head? = some q → cls.rank < q.cls.rank)
        ∧ t.budget.arrivals = s.budget.arrivals + 1
        ∧ t.raised = s.raised ++ granted.map (fun q => grantEvent q.requester)
        ∧ committed t.budget ≤ max (committed s.budget) (capacity s)
        ∧ (∀ q, t.budget.queue.head? = some q → capacity s < committed t.budget + startWeight s q.requester)
        ∧ (∀ q ∈ granted, entryOfReq t.budget q.requester = ⟨.start, startWeight s q.requester, false⟩)
        ∧ (∀ x, (∀ q ∈ granted, q.requester ≠ x) → entryOfReq t.budget x = entryOfReq s.budget x)
        ∧ t.budget.supply = s.budget.supply ∧ t.budget.reserve = s.budget.reserve)

/-- R90, R91, R92, R94, R99: what a message does to the entry it is about, no request of that requester waiting; with nobody
waiting it changes nothing else. A message that finds another entry than its row gives changes nothing: the model's choice
(log entry 23). -/
def Obligations.MessagesChangeTheAccount : Prop :=
  ∀ (r : Requester) (p : Pump) (s : State), s.live = true →
    ((∀ q ∈ s.budget.queue, q.requester ≠ r) →
      (∀ c, c = .chargeTransfer r ∨ c = .grantReturn r ∨ c = .chargeRelease r →
        ∃ t, exec c s = .next t
          ∧ entryOfReq t.budget r = (if c = .chargeTransfer r then
              if (entryOfReq s.budget r).kind = .start then
                ⟨.running, runWeight s r, (entryOfReq s.budget r).releasing⟩ else entryOfReq s.budget r
            else if c = .grantReturn r then
              if (entryOfReq s.budget r).kind = .start then ⟨.none, 0, false⟩ else entryOfReq s.budget r
            else if (entryOfReq s.budget r).kind = .none then entryOfReq s.budget r else ⟨.none, 0, false⟩)
          ∧ (s.budget.queue = [] → t.raised = s.raised ∧ t.budget.queue = []
            ∧ ∀ x, x ≠ r → entryOfReq t.budget x = entryOfReq s.budget x))
      ∧ exec (.requestWithdrawal r) s = .next s)
    ∧ (∃ t, exec (.requestWithdrawal r) s = .next t ∧ (∀ q ∈ t.budget.queue, q.requester ≠ r)
      ∧ ∃ granted, s.budget.queue.filter (fun q => q.requester != r) = granted ++ t.budget.queue
        ∧ t.raised = s.raised ++ granted.map (fun q => grantEvent q.requester))
    ∧ (∀ w, s.wellOf p = some w → s.ssu.well.get w = .fallback → ∀ b, exec (.externalCharge p b) s = .next s)
    ∧ ((∀ w, s.wellOf p = some w → s.ssu.well.get w ≠ .fallback) →
      exec (.externalCharge p true) s = .next (if (s.budget.pumps.get p).kind = .running then
          { s with budget := { s.budget with
              pumps := s.budget.pumps.set p { s.budget.pumps.get p with kind := .external } } } else s)
      ∧ exec (.externalCharge p false) s = .next (if (s.budget.pumps.get p).kind = .none then
          { s with budget := { s.budget with
              pumps := s.budget.pumps.set p ⟨.external, (s.setup.runWeight.get p).toNat, false⟩ } } else s))
    ∧ exec (.stopNotice p) s = .next (if (s.budget.pumps.get p).kind = .running ∨ (s.budget.pumps.get p).kind = .external then
        { s with budget := { s.budget with
            pumps := s.budget.pumps.set p { s.budget.pumps.get p with releasing := true } } } else s)
    ∧ ∃ (t : State) (shed : List Requester), exec (.shedDecline r) s = .next t ∧ t.raised = s.raised ++ shed.map shedEvent
      ∧ (∀ x ∈ shed, (entryOfReq t.budget x).releasing = true)
      ∧ (r ∉ shed → (entryOfReq t.budget r).releasing = false)
      ∧ committed t.budget = committed s.budget
      ∧ (committed t.budget ≤ capacity s + releasing t.budget ∨ candidates t = [])

/-- R88, R95, R97, R98: a report of the supply monitor changes the supply state. The candidates of a sweep are the rakes in a
cycle or a jam in screen order 3, 2, 1, then AUTO pumps in STARTING, then AUTO pumps in RUNNING, the wells in turn from B and
each from the tail of its Rotation List, all with an entry START or RUNNING that is not releasing. A smaller capacity is met by
shed requests in that order, each flagging its entry, until the weight not ordered off fits it or no candidate is left, and by
none beyond; the queue stands. A larger one is met by grants from the head of the queue, each charged at the start weight while
the committed weight then fits, until the head does not fit; an equal one by neither. No other entry changes, and the record
tells both. That a grant sets an entry that is not NONE to START as well is the model's choice (log entry 80). -/
def Obligations.SupplyChanges : Prop :=
  ∀ (src : Addr) (v : Supply) (s : State), s.live = true →
    ShedOrder s (candidates s)
    ∧ exec (.supplyStat src none) s = .next s
    ∧ ((src : Int) ≠ s.setup.supplyMonitor → exec (.supplyStat src (some v)) s = .next s)
    ∧ (v = .unknown ∨ v = s.budget.supply → exec (.supplyStat src (some v)) s = .next s)
    ∧ ((src : Int) = s.setup.supplyMonitor → v ≠ .unknown → v ≠ s.budget.supply →
      ∃ (t : State) (shed granted : List Requester), exec (.supplyStat src (some v)) s = .next t
        ∧ t = { s with budget := t.budget, raised := t.raised }
        ∧ t.budget.supply = v ∧ t.budget.reserve = s.budget.reserve ∧ t.budget.arrivals = s.budget.arrivals
        ∧ t.raised = s.raised ++ shed.map shedEvent ++ granted.map grantEvent ++
            [.recordSubmission (.supplyChange s.budget.supply v (capacityOf s.setup v) (committed t.budget)
              (shed.filter isRake).length (shed.filter (fun x => !(isRake x))).length)]
        ∧ (∀ x ∈ shed, entryOfReq t.budget x = { entryOfReq s.budget x with releasing := true })
        ∧ (∀ x ∈ granted, entryOfReq t.budget x = ⟨.start, startWeight s x, false⟩)
        ∧ (∀ x, x ∉ shed → x ∉ granted → entryOfReq t.budget x = entryOfReq s.budget x)
        ∧ (capacityOf s.setup v < capacity s → granted = [] ∧ t.budget.queue = s.budget.queue
          ∧ committed t.budget = committed s.budget ∧ shed <+: candidates s
          ∧ (committed t.budget ≤ capacity t + releasing t.budget ∨ shed = candidates s)
          ∧ ∀ k b, k < shed.length →
            (∀ x, entryOfReq b x = if x ∈ shed.take k then { entryOfReq s.budget x with releasing := true }
              else entryOfReq s.budget x) →
            capacity t + releasing b < committed s.budget)
        ∧ (capacity s < capacityOf s.setup v → shed = []
          ∧ s.budget.queue.map (·.requester) = granted ++ t.budget.queue.map (·.requester)
          ∧ t.budget.queue = s.budget.queue.drop granted.length
          ∧ committed t.budget ≤ max (committed s.budget) (capacity t)
          ∧ (∀ k x b, granted[k]? = some x → b.reserve = s.budget.reserve →
            (∀ y, entryOfReq b y = if y ∈ granted.take k then ⟨.start, startWeight s y, false⟩
              else entryOfReq s.budget y) →
            committed b + startWeight s x ≤ capacity t)
          ∧ ∀ q, t.budget.queue.head? = some q → capacity t < committed t.budget + startWeight s q.requester)
        ∧ (capacityOf s.setup v = capacity s → shed = [] ∧ granted = [] ∧ t.budget.queue = s.budget.queue))

/-! ## SC -/

/-- R5, R102, R104, R106, R113, R119: the differential follows the upstream level of the update, or of the channel at a
delivery, and the well level while both are GOOD, and is kept, not GOOD, otherwise, where it starts no rake but still sets the
class of a request and counts toward blinding. A differential at the start differential queues a parked rake at the class its
size gives, but is passed over under the local hold and while the home quantity is LOST or unmapped, and a waiting request is
moved when its class changes; a home quantity that becomes GOOD is such an evaluation, and a notice of another quality leaves
the rake as it stands (the model's choice, log entry 55). A rake that is JAMMED or OUT_OF_SERVICE is blinded from its blinding
differential. -/
def Obligations.DifferentialQueuesRakes : Prop :=
  ∀ (k : Screen) (s : State), s.live = true →
    (∀ c u level d cls,
      ((∃ x, c = .upstreamLevelUpdate k x ∧ x.value = some u ∧ x.quality = .good
            ∧ (s.well (screenWell k)).level = some level ∧ (s.well (screenWell k)).quality = .good)
          ∧ d = (u - level).toNat
        ∨ (∃ x, c = .wellRecordDeliverySc (screenWell k) x ∧ x.level = some level ∧ x.quality = .good)
          ∧ (s.chan (upstreamOf k)).value = some u ∧ (s.chan (upstreamOf k)).quality = .good ∧ d = (u - level).toNat
        ∨ (∃ x, c = .homeQualityNotice k x ∧ x.quality = .good) ∧ (s.screen k).differentialGood = true
          ∧ (s.screen k).differential = d) →
      (cls = if s.setup.criticalDiff.get k ≤ (d : Int) then .criticalRake else .rake) →
      ∃ t, exec c s = .next t ∧ (t.screen k).differential = d ∧ (t.screen k).differentialGood = true
        ∧ ((s.screen k).state = .parked → (s.screen k).localHold = false →
            (s.chan (homeOf k)).quality ≠ .lost → (entryFor s (homeOf k)).isSome →
            if s.setup.rakeStartDiff.get k ≤ (d : Int) then
              (t.screen k).state = .queued ∧ (t.screen k).consecutive = 0 ∧ (t.screen k).requestClass = some cls
                ∧ .startRequest (.rake k) cls ∈ t.raised
            else (t.screen k).state = .parked)
        ∧ ((s.screen k).state = .parked → (s.screen k).localHold = true ∨ (s.chan (homeOf k)).quality = .lost
              ∨ entryFor s (homeOf k) = none →
            (t.screen k).state = .parked ∧ (t.screen k).consecutive = (s.screen k).consecutive
              ∧ (t.screen k).requestClass = (s.screen k).requestClass
              ∧ ∀ x, .startRequest (.rake k) x ∈ t.raised → .startRequest (.rake k) x ∈ s.raised)
        ∧ ((s.screen k).state = .queued ∨ (s.screen k).state = .shed →
            (t.screen k).state = (s.screen k).state ∧ (t.screen k).requestClass = some cls
              ∧ ((s.screen k).requestClass ≠ some cls → .startRequest (.rake k) cls ∈ t.raised))
        ∧ ((s.screen k).state = .jammed ∨ (s.screen k).state = .outOfService →
            (t.screen k).state = (s.screen k).state
              ∧ (t.screen k).blinded = decide (s.setup.blindingDiff.get k ≤ (d : Int))
              ∧ ((s.screen k).blinded ≠ (t.screen k).blinded → .blindedChange k (t.screen k).blinded ∈ t.raised)))
    ∧ (∀ c cls,
      ((∃ x, c = .upstreamLevelUpdate k x ∧ (x.quality ≠ .good ∨ x.value = none
            ∨ (s.well (screenWell k)).quality ≠ .good ∨ (s.well (screenWell k)).level = none))
        ∨ ∃ x, c = .wellRecordDeliverySc (screenWell k) x ∧ (x.quality ≠ .good ∨ x.level = none
            ∨ (s.chan (upstreamOf k)).quality ≠ .good ∨ (s.chan (upstreamOf k)).value = none)) →
      (cls = if s.setup.criticalDiff.get k ≤ ((s.screen k).differential : Int) then .criticalRake else .rake) →
      ∃ t, exec c s = .next t
        ∧ (t.screen k).differential = (s.screen k).differential ∧ (t.screen k).differentialGood = false
        ∧ (t.screen k).state = (s.screen k).state
        ∧ ((s.screen k).state = .parked → (t.screen k).requestClass = (s.screen k).requestClass
            ∧ ∀ x, .startRequest (.rake k) x ∈ t.raised → .startRequest (.rake k) x ∈ s.raised)
        ∧ ((s.screen k).state = .queued ∨ (s.screen k).state = .shed → (t.screen k).requestClass = some cls
            ∧ ((s.screen k).requestClass ≠ some cls → .startRequest (.rake k) cls ∈ t.raised))
        ∧ ((s.screen k).state = .jammed ∨ (s.screen k).state = .outOfService →
            (t.screen k).blinded = decide (s.setup.blindingDiff.get k ≤ ((s.screen k).differential : Int))
              ∧ ((s.screen k).blinded ≠ (t.screen k).blinded → .blindedChange k (t.screen k).blinded ∈ t.raised)))
    ∧ (∀ x, x.quality ≠ .good → ∃ t, exec (.homeQualityNotice k x) s = .next t
        ∧ t.screen k = { s.screen k with blinded := (t.screen k).blinded } ∧ t.lp = s.lp
        ∧ ∀ j, j ≠ k → t.screen j = s.screen j)

/-- R107 to R112: a grant starts a waiting rake's cycle with the deadline of its phase; leaving home begins the capture and
confirms the start; coming home completes the cycle, and the rake runs on or parks and releases its charge. A captured cycle
gives its time to the statistics: the last, the least and the greatest, the baseline of the first eight, and then the run of
slow cycles, whose third submits WEAR once. A cycle without a capture leaves the statistics. -/
def Obligations.RakeCycles : Prop :=
  ∀ (k : Screen) (at_ : Ms) (s : State), s.live = true →
    ((s.screen k).state = .queued ∨ (s.screen k).state = .shed → ∃ t, exec (.rakeGrant k) s = .next t
      ∧ (t.screen k).state = .cycling ∧ (t.screen k).charge = .start ∧ (t.screen k).requestClass = none
      ∧ (t.screen k).cycleStart = some s.now
      ∧ (if (s.chan (homeOf k)).value = some 1 then (t.screen k).phase = some .leaving ∧ (t.screen k).cycleAt = none
            ∧ (t.screen k).leaveAt = some (s.now + (s.setup.leaveTime.get k).toNat * 1000)
          else (t.screen k).phase = some .returning ∧ (t.screen k).leaveAt = none
            ∧ (t.screen k).cycleAt = some (s.now + (s.setup.maxCycle.get k).toNat * 1000))
      ∧ ((s.screen k).localHold = false → s.lp.control.length < 8 → t.lp.control = s.lp.control ++
          [⟨rakeDriveOf s k, s.lp.ownAddress, s.lp.ownSequence, .driveCmd .run 100 (s.screen k).count⟩]))
    ∧ ((s.screen k).state ≠ .queued → (s.screen k).state ≠ .shed → ∃ t, exec (.rakeGrant k) s = .next t
      ∧ (t.screen k).state = (s.screen k).state ∧ .grantReturn (.rake k) ∈ t.raised)
    ∧ ((s.screen k).state = .cycling → (s.screen k).phase = some .leaving → ∃ t, exec (.homeOffEdge k at_) s = .next t
      ∧ (t.screen k).state = .cycling ∧ (t.screen k).phase = some .returning
      ∧ (t.screen k).captureStart = some at_ ∧ (t.screen k).leaveAt = none
      ∧ (t.screen k).cycleAt = some (at_ + (s.setup.maxCycle.get k).toNat * 1000)
      ∧ ((s.screen k).charge = .start → (t.screen k).charge = .running ∧ .chargeTransfer (.rake k) ∈ t.raised))
    ∧ ((s.screen k).state = .cycling → (s.screen k).phase = some .returning →
      ∃ t, exec (.homeOnEdge k at_) s = .next t
        ∧ (t.screen k).cyclesThisHour = satInc 65535 (s.screen k).cyclesThisHour
        ∧ (t.screen k).intervalAt = some (s.now + intervalMs s.setup s.ssu.state)
        ∧ (∀ c x n, (s.screen k).captureStart = some c → x = at_ - c → n = satInc 3 (s.screen k).slowRun →
          (t.screen k).lastCycle = some x
          ∧ (t.screen k).minCycle = some (min x ((s.screen k).minCycle.getD x))
          ∧ (t.screen k).maxCycle = some (max x ((s.screen k).maxCycle.getD x))
          ∧ (if (s.screen k).baselineCount < 8 then
              (t.screen k).baselineSum = (s.screen k).baselineSum + x
                ∧ (t.screen k).baselineCount = (s.screen k).baselineCount + 1
                ∧ (t.screen k).baseline = if (s.screen k).baselineCount = 7 then some (((s.screen k).baselineSum + x) / 8)
                    else (s.screen k).baseline
            else (t.screen k).baselineSum = (s.screen k).baselineSum
              ∧ (t.screen k).baselineCount = (s.screen k).baselineCount ∧ (t.screen k).baseline = (s.screen k).baseline)
          ∧ ((s.screen k).baseline = none →
              (t.screen k).slowRun = (s.screen k).slowRun ∧ (t.screen k).wearReported = (s.screen k).wearReported)
          ∧ (∀ b, (s.screen k).baseline = some b →
              if 5 * b < 4 * x then (t.screen k).slowRun = n
                ∧ ((t.screen k).wearReported = true ↔ (s.screen k).wearReported = true ∨ n = 3)
                ∧ (n = 3 → (s.screen k).wearReported = false → .recordSubmission (.wear k b x) ∈ t.raised)
              else (t.screen k).slowRun = 0 ∧ (t.screen k).wearReported = false))
        ∧ ((s.screen k).captureStart = none → (t.screen k).lastCycle = (s.screen k).lastCycle
          ∧ (t.screen k).minCycle = (s.screen k).minCycle ∧ (t.screen k).maxCycle = (s.screen k).maxCycle
          ∧ (t.screen k).baselineSum = (s.screen k).baselineSum ∧ (t.screen k).baselineCount = (s.screen k).baselineCount
          ∧ (t.screen k).baseline = (s.screen k).baseline ∧ (t.screen k).slowRun = (s.screen k).slowRun
          ∧ (t.screen k).wearReported = (s.screen k).wearReported)
        ∧ (if (s.screen k).differentialGood = true ∧ s.setup.stopDiff.get k ≤ ((s.screen k).differential : Int)
              ∧ satInc 8 (s.screen k).consecutive < 8 then
            (t.screen k).state = .cycling ∧ (t.screen k).charge = (s.screen k).charge
              ∧ (t.screen k).consecutive = satInc 8 (s.screen k).consecutive ∧ t.lp = s.lp
          else (t.screen k).state = .parked ∧ (t.screen k).charge = .none ∧ (t.screen k).consecutive = 0
            ∧ (t.screen k).jams = 0
            ∧ ((s.screen k).charge ≠ .none → .chargeRelease (.rake k) ∈ t.raised)))

/-- R113, R114, R115: a cycle that outlasts a deadline, or a trip of its drive by OVERLOAD, is a jam: the rake reverses while
its jams are below the limit, and is given up at it; a reverse ends in a pause, when its time has passed, at home, or by a trip
of its drive by OVERLOAD, which adds no jam, and a pause in the next cycle. A rake that leaves home in PARKED or QUEUED without
the local hold is reported as moving uncommanded, and the other edges outside a cycle leave the rake's state. That an edge off
home in a cycle that returns already confirms the start alone is the model's choice (log entry 71). That bits 7 to 1 of the
flags byte of a report are ignored is the model's choice (log entry 77). -/
def Obligations.JamsReverseRakes : Prop :=
  ∀ (k : Screen) (n : Nat) (at_ : Ms) (overloads : Instr → Prop) (s : State), s.live = true →
    (∀ c, overloads c ↔ ∃ src payload d, c = .rakeDriveStat src payload ∧ screenAtDrive s src = some k
      ∧ driveReportOf payload = some d ∧ d.state = .tripped ∧ d.cause = .overload) →
    (∀ c cause, (c = .leaveDeadlineExpiry k ∧ due (s.screen k).leaveAt s.now = true
          ∧ (s.screen k).phase = some .leaving ∧ cause = .noLeave
        ∨ c = .cycleDeadlineExpiry k ∧ due (s.screen k).cycleAt s.now = true
          ∧ (s.screen k).phase = some .returning ∧ cause = .cycleTime
        ∨ overloads c ∧ cause = .overload) →
      (s.screen k).state = .cycling → n = satInc 8 (s.screen k).jams →
      ∃ t, exec c s = .next t ∧ (t.screen k).jams = n ∧ (t.screen k).lastJam = cause ∧ (t.screen k).phase = none
        ∧ (t.screen k).leaveAt = none ∧ (t.screen k).cycleAt = none ∧ (t.screen k).captureStart = none
        ∧ (t.screen k).consecutive = (s.screen k).consecutive
        ∧ ((s.screen k).localHold = false → s.lp.control.length < 8 → t.lp.control = s.lp.control ++
            [⟨rakeDriveOf s k, s.lp.ownAddress, s.lp.ownSequence,
              .driveCmd (if n < (s.setup.jamLimit.get k).toNat then .reverse else .stop) 100 (s.screen k).count⟩])
        ∧ (if n < (s.setup.jamLimit.get k).toNat then (t.screen k).state = .jamReverse
              ∧ (t.screen k).charge = (s.screen k).charge
              ∧ (t.screen k).jamAt = some (s.now + (s.setup.reverseTime.get k).toNat * 1000)
            else (t.screen k).state = .jammed ∧ (t.screen k).charge = .none ∧ (t.screen k).jamAt = none
              ∧ .recordSubmission (.screenJam k n cause) ∈ t.raised
              ∧ ((s.screen k).charge ≠ .none → .chargeRelease (.rake k) ∈ t.raised)))
    ∧ (∀ c, c = .reverseEnd k ∧ due (s.screen k).jamAt s.now = true ∨ c = .homeOnEdge k at_ ∨ overloads c →
      (s.screen k).state = .jamReverse →
      ∃ t, exec c s = .next t ∧ (t.screen k).state = .jamPause
        ∧ (t.screen k).jamAt = some (s.now + (s.setup.pauseTime.get k).toNat * 1000)
        ∧ (t.screen k).charge = (s.screen k).charge ∧ (t.screen k).jams = (s.screen k).jams
        ∧ (t.screen k).lastJam = (s.screen k).lastJam
        ∧ ((s.screen k).localHold = false → s.lp.control.length < 8 → t.lp.control = s.lp.control ++
            [⟨rakeDriveOf s k, s.lp.ownAddress, s.lp.ownSequence, .driveCmd .stop 100 (s.screen k).count⟩]))
    ∧ ((s.screen k).state = .jamPause → due (s.screen k).jamAt s.now = true →
      ∃ t, exec (.pauseEnd k) s = .next t ∧ (t.screen k).state = .cycling ∧ (t.screen k).jamAt = none
        ∧ (t.screen k).cycleStart = some s.now ∧ (t.screen k).charge = (s.screen k).charge)
    ∧ ((s.screen k).state = .parked ∨ (s.screen k).state = .queued →
      ∃ t, exec (.homeOffEdge k at_) s = .next t ∧ t = { s with screens := t.screens, raised := t.raised }
        ∧ t.screen k = { s.screen k with blinded := false } ∧ (∀ j, j ≠ k → t.screen j = s.screen j)
        ∧ t.raised = s.raised
          ++ (if (s.screen k).localHold then [] else [.recordSubmission (.uncommandedMotion k)])
          ++ if (s.screen k).blinded then [.blindedChange k false] else [])
    ∧ (∀ c, c = .homeOffEdge k at_ ∧ ((s.screen k).state = .jamReverse
            ∨ (s.screen k).state = .cycling ∧ (s.screen k).phase = some .returning)
          ∨ c = .homeOnEdge k at_ ∧ ((s.screen k).state = .parked ∨ (s.screen k).state = .queued)
          ∨ (c = .homeOffEdge k at_ ∨ c = .homeOnEdge k at_) ∧ ((s.screen k).state = .shed
            ∨ (s.screen k).state = .jamPause ∨ (s.screen k).state = .jammed ∨ (s.screen k).state = .outOfService) →
      ∃ t, exec c s = .next t ∧ t.lp = s.lp
        ∧ t.screen k = { s.screen k with charge := (t.screen k).charge, blinded := (t.screen k).blinded }
        ∧ ((s.screen k).charge ≠ .start → (t.screen k).charge = (s.screen k).charge))

/-- R101, R103, R104, R105, R108, R116, R117: a report of RUNNING confirms a rake's start, a LOCAL one sets the hold and ends
what the rake does, and a fault gives it up; a shed rake stops, releases its charge and asks again; an interval timer restarts
and, in PARKED, triggers, but under the local hold or with the home quantity LOST or unmapped; a change to STORM shortens the
intervals; a refresh or a retry offers the state's command; the hour's end clears the cycles of the hour. That bits 7 to 1 of
the flags byte of a report are ignored is the model's choice (log entry 77). -/
def Obligations.RakeReportsAndTimers : Prop :=
  ∀ (k : Screen) (src : Addr) (payload : List Byte) (d : DriveReport) (s : State), s.live = true →
    (screenAtDrive s src = some k → driveReportOf payload = some d →
      ∃ t, exec (.rakeDriveStat src payload) s = .next t ∧ (t.screen k).drive = .known d s.now
        ∧ (d.state = .running → (s.screen k).charge = .start →
            (s.screen k).state = .cycling ∨ (s.screen k).state = .jamReverse ∨ (s.screen k).state = .jamPause →
            (t.screen k).charge = .running ∧ (t.screen k).state = (s.screen k).state
              ∧ .chargeTransfer (.rake k) ∈ t.raised)
        ∧ (d.state = .tripped → d.cause ≠ .overload →
            (s.screen k).state = .cycling ∨ (s.screen k).state = .jamReverse ∨ (s.screen k).state = .jamPause →
            (t.screen k).state = .jammed ∧ (t.screen k).charge = .none ∧ (t.screen k).lastJam = .fault d.cause
              ∧ .recordSubmission (.screenJam k (s.screen k).jams (.fault d.cause)) ∈ t.raised)
        ∧ (d.state = .localHand → (t.screen k).localHold = true ∧ (t.screen k).refreshAt = none
            ∧ ((s.screen k).state = .queued ∨ (s.screen k).state = .shed →
              (t.screen k).state = .parked ∧ (t.screen k).requestClass = none
                ∧ .requestWithdrawal (.rake k) ∈ t.raised)
            ∧ ((s.screen k).state = .cycling → (t.screen k).state = .parked ∧ (t.screen k).charge = .none)))
    ∧ (∃ t, exec (.rakeShed k) s = .next t
      ∧ ((s.screen k).charge = .none → (t.screen k).state = (s.screen k).state ∧ .shedDecline (.rake k) ∈ t.raised)
      ∧ ((s.screen k).charge ≠ .none → (t.screen k).state = .shed ∧ (t.screen k).charge = .none
          ∧ .chargeRelease (.rake k) ∈ t.raised
          ∧ ∃ cls, (t.screen k).requestClass = some cls ∧ .startRequest (.rake k) cls ∈ t.raised))
    ∧ (due (s.screen k).intervalAt s.now = true → ∃ t, exec (.intervalTimerExpiry k) s = .next t
      ∧ (t.screen k).intervalAt = some (s.now + intervalMs s.setup s.ssu.state)
      ∧ ((s.screen k).state = .parked → (s.screen k).localHold = false →
          (s.chan (homeOf k)).quality ≠ .lost → (entryFor s (homeOf k)).isSome →
          (t.screen k).state = .queued ∧ ∃ cls, .startRequest (.rake k) cls ∈ t.raised)
      ∧ ((s.screen k).state = .parked → (s.screen k).localHold = true ∨ (s.chan (homeOf k)).quality = .lost
            ∨ entryFor s (homeOf k) = none →
          (t.screen k).state = .parked ∧ (t.screen k).consecutive = (s.screen k).consecutive
            ∧ (t.screen k).requestClass = (s.screen k).requestClass
            ∧ ∀ x, .startRequest (.rake k) x ∈ t.raised → .startRequest (.rake k) x ∈ s.raised)
      ∧ ((s.screen k).state ≠ .parked → (t.screen k).state = (s.screen k).state ∧ t.lp = s.lp))
    ∧ (∀ st, ∃ t, exec (.stationStateToSc st) s = .next t ∧ (st = .dry → t = s)
      ∧ (st = .storm → ∀ x, (t.screen x).intervalAt =
          (s.screen x).intervalAt.map fun e => min e (s.now + intervalMs s.setup .storm)))
    ∧ (∀ c, (c = .rakeRefreshExpiry k ∧ due (s.screen k).refreshAt s.now = true
          ∨ c = .rakeCommandRetry k ∧ due (s.screen k).retryAt s.now = true) → (s.screen k).localHold = false →
      ∃ t, exec c s = .next t ∧ (t.screen k).state = (s.screen k).state ∧
        if s.lp.control.length < 8 then
          t.lp.control = s.lp.control ++ [⟨rakeDriveOf s k, s.lp.ownAddress, s.lp.ownSequence,
              .driveCmd (if (s.screen k).state = .cycling then .run
                else if (s.screen k).state = .jamReverse then .reverse else .stop) 100 (s.screen k).count⟩]
            ∧ (t.screen k).count = (s.screen k).count + 1 ∧ (t.screen k).retryAt = none
        else t.lp = s.lp ∧ (t.screen k).count = (s.screen k).count)
    ∧ (∀ e, s.hourAt = some e → e ≤ s.now →
      exec .hourTimerExpiry s = .next { s with
        hourAt := some (e + 3600000)
        screens := ⟨{ s.screens.s1 with cyclesThisHour := 0 }, { s.screens.s2 with cyclesThisHour := 0 },
          { s.screens.s3 with cyclesThisHour := 0 }⟩ })

/-! ## OA -/

/-- R122, R124 to R130, R133, R134: a stored GOOD sample of a point, at head `h`: its flow by the curve in force, which is the
new one from the sample that takes a pending switch on; what its interval adds to a slot (`V` litres, `A` left over, `D` ms),
the peaks and the quality flags; and the step of the spill state. A notice of another quality breaks the run, opens a gap in
the slot and takes a pending switch when it says LOST or SUSPECT; a GOOD one without a stored sample changes nothing. -/
def Obligations.SpillStatesFollowSamples : Prop :=
  ∀ (o : Point) (s : State), s.live = true →
    (∀ (u : ChannelUpdate) (level h : Int) (time flow D : Nat) (est : Bool) (curve : Option (Nat × List Nat)),
      u.stored = true → u.quality = .good → u.value = some level → u.storedAt = some time →
      h = level - s.setup.crest.get o →
      curve = (if weirScheduled s then some (s.tables.weir.inactive.steps.get o, weirFlows s.tables.weir.inactive o)
        else if s.tables.weir.isEmpty then none
        else some (s.tables.weir.active.steps.get o, weirFlows s.tables.weir.active o)) →
      (match curve with
        | none => flow = 0 ∧ est = true
        | some (hw, W) =>
          if h ≤ s.setup.deadBand.get o then flow = 0 ∧ est = false
          else if 16 * (hw : Int) ≤ h then flow = W.getD 16 0 ∧ est = decide (16 * (hw : Int) < h)
          else est = false ∧ ∃ i f : Nat, h = hw * i + f ∧ f < hw
            ∧ flow = W.getD i 0 + (W.getD (i + 1) 0 - W.getD i 0) * f / hw) →
      D = (match (s.point o).previous with
        | some x => time - x.2
        | none => 0) →
      ∃ t, exec (.overflowLevelUpdate o u) s = .next t
        ∧ (t.point o).previous = some (flow, time) ∧ (t.point o).pendingSwitch = false
        ∧ (∀ other, other ≠ o → t.point other = s.point other)
        ∧ ((s.point o).spill = .dry → (s.point o).slot = none →
          (t.point o).cumulative = (s.point o).cumulative ∧ (t.point o).unconfirmed = (s.point o).unconfirmed
          ∧ if s.setup.deadBand.get o < h then
              (t.point o).spill = .tentative ∧ .spillStateDelivery o .tentative ∈ t.raised
              ∧ (t.point o).slot = some {
                  number := none, start := time, stop := none, volume := 0, accumulator := 0, peakFlow := flow, peakHead := h
                  lastSpill := time, confirmClock := 0, causes := joinCauses .clear (causesNow s o)
                  flags := { gap := false, estimated := est, tableChanged := false }, gapOpen := false }
            else (t.point o).spill = .dry ∧ (t.point o).slot = none)
        ∧ (∀ x y V A, (s.point o).spill ≠ .dry → (s.point o).slot = some x →
          (match (s.point o).previous with
            | some b => V = (x.accumulator + (b.1 + flow) * min D 10000) / 2000
                ∧ A = (x.accumulator + (b.1 + flow) * min D 10000) % 2000
            | none => V = 0 ∧ A = x.accumulator) →
          y = { x with
            volume := x.volume + V, accumulator := A, gapOpen := false, causes := joinCauses x.causes (causesNow s o)
            lastSpill := if s.setup.deadBand.get o < h then time else x.lastSpill
            peakFlow := if s.setup.deadBand.get o < h then max x.peakFlow flow else x.peakFlow
            peakHead := if s.setup.deadBand.get o < h then max x.peakHead h else x.peakHead
            flags := { gap := x.flags.gap || x.gapOpen
                       estimated := x.flags.estimated || est || decide (10000 < D)
                       tableChanged := x.flags.tableChanged || (s.point o).pendingSwitch } } →
          (t.point o).cumulative = (s.point o).cumulative + V
          ∧ (t.point o).unconfirmed = (s.point o).unconfirmed +
              (if (s.point o).spill = .tentative ∧ h ≤ s.setup.deadBand.get o then x.volume + V else 0)
          ∧ if s.setup.deadBand.get o < h then
              ((s.point o).spill = .tentative →
                if (s.setup.openConfirm.get o).toNat * 1000 ≤ x.confirmClock + D then
                  (t.point o).spill = .open_ ∧ (t.point o).events = (s.point o).events + 1
                    ∧ (t.point o).slot = some { y with number := some ((s.point o).events + 1), confirmClock := 0 }
                    ∧ .spillStateDelivery o .open_ ∈ t.raised
                    ∧ .recordSubmission (.overflowOpen o ((s.point o).events + 1) (stationSeconds s x.start) y.peakFlow
                        y.peakHead y.volume y.causes) ∈ t.raised
                else (t.point o).spill = .tentative
                  ∧ (t.point o).slot = some { y with confirmClock := x.confirmClock + D })
              ∧ ((s.point o).spill = .open_ → (t.point o).spill = .open_ ∧ (t.point o).slot = some y)
              ∧ ((s.point o).spill = .closing → (t.point o).spill = .open_ ∧ .spillStateDelivery o .open_ ∈ t.raised
                ∧ (t.point o).slot = some { y with stop := none, confirmClock := 0 })
            else
              ((s.point o).spill = .tentative → (t.point o).spill = .dry ∧ (t.point o).slot = none
                ∧ .spillStateDelivery o .dry ∈ t.raised)
              ∧ ((s.point o).spill = .open_ → (t.point o).spill = .closing ∧ .spillStateDelivery o .closing ∈ t.raised
                ∧ (t.point o).slot = some { y with stop := some x.lastSpill, confirmClock := D })
              ∧ ((s.point o).spill = .closing →
                if (s.setup.closeConfirm.get o).toNat * 1000 ≤ x.confirmClock + D then
                  (t.point o).spill = .dry ∧ (t.point o).slot = none ∧ .spillStateDelivery o .dry ∈ t.raised
                    ∧ ∀ n e, x.number = some n → x.stop = some e →
                      .recordSubmission (.overflowClose o n (stationSeconds s x.start) (stationSeconds s e) y.volume
                        y.peakFlow y.peakHead y.causes y.flags) ∈ t.raised
                else (t.point o).spill = .closing
                  ∧ (t.point o).slot = some { y with confirmClock := x.confirmClock + D })))
    ∧ (∀ u, u.quality = .good → u.stored = false ∨ u.value = none → exec (.overflowLevelUpdate o u) s = .next s)
    ∧ (∀ u took, u.quality ≠ .good →
        took = ((s.point o).pendingSwitch && (u.quality == .lost || u.quality == .suspect)) →
        ∃ t, exec (.overflowLevelUpdate o u) s = .next t ∧ (∀ other, other ≠ o → t.point other = s.point other)
          ∧ t.point o = { s.point o with
              previous := none, pendingSwitch := (s.point o).pendingSwitch && !took
              slot := (s.point o).slot.map fun x => { x with
                gapOpen := true, flags := { x.flags with tableChanged := x.flags.tableChanged || took }
                causes := joinCauses { x.causes with sensorDegraded := true } (causesNow s o) } })

/-- R126, R127, R129, R132: no litre is lost: what a sample adds to the cumulative litres goes into the slot, and a slot's
volume leaves it for the unconfirmed litres or for an OVERFLOW_CLOSE record. That the litres have no cap is the model's choice
(log entry 36). -/
def Obligations.LitresAreAccounted : Prop :=
  ∀ (o : Point) (u : ChannelUpdate) (s : State), s.live = true → ((s.point o).spill = .dry → (s.point o).slot = none) →
    ∃ t closed, exec (.overflowLevelUpdate o u) s = .next t
      ∧ (t.point o).cumulative + (((s.point o).slot.map (·.volume)).getD 0 + (s.point o).unconfirmed)
        = (s.point o).cumulative + (((t.point o).slot.map (·.volume)).getD 0 + (t.point o).unconfirmed) + closed
      ∧ (s.point o).cumulative ≤ (t.point o).cumulative ∧ (s.point o).unconfirmed ≤ (t.point o).unconfirmed
      ∧ (closed = 0 ∨ ∃ n start stop peak head causes flags,
          .recordSubmission (.overflowClose o n start stop closed peak head causes flags) ∈ t.raised)
      ∧ ∀ other, other ≠ o → (t.point other).cumulative = (s.point other).cumulative
        ∧ (t.point other).unconfirmed = (s.point other).unconfirmed
        ∧ (t.point other).slot = (s.point other).slot

/-- R131: a delivery of a well, of its record or of its state, evaluates the cause flags of its point's slot: each flag is set
where its condition holds, and none is cleared. Every condition is read as its owner holds it when OA handles the delivery,
the well state too: the model's choice (log entry 21). -/
def Obligations.CausesAreKept : Prop :=
  ∀ (w : Well) (c : Instr) (x : Slot) (s : State), s.live = true →
    (s.point (pointOfWell w)).slot = some x →
    ((∃ d, c = .wellRecordDeliveryOa w d) ∨ ∃ st, c = .wellStateToOa w st) →
    ∃ t y, exec c s = .next t
      ∧ (t.point (pointOfWell w)).slot = some { x with causes := y }
      ∧ (y.allPumpsRunning = true ↔
          x.causes.allPumpsRunning = true ∨ commandedRunning s w = (s.setup.maxRunning.get w).toNat)
      ∧ (y.pumpsUnavailable = true ↔ x.causes.pumpsUnavailable = true
          ∨ ∃ p, s.wellOf p = some w ∧ ((s.pump p).state = .lockedOut ∨ (s.pump p).state = .backoff
            ∨ ∃ why, why ≠ .notFitted ∧ (s.pump p).state = .unavailable why))
      ∧ (y.tideLocked = true ↔ x.causes.tideLocked = true ∨ s.ssu.tideLock = true)
      ∧ (y.screenBlinded = true ↔ x.causes.screenBlinded = true ∨ s.ssu.well.get w = .restricted)
      ∧ (y.supplyLimited = true ↔ x.causes.supplyLimited = true
          ∨ ∃ p q, s.budget.queue.head? = some q ∧ q.requester = .pump p)
      ∧ (y.fallback = true ↔ x.causes.fallback = true ∨ s.ssu.well.get w = .fallback)
      ∧ (y.sensorDegraded = true ↔ x.causes.sensorDegraded = true
          ∨ (s.chan (pointQuantity (pointOfWell w))).quality ≠ .good)
      ∧ t = s.setPoint (pointOfWell w) { s.point (pointOfWell w) with slot := some { x with causes := y } }

/-! ## SSU -/

/-- R138 to R142: in DRY a spill, a level at a well's storm level, an inflow at its storm inflow or a tide lock brings STORM and
tells four blocks; in STORM each of them stops the hold timer, telling nobody. In STORM the delivery or the end of the tide lock
that leaves no condition starts the hold timer, and leaves one that runs as it is; its end is the return to DRY, told to four
blocks. What leaves no condition in DRY changes nothing there. The tide lock follows the
value of the river update, or the fallback level where that may not be used, with 100 mm of hysteresis. A blinded screen
restricts its well, and the last one restored frees it, told to DC and OA; a well in FALLBACK stays there. -/
def Obligations.StormComesAndGoes : Prop :=
  ∀ (c : Instr) (u : ChannelUpdate) (river : Int) (k : Screen) (flag : Bool) (s : State), s.live = true →
    (river = match u.quality, u.value with
      | .good, some v => v
      | .held, some v => v
      | _, _ => s.setup.riverFallback) →
    ((∃ o st, c = .spillStateDelivery o st ∧ st ≠ .dry)
        ∨ (∃ w d level, c = .wellRecordDeliverySsu w d ∧ d.quality ≠ .lost ∧ d.level = some level
            ∧ s.setup.stormLevel.get w ≤ level)
        ∨ (∃ w d, c = .wellRecordDeliverySsu w d ∧ s.setup.stormInflow.get w ≤ (d.smoothedInflow : Int))
        ∨ c = .rivUpdateSsu u ∧ s.ssu.tideLock = false ∧ s.setup.tideLock ≤ river →
      ∃ t, exec c s = .next t ∧ t.ssu.state = .storm ∧ t.ssu.holdAt = none
        ∧ (s.ssu.state = .dry → .stationStateToCu .storm ∈ t.raised ∧ .stationStateToDc .storm ∈ t.raised
          ∧ .stationStateToSc .storm ∈ t.raised ∧ .stationStateToElr .storm ∈ t.raised
          ∧ ∃ why, .recordSubmission (.stormChange .storm why) ∈ t.raised)
        ∧ (s.ssu.state = .storm → (∀ w d, c ≠ .wellRecordDeliverySsu w d) → t.raised = s.raised))
    ∧ (∀ (spill : Point → SpillState) (seen : Well → WellDelivery), s.ssu.forced = false →
        ((∃ o, c = .spillStateDelivery o .dry ∧ s.ssu.tideLock = false
            ∧ spill = (fun o' => if o' = o then .dry else s.ssu.spillSeen.get o') ∧ seen = fun w => deliveryOf (s.well w))
          ∨ (∃ w d, c = .wellRecordDeliverySsu w d ∧ s.ssu.tideLock = false ∧ spill = s.ssu.spillSeen.get
            ∧ seen = fun w' => if w' = w then d else deliveryOf (s.well w'))
          ∨ c = .rivUpdateSsu u ∧ s.ssu.tideLock = true ∧ river < s.setup.tideLock - 100 ∧ spill = s.ssu.spillSeen.get
            ∧ seen = fun w => deliveryOf (s.well w)) →
        (∀ o, spill o = .dry) →
        (∀ w level, (seen w).quality ≠ .lost → (seen w).level = some level → level < s.setup.stormLevel.get w) →
        (∀ w, ((seen w).smoothedInflow : Int) < s.setup.stormInflow.get w) →
      ∃ t, exec c s = .next t ∧ t.ssu.state = s.ssu.state ∧ (∀ o, t.ssu.spillSeen.get o = .dry)
        ∧ t.ssu.holdAt = match s.ssu.state with
          | .storm => some (s.ssu.holdAt.getD (s.now + s.setup.stormHold.toNat * 60000))
          | .dry => s.ssu.holdAt)
    ∧ (∃ t, exec (.rivUpdateSsu u) s = .next t
        ∧ (t.ssu.tideLock = true ↔
            s.setup.tideLock ≤ river ∨ s.ssu.tideLock = true ∧ s.setup.tideLock - 100 ≤ river)
        ∧ (t.ssu.tideLock = s.ssu.tideLock → t.raised = s.raised ∧ t.ssu.state = s.ssu.state))
    ∧ (∀ d, s.ssu.holdAt = some d → d ≤ s.now → s.ssu.state = .storm →
      exec .holdTimerExpiry s = .next { s with
        ssu := { s.ssu with state := .dry, holdAt := none }
        raised := s.raised ++ [.recordSubmission (.stormChange .dry .hold), .stationStateToCu .dry,
          .stationStateToDc .dry, .stationStateToSc .dry, .stationStateToElr .dry] })
    ∧ ∃ t st, exec (.blindedChange k flag) s = .next t ∧ t.ssu.blinded = s.ssu.blinded.set k flag
      ∧ (st = .restricted ↔ flag = true ∨ ∃ k', k' ≠ k ∧ screenWell k' = screenWell k ∧ s.ssu.blinded.get k' = true)
      ∧ (st = .restricted ∨ st = .normal)
      ∧ (if s.ssu.well.get (screenWell k) = .fallback then t.ssu.well = s.ssu.well ∧ t.raised = s.raised
        else t.ssu.well = s.ssu.well.set (screenWell k) st ∧ t.raised = s.raised ++
          if s.ssu.well.get (screenWell k) = st then []
          else [.wellStateToDc (screenWell k) st, .wellStateToOa (screenWell k) st])

/-- R143, R145, R146, R147: a well whose delivered level is LOST or absent enters FALLBACK. In FALLBACK a delivery that meets
the level conditions starts the recovery timer, unless it runs or a status wait stands, and one that does not meet them ends
both. The timer's end is the exit when every drive status is known, and otherwise begins a wait of 30 s, which ends at its time
or at the report that makes the last status known. The exit names each fitted pump by its drive's last report, marks a silent
one as turning when that report showed its motor turn, and submits the numbers. The 30 s run from the time at which the timer
expired: the model's choice (log entry 37). -/
def Obligations.FallbackComesAndGoes : Prop :=
  ∀ (w : Well) (d : WellDelivery) (p : Pump) (s : State), s.live = true →
    (s.ssu.well.get w ≠ .fallback → d.quality = .lost ∨ d.level = none → ∃ t, exec (.wellRecordDeliverySsu w d) s = .next t
      ∧ t.ssu.well.get w = .fallback ∧ t.ssu.recoveryAt.get w = none ∧ t.ssu.statusWait.get w = none
      ∧ .fallbackEntryDc w ∈ t.raised ∧ .fallbackEntrySb w ∈ t.raised ∧ .wellStateToOa w .fallback ∈ t.raised
      ∧ .recordSubmission (.fallbackEnter w d.quality) ∈ t.raised)
    ∧ (s.ssu.well.get w = .fallback →
      (∃ t, exec (.wellRecordDeliverySsu w d) s = .next t ∧ t.ssu.well = s.ssu.well
        ∧ (LevelMet s w d.quality d.level →
          t.ssu.statusWait = s.ssu.statusWait ∧ t.ssu.recoveryAt = (match s.ssu.recoveryAt.get w, s.ssu.statusWait.get w with
            | none, none => s.ssu.recoveryAt.set w (some (s.now + s.setup.recoveryTime.toNat * 1000))
            | _, _ => s.ssu.recoveryAt))
        ∧ (¬ LevelMet s w d.quality d.level →
          t.ssu.recoveryAt = s.ssu.recoveryAt.set w none ∧ t.ssu.statusWait = s.ssu.statusWait.set w none)) ∧
      (∀ x, s.ssu.recoveryAt.get w = some x → x ≤ s.now → (∃ q, s.wellOf q = some w ∧ (s.pump q).drive = .unknown) →
        exec (.recoveryTimerExpiry w) s = .next { s with ssu := { s.ssu with
          recoveryAt := s.ssu.recoveryAt.set w none, statusWait := s.ssu.statusWait.set w (some (x + 30000)) } })
      ∧ (∀ c, (c = .recoveryTimerExpiry w ∧ due (s.ssu.recoveryAt.get w) s.now = true
              ∧ (∀ q, s.wellOf q = some w → (s.pump q).drive ≠ .unknown)
            ∨ c = .statusWaitEnd w ∧ due (s.ssu.statusWait.get w) s.now = true
            ∨ c = .driveStatusReport p true ∧ s.wellOf p = some w ∧ (s.ssu.statusWait.get w).isSome
              ∧ (∀ q, s.wellOf q = some w → (s.pump q).drive ≠ .unknown)) →
        ∃ t names, exec c s = .next t
          ∧ (t.ssu.well.get w = .restricted ∨ t.ssu.well.get w = .normal)
          ∧ (t.ssu.well.get w = .restricted ↔ ∃ k, screenWell k = w ∧ s.ssu.blinded.get k = true)
          ∧ t.ssu.recoveryAt.get w = none ∧ t.ssu.statusWait.get w = none
          ∧ .fallbackExitDc w names ∈ t.raised ∧ .fallbackExitSb w names ∈ t.raised
          ∧ .wellStateToOa w (t.ssu.well.get w) ∈ t.raised
          ∧ (∀ q, s.wellOf q ≠ some w → names.get q = none)
          ∧ (∀ q x at_, s.wellOf q = some w → (s.pump q).drive = .known x at_ →
              names.get q = some (match x.state with
                | .running | .starting => .adopted
                | .float => if x.floatRunning then .adopted else .stopped
                | .localHand => .localHand x.floatRunning
                | .stopped | .tripped => .stopped))
          ∧ (∀ q, s.wellOf q = some w → (s.pump q).drive = .unknown → names.get q = some (.silent
              (match (s.pump q).lastReport with
                | some x => x.state == .running || x.state == .starting
                    || (x.state == .float || x.state == .localHand) && x.floatRunning
                | none => false)))
          ∧ .recordSubmission (.fallbackLeave w
              (Pump.all.filter fun q => names.get q == some .adopted).length
              (Pump.all.filter fun q => names.get q == some (.localHand true) || names.get q == some (.localHand false)).length
              (Pump.all.filter fun q => names.get q == some (.silent true) || names.get q == some (.silent false)).length
              (Pump.all.filter fun q => names.get q == some .stopped).length) ∈ t.raised))

/-! ## ELR -/

/-- R150 to R154: with no count of lost records standing, a submission is stamped and stored behind the others when its class
has room, 480 pages for all but OVERFLOW and 512 for OVERFLOW, and otherwise counted by its class. A standing count is first
recorded as LOST where that has room, which clears the counts, and otherwise a lost LOST is counted; the submission is then
judged as ever. -/
def Obligations.SubmissionsAreStored : Prop :=
  ∀ (body : RecordBody) (limit : Nat) (s : State), s.live = true →
    (limit = if body.cls = .overflow then 512 else 480) →
    ∃ t, exec (.recordSubmission body) s = .next t
      ∧ (s.elr.lostOverflow = 0 → s.elr.lostAlarm = 0 → s.elr.lostNotice = 0 → s.elr.lostLost = 0 →
        if s.elr.pagesUsed + body.pages ≤ limit then
          t.elr.records = s.elr.records ++ [⟨s.elr.sequence, s.mu.clock, s.mu.timeUnset, body⟩]
            ∧ t.elr.pagesUsed = s.elr.pagesUsed + body.pages ∧ t.elr.sequence = s.elr.sequence + 1
            ∧ t.elr.lostOverflow = 0 ∧ t.elr.lostAlarm = 0 ∧ t.elr.lostNotice = 0 ∧ t.elr.lostLost = 0
        else t.elr.records = s.elr.records ∧ t.elr.pagesUsed = s.elr.pagesUsed ∧ t.elr.sequence = s.elr.sequence
          ∧ t.lp = s.lp
          ∧ t.elr.lostOverflow = (if body.cls = .overflow then 1 else 0)
          ∧ t.elr.lostAlarm = (if body.cls = .alarm then 1 else 0)
          ∧ t.elr.lostNotice = (if body.cls = .notice then 1 else 0)
          ∧ t.elr.lostLost = (if body.cls = .lost then 1 else 0))
      ∧ (0 < s.elr.lostOverflow ∨ 0 < s.elr.lostAlarm ∨ 0 < s.elr.lostNotice ∨ 0 < s.elr.lostLost →
        if s.elr.pagesUsed + 2 ≤ 480 then
          t.elr.records = s.elr.records ++
            ⟨s.elr.sequence, s.mu.clock, s.mu.timeUnset,
              .lost s.elr.lostOverflow s.elr.lostAlarm s.elr.lostNotice s.elr.lostLost⟩ ::
            (if s.elr.pagesUsed + 2 + body.pages ≤ limit then
              [⟨s.elr.sequence + 1, s.mu.clock, s.mu.timeUnset, body⟩] else [])
          ∧ t.elr.pagesUsed = s.elr.pagesUsed + 2 +
              (if s.elr.pagesUsed + 2 + body.pages ≤ limit then body.pages else 0)
          ∧ t.elr.lostOverflow = (if s.elr.pagesUsed + 2 + body.pages ≤ limit ∨ body.cls ≠ .overflow then 0 else 1)
          ∧ t.elr.lostAlarm = (if s.elr.pagesUsed + 2 + body.pages ≤ limit ∨ body.cls ≠ .alarm then 0 else 1)
          ∧ t.elr.lostNotice = (if s.elr.pagesUsed + 2 + body.pages ≤ limit ∨ body.cls ≠ .notice then 0 else 1)
          ∧ t.elr.lostLost = (if s.elr.pagesUsed + 2 + body.pages ≤ limit ∨ body.cls ≠ .lost then 0 else 1)
        else if s.elr.pagesUsed + body.pages ≤ limit then
          t.elr.records = s.elr.records ++ [⟨s.elr.sequence, s.mu.clock, s.mu.timeUnset, body⟩]
          ∧ t.elr.lostOverflow = s.elr.lostOverflow ∧ t.elr.lostAlarm = s.elr.lostAlarm
          ∧ t.elr.lostNotice = s.elr.lostNotice ∧ t.elr.lostLost = satInc 65535 s.elr.lostLost
        else t.elr.records = s.elr.records ∧ t.elr.pagesUsed = s.elr.pagesUsed ∧ t.elr.sequence = s.elr.sequence
          ∧ t.elr.lostOverflow = (if body.cls = .overflow then satInc 65535 s.elr.lostOverflow else s.elr.lostOverflow)
          ∧ t.elr.lostAlarm = (if body.cls = .alarm then satInc 65535 s.elr.lostAlarm else s.elr.lostAlarm)
          ∧ t.elr.lostNotice = (if body.cls = .notice then satInc 65535 s.elr.lostNotice else s.elr.lostNotice)
          ∧ t.elr.lostLost = (if body.cls = .lost then satInc 65535 (satInc 65535 s.elr.lostLost)
              else satInc 65535 s.elr.lostLost))

/-- R157, R158: an acknowledgement, from a source that may give one, of a record not behind the last sent takes it and every
older record out of the log and restores the timeout and the link. One of a number further on is counted as bad and one of a
number before the oldest record is a duplicate: neither changes the log, and so does one that does not hold exactly one number
or comes from any other source. -/
def Obligations.AcknowledgementsRemove : Prop :=
  ∀ (src : Addr) (payload : List Byte) (s : State), s.live = true → LogLaw s.elr →
    (∀ n (d : Nat) (e : SourceEntry), sourceEntry s src = some e → e.ackReports = true → ackSequence payload = some n →
      d = (n - (match s.elr.records.head? with
        | some r => r.sequence
        | none => s.elr.sequence)).toNat →
      (∀ (j : Nat) b, s.elr.records[j]? = some b → s.elr.lastSent = some b.sequence → d ≤ j →
        ∃ t, exec (.reportAck src payload) s = .next t
          ∧ t.elr.records = s.elr.records.drop (d + 1)
          ∧ t.elr.pagesUsed = pagesOf (s.elr.records.drop (d + 1)) ∧ t.elr.sequence = s.elr.sequence
          ∧ t.elr.oldestPosition = (s.elr.oldestPosition + pagesOf (s.elr.records.take (d + 1))) % 512
          ∧ t.elr.timeout = 30 ∧ t.elr.expiries = 0 ∧ t.elr.linkDown = false ∧ t.elr.badAcks = s.elr.badAcks)
      ∧ ((∃ (j : Nat) (b : LogRecord), s.elr.records[j]? = some b ∧ s.elr.lastSent = some b.sequence ∧ j < d)
            ∨ s.elr.lastSent = none → d < 32768 →
        exec (.reportAck src payload) s = .next { s with elr := { s.elr with badAcks := satInc 65535 s.elr.badAcks } })
      ∧ (32768 ≤ d → (∃ b ∈ s.elr.records, s.elr.lastSent = some b.sequence) ∨ s.elr.lastSent = none →
        exec (.reportAck src payload) s = .next s))
    ∧ (ackSequence payload = none → exec (.reportAck src payload) s = .next s)
    ∧ ((∀ e, sourceEntry s src = some e → e.ackReports = false) → exec (.reportAck src payload) s = .next s)

/-- R155, R156, R159 to R163: a report timer that expires goes back to the oldest record with twice the timeout, up to 240 s,
and sends it; a retry sends the record at next to send; either waits 1 s with no room. A status timer, a change of station
state and a part that waited send the parts of the round in order, as many as find room; the first that does not waits 1 s, the
parts after it with it, and the round ends with part 4. -/
def Obligations.ReportsAndRounds : Prop :=
  ∀ (s : State), s.live = true →
    (∀ r rest, due s.elr.reportAt s.now = true → s.elr.records = r :: rest →
      ∃ t, exec .reportTimerExpiry s = .next t ∧ t.elr.records = s.elr.records
        ∧ t.elr.timeout = min 240 (2 * s.elr.timeout) ∧ t.elr.expiries = satInc 255 s.elr.expiries
        ∧ (t.elr.linkDown = true ↔ s.elr.linkDown = true ∨ 8 ≤ satInc 255 s.elr.expiries)
        ∧ if s.lp.general.length < 8 then
            (⟨s.setup.telemetryNode.toNat, s.lp.ownAddress, s.lp.ownSequence, .report r⟩ : OutFrame) ∈ t.lp.general
              ∧ t.elr.reportAt = some (s.now + t.elr.timeout * 1000)
          else t.lp = s.lp ∧ (s.elr.sendRetryAt = none ∨ due s.elr.sendRetryAt s.now = true →
            t.elr.sendRetryAt = some (s.now + 1000)))
    ∧ (∀ r rest, due s.elr.sendRetryAt s.now = true → unsentOf s.elr = r :: rest → (windowOf s.elr).length < 4 →
      ∃ t, exec .reportRetry s = .next t ∧ t.elr.records = s.elr.records ∧
        if s.lp.general.length < 8 then
          (⟨s.setup.telemetryNode.toNat, s.lp.ownAddress, s.lp.ownSequence, .report r⟩ : OutFrame) ∈ t.lp.general
        else t.lp = s.lp ∧ t.elr.sendRetryAt = some (s.now + 1000))
    ∧ (∀ c period, (c = .statusTimerExpiry ∧ due s.elr.statusAt s.now = true
            ∧ period = (if s.ssu.state = .dry then 300000 else 60000)
          ∨ (∃ st, c = .stationStateToElr st ∧ period = if st = .dry then 300000 else 60000)) →
        s.lp.general.length + 4 ≤ 8 →
        ∃ t fs, exec c s = .next t ∧ t.lp.general = s.lp.general ++ fs
          ∧ fs.map (·.payload) = [.status (s.elr.round + 1) (statusPart s 1), .status (s.elr.round + 1) (statusPart s 2),
              .status (s.elr.round + 1) (statusPart s 3), .status (s.elr.round + 1) (statusPart s 4)]
          ∧ (∀ f ∈ fs, f.destination = s.setup.telemetryNode.toNat) ∧ t.elr.round = s.elr.round + 1
          ∧ t.elr.statusAt = some (s.now + period) ∧ t.elr.progress = none)
    ∧ (∀ c period k, (c = .statusTimerExpiry ∧ due s.elr.statusAt s.now = true
            ∧ period = (if s.ssu.state = .dry then 300000 else 60000)
          ∨ (∃ st, c = .stationStateToElr st ∧ period = if st = .dry then 300000 else 60000)) →
        k = 8 - s.lp.general.length → k < 4 →
        ∃ t fs, exec c s = .next t ∧ t.lp.general = s.lp.general ++ fs
          ∧ fs.map (·.payload) = ([1, 2, 3, 4].take k).map (fun i => .status (s.elr.round + 1) (statusPart s i))
          ∧ (∀ f ∈ fs, f.destination = s.setup.telemetryNode.toNat) ∧ t.elr.round = s.elr.round + 1
          ∧ t.elr.statusAt = some (s.now + period) ∧ t.elr.progress = some (k + 1)
          ∧ t.elr.partRetryAt = some (s.now + 1000))
    ∧ (∀ part k, due s.elr.partRetryAt s.now = true → s.elr.progress = some part → 1 ≤ part → part ≤ 4 →
      k = min (5 - part) (8 - s.lp.general.length) →
      ∃ t fs, exec .statusPartRetry s = .next t ∧ t.lp.general = s.lp.general ++ fs
        ∧ fs.map (·.payload) =
            (([1, 2, 3, 4].drop (part - 1)).take k).map (fun i => .status s.elr.round (statusPart s i))
        ∧ (∀ f ∈ fs, f.destination = s.setup.telemetryNode.toNat) ∧ t.elr.statusAt = s.elr.statusAt
        ∧ if part + k = 5 then t.elr.progress = none ∧ t.elr.partRetryAt = none
          else t.elr.progress = some (part + k) ∧ t.elr.partRetryAt = some (s.now + 1000))
    ∧ (∀ part, due s.elr.partRetryAt s.now = true → s.elr.progress = some part → 1 ≤ part → part ≤ 4 →
      ∃ t, exec .statusPartRetry s = .next t ∧ t.elr.round = s.elr.round ∧
        if s.lp.general.length < 8 then
          (⟨s.setup.telemetryNode.toNat, s.lp.ownAddress, s.lp.ownSequence, .status s.elr.round (statusPart s part)⟩
              : OutFrame) ∈ t.lp.general
        else t.lp = s.lp ∧ t.elr.progress = some part ∧ t.elr.partRetryAt = some (s.now + 1000))

/-! ## MU -/

/-- R178, R179, on full banks: a permitted write puts the entries of its count that lie within the section, one after another,
in the inactive bank, and leaves every other entry, bank and table and the rest of the part as they stood; a discard makes the
inactive bank a copy of the active one and leaves the rest. Both are BUSY while the table has a pending commit. A read returns
the entries of its count that lie within the section, with the standing of the bank, and changes nothing but the queue of its
answer. That an inactive bank without a pending commit is VALID, and that a table without a header section answers with a
count of 0, are the model's choices (log entries 29 and 28). -/
def Obligations.TablesAreWrittenAndRead : Prop :=
  ∀ (h : ReqHead) (s : State), s.live = true → TablesLaw s →
    (∀ a n, Permitted s h → writeForm a = true → commitHolds s a.table = false →
      n = entriesInside a.table a.sect a.direction a.start a.count →
      ∃ t, exec (.tableWrite h (some a)) s = .next t
        ∧ t = answered { s with tables := t.tables } h (if n = a.count then .ok else .outOfRange) (.written n)
        ∧ (∀ k e, k < n → a.entries[k]? = some e →
            (∀ v x, e = .setup v → readEntry s.tables a.table .inactive a.sect (entryIndex a.direction a.start k)
              = some (.setup x) → sameKind v x) →
            readEntry t.tables a.table .inactive a.sect (entryIndex a.direction a.start k) = some e)
        ∧ (∀ sect i, i < sectionLength a.table sect →
            sect ≠ a.sect ∨ (∀ k, k < n → i ≠ entryIndex a.direction a.start k) →
            readEntry t.tables a.table .inactive sect i = readEntry s.tables a.table .inactive sect i)
        ∧ (∀ id, activeContents t.tables id = activeContents s.tables id
            ∧ emptyMark t.tables id = emptyMark s.tables id
            ∧ (id ≠ a.table → inactiveContents t.tables id = inactiveContents s.tables id)))
    ∧ (∀ id, Permitted s h → commitHolds s id = false →
      ∃ t, exec (.tableDiscard h (some id)) s = .next t ∧ t = answered { s with tables := t.tables } h .ok .none
        ∧ inactiveContents t.tables id = activeContents s.tables id
        ∧ ∀ other, activeContents t.tables other = activeContents s.tables other
          ∧ emptyMark t.tables other = emptyMark s.tables other
          ∧ (other ≠ id → inactiveContents t.tables other = inactiveContents s.tables other))
    ∧ (∀ c id, Permitted s h → commitHolds s id = true →
      (c = .tableDiscard h (some id) ∨ ∃ a, c = .tableWrite h (some a) ∧ writeForm a = true ∧ a.table = id) →
      exec c s = .next (answered s h .busy .none))
    ∧ (∀ a e n, sourceEntry s h.source = some e → e.manage = true → readForm a = true →
      n = entriesInside a.table a.sect a.direction a.start a.count →
      ∃ list, exec (.tableRead h (some a)) s = .next (answered s h (if n = a.count then .ok else .outOfRange)
            (.entries n (if commitHolds s a.table = true then .pending
              else if a.bank = .active ∧ emptyMark s.tables a.table = true then .empty else .valid) list))
        ∧ list.length = n
        ∧ ∀ k, k < n →
          list[k]? = readEntry s.tables a.table a.bank a.sect (entryIndex a.direction a.start k))

/-- R133, R180 to R182: one commit at a time; an invalid bank is refused with its first failing entry, and a valid Station
Setup that would change a pump or a rake in a state that does not allow it with CONFLICT. The tables of MU, CU and the Station
Setup switch at once, the banks exchanged and the store write begun, of up to 200 ms; the others wait for their consumers, a
point without a usable level taking a WEIR switch at once and each other at its next sample or bad notice, the last one
completing it. A completed write leaves a store from which the table is loaded as it stands, and is answered and recorded
unless a restart waits. The model's choices here: the order of the first failing entry over two sections (log entry 27), the
pump or screen that a CONFLICT names of several (log entry 54), and a completed write taken whenever one is in progress (log
entry 40). -/
def Obligations.CommitsSwitchAndStore : Prop :=
  ∀ (h : ReqHead) (id : TableId) (clash : Pump → Prop) (bar : Screen → Prop) (blind : Point → Prop) (s : State),
    s.live = true →
    (∀ p, clash p ↔ (s.tables.setup.inactive.well.get p ≠ s.setup.well.get p
        ∨ s.tables.setup.inactive.drive.get p ≠ s.setup.drive.get p
        ∨ s.tables.setup.inactive.kind.get p ≠ s.setup.kind.get p)
      ∧ (s.pump p).state ≠ .off ∧ (s.pump p).state ≠ .resting ∧ (s.pump p).state ≠ .float
      ∧ ∀ why, (s.pump p).state ≠ .unavailable why) →
    (∀ k, bar k ↔ s.tables.setup.inactive.rakeDrive.get k ≠ s.setup.rakeDrive.get k
      ∧ (s.screen k).state ≠ .parked ∧ (s.screen k).state ≠ .jammed ∧ (s.screen k).state ≠ .outOfService) →
    (∀ o, blind o ↔ (s.chan (pointQuantity o)).quality = .lost ∨ (s.chan (pointQuantity o)).quality = .suspect
      ∨ entryFor s (pointQuantity o) = none) →
    (Permitted s h → s.mu.commit ≠ .none →
      exec (.tableCommit h (some id)) s = .next (answered s h .busy .none))
    ∧ (Permitted s h → s.mu.commit = .none → ∀ sect i, failing s.tables id = some (sect, i) →
      exec (.tableCommit h (some id)) s = .next (answered s h .invalidTable (.failing sect i)))
    ∧ (∀ data, Permitted s h → s.mu.commit = .none → id = .stationSetup → failing s.tables id = none →
      ((∃ p, clash p ∧ (∀ q, q.index < p.index → ¬ clash q) ∧ data = .pump p)
        ∨ (∀ p, ¬ clash p) ∧ ∃ k, bar k ∧ (∀ j, j.index < k.index → ¬ bar j) ∧ data = .screen k) →
      exec (.tableCommit h (some id)) s = .next (answered s h .conflict data))
    ∧ (Permitted s h → s.mu.commit = .none → failing s.tables id = none →
      (id = .sampleMap ∨ id = .gates ∨ id = .sources
        ∨ id = .stationSetup ∧ (∀ p, ¬ clash p) ∧ ∀ k, ¬ bar k) →
      ∃ t d, exec (.tableCommit h (some id)) s = .next t
        ∧ t.mu = { s.mu with commit := .storing id h d } ∧ s.now ≤ d ∧ d ≤ s.now + 200
        ∧ activeContents t.tables id = inactiveContents s.tables id
        ∧ inactiveContents t.tables id = inactiveContents s.tables id
        ∧ emptyMark t.tables id = false
        ∧ (∀ other, other ≠ id → activeContents t.tables other = activeContents s.tables other
            ∧ inactiveContents t.tables other = inactiveContents s.tables other
            ∧ emptyMark t.tables other = emptyMark s.tables other))
    ∧ (Permitted s h → s.mu.commit = .none → failing s.tables id = none →
      (∀ w, id = .levelVolume w → exec (.tableCommit h (some id)) s = .next { s with
        mu := { s.mu with commit := .scheduled id h }
        wells := s.wells.set w { s.well w with pendingLevelVolume := true } })
      ∧ (id = .pumpCurves → ∃ t, exec (.tableCommit h (some id)) s = .next t
        ∧ t.mu.commit = .scheduled id h ∧ t.tables = s.tables ∧ ∀ w, (t.well w).pendingCurves = true)
      ∧ (id = .weir → ∃ t, exec (.tableCommit h (some id)) s = .next t
        ∧ (∀ o, (blind o → t.point o = { s.point o with
              pendingSwitch := false
              slot := (s.point o).slot.map fun x => { x with flags := { x.flags with tableChanged := true } } })
            ∧ (¬ blind o → t.point o = { s.point o with pendingSwitch := true }))
        ∧ ((∃ o, ¬ blind o) → t.tables = s.tables ∧ t.mu = { s.mu with commit := .scheduled .weir h })
        ∧ ((∀ o, blind o) →
            t.tables = { s.tables with weir := ⟨s.tables.weir.inactive, s.tables.weir.inactive, false⟩ }
            ∧ ∃ d, t.mu = { s.mu with commit := .storing .weir h d } ∧ s.now ≤ d ∧ d ≤ s.now + 200)))
    ∧ (∀ o u, s.mu.commit = .scheduled .weir h → (s.point o).pendingSwitch = true →
      u.quality = .lost ∨ u.quality = .suspect ∨ u.quality = .good ∧ u.stored = true ∧ u.value.isSome →
      ∃ t, exec (.overflowLevelUpdate o u) s = .next t
        ∧ ((∃ x, x ≠ o ∧ (s.point x).pendingSwitch = true) → t.tables = s.tables ∧ t.mu = s.mu)
        ∧ ((∀ x, x ≠ o → (s.point x).pendingSwitch = false) →
            t.tables = { s.tables with weir := ⟨s.tables.weir.inactive, s.tables.weir.inactive, false⟩ }
            ∧ ∃ d, t.mu = { s.mu with commit := .storing .weir h d } ∧ s.now ≤ d ∧ d ≤ s.now + 200))
    ∧ (∀ d, s.mu.commit = .storing id h d → ∃ t, exec .storeWriteComplete s = .next t
      ∧ t.mu = { s.mu with commit := .none } ∧ t.tables = s.tables
      ∧ loadCopy (storePair t.store id) = some (activeContents s.tables id)
      ∧ (∀ other, other ≠ id → storePair t.store other = storePair s.store other)
      ∧ (s.mu.restartWaiting = none → Answered s t h .ok .none
          ∧ ∃ g, .recordSubmission (.tableCommit id g) ∈ t.raised)
      ∧ (s.mu.restartWaiting ≠ none → .deferredRestart ∈ t.raised ∧ t.lp = s.lp))

/-- R2, R20, R26, R31, R46, R68, R100, R121, R175, R180, R183: a commit's validation finds nothing exactly when every entry of
the inactive bank meets the conditions of its table, and otherwise names an entry that breaks one while every entry before it
meets them. The model's choices here: the main section comes before the header section (log entry 27), and the calibration and
window fields of a DISCRETE Sample Map entry are under no condition (log entry 16). -/
def Obligations.TablesAreValidated : Prop :=
  ∀ (t : Tables) (id : TableId), t.sources.inactive.length ≤ 16 →
    (failing t id = none ↔ ∀ sect i, EntryValid t id sect i)
    ∧ ∀ sect i, failing t id = some (sect, i) →
      ¬ EntryValid t id sect i ∧ ∀ b j, EntryBefore (b, j) (sect, i) → EntryValid t id b j

/-- R3, R16, R18: a committed Sample Map is taken at once: a quantity whose key and kind stay keeps its record but for its
reference check, any other that was or is mapped returns to its reset values and is delivered, and each node new to the map is
sent a CADENCE frame. R47, R48, R54, R70, R84, R87, R88, R92, R95, R103, R136, R138, R139, R145: a committed Station Setup is
taken at once by the pumps that change well, drive or kind, the Start Histories, the Rotation Lists, the pumps beyond a lowered
max running, the interlocks, the staged speeds, the reserves, the capacity (by a sweep or grants), the screens, the tide lock,
the storm conditions and the recovery timers. The model's choices here: the repeat timer of a new node (log entry 46), the
order in which the CADENCE frames of several new nodes join the CONTROL queue (59), the order in which pumps join a list (47),
a motor that turns when its pump leaves FLOAT (49), a well without a level (50), the order of the blocks, in SB and in DC (51,
52, 58), and SB's examination at every switch (24). That a waiting forwarded DRIVE_CMD that begins with 1 or 3 counts as a RUN
or REVERSE whatever the length of its payload is the model's choice (log entry 73). That a grant sets an entry that is not NONE
to START as well is the model's choice (log entry 80). -/
def Obligations.SwitchesAreTaken : Prop :=
  ∀ (h : ReqHead) (s : State), s.live = true → Permitted s h → s.mu.commit = .none →
    (∀ entries fresh, failing s.tables .sampleMap = none → entries = s.tables.sampleMap.inactive.filterMap id →
      fresh = ((entries.map (·.node)).eraseDups.filter fun n => !((mapEntries s).any fun e => e.node == n)) →
      ∃ t, exec (.tableCommit h (some .sampleMap)) s = .next t
        ∧ t.nodes.map (·.node) = (entries.map (·.node)).eraseDups
        ∧ (s.lp.control.length + fresh.length ≤ 8 →
            t.lp.control.map (·.destination) = s.lp.control.map (·.destination) ++ fresh
            ∧ ∀ f ∈ t.lp.control.drop s.lp.control.length, f.payload = .cadence s.ssu.state none)
        ∧ ∀ q, match entryFor s q, entries.find? (fun e => e.quantity == .name q) with
          | none, none => t.chan q = s.chan q
          | some old, some new =>
            if old.node = new.node ∧ old.channel = new.channel ∧ old.kind = new.kind then
              t.chan q = { s.chan q with
                awaiting := if new.expected = none then none else (s.chan q).awaiting
                referenceAt := if new.expected = none then none
                  else if old.expected = none then some (s.now + s.setup.referenceInterval.toNat * 3600000)
                  else (s.chan q).referenceAt
                referenceRetryAt := if new.expected = none then none else (s.chan q).referenceRetryAt }
            else t.chan q = ChannelRecord.reset (if new.expected = none then none
                else some (s.now + s.setup.referenceInterval.toNat * 3600000))
              ∧ ∃ e ∈ t.raised, Delivers q ⟨none, .lost, none, false⟩ e
          | none, some new => t.chan q = ChannelRecord.reset (if new.expected = none then none
                else some (s.now + s.setup.referenceInterval.toNat * 3600000))
              ∧ ∃ e ∈ t.raised, Delivers q ⟨none, .lost, none, false⟩ e
          | some _, none => t.chan q = ChannelRecord.reset none
              ∧ ∃ e ∈ t.raised, Delivers q ⟨none, .lost, none, false⟩ e)
    ∧ (∀ new, failing s.tables .stationSetup = none → setupConflict s = none → new = s.tables.setup.inactive →
      ∃ t, exec (.tableCommit h (some .stationSetup)) s = .next t ∧ t.setup = new
        ∧ (∀ p, new.wellOf p = none → s.wellOf p ≠ none → (t.pump p).state = .unavailable .notFitted
            ∧ (t.pump p).charge = .none ∧ ((s.pump p).charge ≠ .none → .chargeRelease (.pump p) ∈ t.raised))
        ∧ (∀ p w, new.wellOf p = some w → s.wellOf p ≠ some w → s.ssu.well.get w = .fallback →
            (t.pump p).state = .float ∧ (t.pump p).owner = .float ∧ (t.pump p).charge = .none
            ∧ ((s.pump p).charge ≠ .none → .chargeRelease (.pump p) ∈ t.raised))
        ∧ (∀ p w, new.wellOf p = some w → s.wellOf p ≠ some w → s.ssu.well.get w ≠ .fallback →
            (s.pump p).state = .float ∨ (s.pump p).state = .unavailable .notFitted →
            (t.pump p).state = .unavailable .noStatus ∧ (t.pump p).drive = .unknown
            ∧ (t.pump p).statusAt = some (s.now + 15000) ∧ (t.pump p).charge = (s.pump p).charge)
        ∧ (∀ p, new.wellOf p = s.wellOf p → new.drive.get p ≠ s.setup.drive.get p →
            (t.pump p).drive = .unknown
            ∧ ((s.pump p).state = .float ∨ (s.pump p).state = .unavailable .notFitted →
                (t.pump p).state = (s.pump p).state)
            ∧ ((s.pump p).state ≠ .float → (s.pump p).state ≠ .unavailable .notFitted →
                (t.pump p).state = .unavailable .noStatus))
        ∧ (∀ p, (t.pump p).history =
            (s.pump p).history.drop ((s.pump p).history.length - (new.startsPerHour.get p).toNat))
        ∧ (∀ w, Quiet s → s.duty.rotationDue.get w = false → t.duty.rotation.get w =
            (s.duty.rotation.get w).filter (fun p => decide (new.wellOf p = some w)) ++
              Pump.all.filter fun p => decide (new.wellOf p = some w ∧ s.wellOf p ≠ some w))
        ∧ (∀ w, t.budget.reserve.get w = if s.ssu.well.get w = .fallback then reserveOf new w else s.budget.reserve.get w)
        ∧ (∀ k, ((t.screen k).drive = if new.rakeDrive.get k = s.setup.rakeDrive.get k then (s.screen k).drive else .unknown)
          ∧ (new.refreshPeriod ≠ s.setup.refreshPeriod → (s.screen k).localHold = false →
              (t.screen k).refreshAt = some (s.now + new.refreshPeriod.toNat * 1000)))
        ∧ (∀ w k order, new.well = s.setup.well → new.drive = s.setup.drive → RunningLaw s →
          new.maxRunning.get w < s.setup.maxRunning.get w →
          k = commandedRunning s w - (new.maxRunning.get w).toNat →
          order = ([(.auto, .starting), (.auto, .running), (.manual, .starting), (.manual, .running)].map fun x =>
            (s.duty.rotation.get w).reverse.filter fun p => (s.pump p).owner == x.1 && (s.pump p).state == x.2).flatten →
          (∀ p ∈ order.take k, (t.pump p).state = .stopping ∧ (t.pump p).stopAt = some (s.now + 30000)
            ∧ (t.pump p).owner = .auto ∧ (t.pump p).attempts = (s.pump p).attempts
            ∧ ((s.pump p).charge = .start → (t.pump p).charge = .none ∧ .grantReturn (.pump p) ∈ t.raised)
            ∧ ((s.pump p).charge = .running → (t.pump p).charge = .running ∧ .stopNotice p ∈ t.raised))
          ∧ ∀ p ∈ order.drop k, ∀ level, Quiet s → (s.well w).lowFloat ≠ .on → (s.well w).level = some level →
            new.dryLevel.get p < level → (t.pump p).state = (s.pump p).state)
        ∧ (∀ p w, new.wellOf p = some w →
          ((t.pump p).interlock = true ↔ (s.well w).lowFloat = .on ∨ (s.well w).level = none
            ∨ ∃ level, (s.well w).level = some level ∧ level ≤ new.dryLevel.get p)
          ∧ ((t.pump p).interlock = true → NoRunWaits t (new.drive.get p).toNat
            ∧ (t.pump p).state ≠ .startWait ∧ (t.pump p).state ≠ .starting ∧ (t.pump p).state ≠ .running)
          ∧ ∀ level, new.kind.get p = s.setup.kind.get p → (s.well w).level = some level →
            (t.pump p).formula = (if new.isVariable p then (clampInt (new.minSpeed.get p) 100 (new.minSpeed.get p
              + truncDiv ((level - (new.stopLevels.get w).get 1) * new.speedGain.get p) 1000)).toNat else 100)
            ∧ (t.pump p).staged = if (t.pump p).forcing then 100 else (t.pump p).formula)
        ∧ (∀ p, new.kind.get p ≠ s.setup.kind.get p → ∀ v, v = (if new.isVariable p then (new.minSpeed.get p).toNat else 100) →
          (t.pump p).staged = v ∧ (t.pump p).applied = v ∧ (t.pump p).formula = v)
        ∧ (∀ mid : State, mid = { t with
            screens := s.screens, budget := { s.budget with reserve := t.budget.reserve } } →
          t.budget.supply = s.budget.supply ∧ ∃ shed granted : List Requester,
            (∀ x ∈ shed, shedEvent x ∈ t.raised) ∧ (∀ x ∈ granted, grantEvent x ∈ t.raised)
            ∧ s.budget.queue.map (·.requester) = granted ++ t.budget.queue.map (·.requester)
            ∧ (∀ x ∈ shed, x ∉ granted → (entryOfReq t.budget x).releasing = true)
            ∧ (∀ x ∈ granted, entryOfReq t.budget x = ⟨.start, startWeight t x, false⟩)
            ∧ (capacity s ≤ capacity mid → shed = [])
            ∧ (capacity mid < capacity s → shed <+: candidates mid
              ∧ (shed ≠ [] → capacity mid + releasing mid.budget < committed mid.budget)
              ∧ (granted = [] → committed t.budget = committed mid.budget
                ∧ (committed t.budget ≤ capacity mid + releasing t.budget ∨ candidates { mid with budget := t.budget } = [])))
            ∧ committed t.budget ≤ max (committed mid.budget) (capacity mid)
            ∧ ∀ q, t.budget.queue.head? = some q → capacity mid < committed t.budget + startWeight t q.requester)
        ∧ (∀ river source, (match (s.chan .riv).quality, (s.chan .riv).value with
            | .good, some x => river = x ∧ source = .riv
            | .held, some x => river = x ∧ source = .riv
            | _, _ => river = new.riverFallback ∧ source = .fallback) →
          t.ssu.riverSource = source ∧ (t.ssu.tideLock = true ↔
            new.tideLock ≤ river ∨ s.ssu.tideLock = true ∧ new.tideLock - 100 ≤ river))
        ∧ (StormFound t → t.ssu.state = .storm ∧ t.ssu.holdAt = none
          ∧ (s.ssu.state = .dry → .stationStateToCu .storm ∈ t.raised ∧ .stationStateToDc .storm ∈ t.raised
            ∧ .stationStateToSc .storm ∈ t.raised ∧ .stationStateToElr .storm ∈ t.raised
            ∧ ∃ why, .recordSubmission (.stormChange .storm why) ∈ t.raised))
        ∧ (¬ StormFound t → t.ssu.state = s.ssu.state ∧ t.ssu.holdAt = (if s.ssu.state = .dry then s.ssu.holdAt
            else some (s.ssu.holdAt.getD (s.now + new.stormHold.toNat * 60000))))
        ∧ t.ssu.well = s.ssu.well
        ∧ ∀ w, s.ssu.well.get w = .fallback →
          (LevelMet s w (s.well w).quality (s.well w).level → t.ssu.statusWait.get w = s.ssu.statusWait.get w
            ∧ t.ssu.recoveryAt.get w = (match s.ssu.recoveryAt.get w, s.ssu.statusWait.get w with
              | none, none => some (s.now + new.recoveryTime.toNat * 1000)
              | x, _ => x))
          ∧ (¬ LevelMet s w (s.well w).quality (s.well w).level →
            t.ssu.recoveryAt.get w = none ∧ t.ssu.statusWait.get w = none))

/-- R176, R178, R179, R184: a request from a source without an entry is NOT_KNOWN, one without the MANAGE permission DENIED,
one whose arguments lack their form BAD_ARGUMENT, one that needs an authority up to the lock level and has a higher DENIED,
and none of them changes more than the queue of its answer. The lock level is set by a request of authority 0 alone, and a
record is returned as it stands. -/
def Obligations.RequestsAreCheckedAndAnswered : Prop :=
  ∀ (h : ReqHead) (s : State), s.live = true →
    (∀ c, ((∃ x, c = .tableWrite h x) ∨ (∃ x, c = .tableRead h x) ∨ (∃ x, c = .tableDiscard h x)
        ∨ (∃ x, c = .tableCommit h x) ∨ (∃ x, c = .readRecord h x) ∨ (∃ x, c = .invokeGate h x)
        ∨ (∃ x, c = .setLockLevel h x) ∨ (∃ x, c = .setTime h x) ∨ (∃ x, c = .clearCounters h x)
        ∨ ∃ x, c = .restart h x) →
      (sourceEntry s h.source = none → exec c s = .next (answered s h .notKnown .none))
      ∧ (∀ e, sourceEntry s h.source = some e → e.manage = false → exec c s = .next (answered s h .denied .none)))
    ∧ (∀ c e, (c = .tableWrite h none ∨ c = .tableRead h none ∨ c = .tableDiscard h none ∨ c = .tableCommit h none
        ∨ c = .readRecord h none ∨ c = .invokeGate h none ∨ c = .setLockLevel h none ∨ c = .setTime h none
        ∨ c = .clearCounters h none ∨ c = .restart h none) →
      sourceEntry s h.source = some e → e.manage = true → exec c s = .next (answered s h .badArgument .none))
    ∧ (∀ c e, ((∃ a, c = .tableWrite h (some a) ∧ writeForm a = false)
          ∨ (∃ a, c = .tableRead h (some a) ∧ readForm a = false)
          ∨ (∃ r part, c = .readRecord h (some (r, part)) ∧ partsOf (imageOf s r) ≤ part)
          ∨ (∃ n, c = .invokeGate h (some n) ∧ 31 < n) ∨ ∃ n, c = .setLockLevel h (some n) ∧ 3 < n) →
      sourceEntry s h.source = some e → e.manage = true → exec c s = .next (answered s h .badArgument .none))
    ∧ (∀ c e, ((∃ a, c = .tableWrite h (some a) ∧ writeForm a = true) ∨ (∃ id, c = .tableDiscard h (some id))
          ∨ (∃ id, c = .tableCommit h (some id)) ∨ (∃ x, c = .setTime h (some x)) ∨ c = .clearCounters h (some ())
          ∨ c = .restart h (some ())) →
      sourceEntry s h.source = some e → e.manage = true → s.mu.lockLevel < max h.authority e.ceiling →
      exec c s = .next (answered s h .denied .none))
    ∧ (∀ n e, sourceEntry s h.source = some e → e.manage = true → n ≤ 3 →
      exec (.setLockLevel h (some n)) s = .next (if h.authority = 0 ∧ e.ceiling = 0 then
          answered { s with mu := { s.mu with lockLevel := n } } h .ok .none
        else answered s h .denied .none))
    ∧ (∀ r part e, sourceEntry s h.source = some e → e.manage = true → part < partsOf (imageOf s r) →
      exec (.readRecord h (some (r, part))) s
        = .next (answered s h .ok (.record part (partsOf (imageOf s r)) (imageOf s r))))

/-- R185: the station clock is 0 with TIME_UNSET at power-on and RESTART, advances at each 1,000 ms and wraps, and is set by
SET_TIME; CLEAR_COUNTERS clears the counts R185 names and nothing else. An answer dropped after it is counted anew: the
model's choice (log entry 42). The clock's own timer starts with the internal counter at 0 (log entry 2). -/
def Obligations.ClockAndCounters : Prop :=
  ∀ (h : ReqHead) (s : State),
    (∀ strap : BitVec 6, s.powered = false → 1 ≤ strap.toNat → strap.toNat ≤ 62 → ∃ t, exec (.powerOn strap) s = .next t
      ∧ t.mu.clock = 0 ∧ t.mu.timeUnset = true ∧ t.mu.clockAt = some (t.now + 1000))
    ∧ (s.live = true →
      (∀ c, (c = .restart h (some ()) ∧ Permitted s h ∨ c = .deferredRestart ∧ s.mu.restartWaiting = some h) →
        (∀ id x d, s.mu.commit ≠ .storing id x d) → ∃ t, exec c s = .next t
          ∧ t.mu.clock = 0 ∧ t.mu.timeUnset = true ∧ t.mu.clockAt = some (t.now + 1000))
      ∧ (∀ d, s.mu.clockAt = some d → d ≤ s.now →
        exec .clockAdvance s = .next { s with mu := { s.mu with clock := s.mu.clock + 1, clockAt := some (d + 1000) } })
      ∧ (∀ x, Permitted s h → exec (.setTime h (some x)) s = .next (answered { s with
          mu := { s.mu with clock := x, timeUnset := false, clockAt := some (s.now + 1000) } } h .ok .none))
      ∧ (Permitted s h → exec (.clearCounters h (some ())) s = .next (answered { s with
          lp := { s.lp with checkErrors := 0, headerErrors := 0, overruns := 0, broadcastCommands := 0, responseDrops := 0 }
          elr := { s.elr with lostOverflow := 0, lostAlarm := 0, lostNotice := 0, lostLost := 0, badAcks := 0 }
          wells := ⟨{ s.wells.a with negativeBalances := 0 }, { s.wells.b with negativeBalances := 0 }⟩ } h .ok .none)))

/-- R15, R16, R49, R58, R118, R140, R183, R184: a gate that is unused or disabled, held by a higher authority, or whose
precondition does not hold is turned away with its own result and changes nothing. One that passes is carried out by its block
and answered OK, or, where its action does not apply, CONFLICT, which changes nothing but what ALLOW_DRY clears in STORM. That
ROTATE moves the head in FALLBACK too is the model's choice (log entry 48). -/
def Obligations.GatesAct : Prop :=
  ∀ (h : ReqHead) (n : Nat) (e : SourceEntry) (s : State), s.live = true → sourceEntry s h.source = some e →
    e.manage = true → n ≤ 31 →
    ∃ t, exec (.invokeGate h (some n)) s = .next t
    ∧ (gateAt s n = none → t = answered s h .disabled .none)
    ∧ ∀ g, gateAt s n = some g →
      (g.enabled ≠ .name true → t = answered s h .disabled .none)
      ∧ (g.enabled = .name true → g.authority < max h.authority e.ceiling →
        t = answered s h .denied .none)
      ∧ (g.enabled = .name true → max h.authority e.ceiling ≤ g.authority → ¬ PreconditionMet s g.precondition →
        t = answered s h .precondition .none)
      ∧ (g.enabled = .name true → max h.authority e.ceiling ≤ g.authority → PreconditionMet s g.precondition →
        (∀ p, g.action = .name .pumpEnable → g.target = .pump p →
          if (s.pump p).disabled = true then Answered s t h .ok .none ∧ (t.pump p).disabled = false
            ∧ ((s.pump p).state = .unavailable .disabled → (s.pump p).lockout = true → (t.pump p).state = .lockedOut)
            ∧ ((s.pump p).state = .unavailable .disabled → (s.pump p).lockout = false →
                (t.pump p).state = .off ∨ (t.pump p).state = .startWait)
            ∧ ((s.pump p).state = .unavailable .disabled → (s.pump p).lockout = false → Quiet s → (t.pump p).state = .off)
            ∧ ((s.pump p).state ≠ .unavailable .disabled → Quiet s → (t.pump p).state = (s.pump p).state)
          else t = answered s h .conflict .none)
        ∧ (∀ p, g.action = .name .pumpDisable → g.target = .pump p →
          if (s.pump p).disabled = true ∨ (s.pump p).state = .unavailable .notFitted then
            t = answered s h .conflict .none
          else Answered s t h .ok .none ∧ (t.pump p).disabled = true
            ∧ (match (s.pump p).state with
              | .startWait => .requestWithdrawal (.pump p) ∈ t.raised
                  ∧ (t.pump p).state = if (s.pump p).lockout = true then .lockedOut else .unavailable .disabled
              | .starting | .running => (t.pump p).state = .stopping ∧ (t.pump p).stopAt = some (s.now + 30000)
              | .off | .resting | .backoff | .unavailable .skipped => (t.pump p).state = .unavailable .disabled
              | st => (t.pump p).state = st))
        ∧ (∀ p, g.action = .name .pumpClear → g.target = .pump p →
          if (s.pump p).lockout = true then Answered s t h .ok .none
            ∧ (t.pump p).lockout = false ∧ (t.pump p).attempts = 0
            ∧ ((s.pump p).state = .lockedOut → (s.pump p).disabled = true → (t.pump p).state = .unavailable .disabled)
            ∧ ((s.pump p).state = .lockedOut → (s.pump p).disabled = false →
                (t.pump p).state = .off ∨ (t.pump p).state = .startWait)
            ∧ ((s.pump p).state = .lockedOut → (s.pump p).disabled = false → Quiet s → (t.pump p).state = .off)
            ∧ ((s.pump p).state ≠ .lockedOut → Quiet s → (t.pump p).state = (s.pump p).state)
          else t = answered s h .conflict .none)
        ∧ (∀ p, g.action = .name .pumpRelease → g.target = .pump p →
          if (s.pump p).owner = .manual then Answered s t h .ok .none
            ∧ (t.pump p).state = .stopping ∧ (t.pump p).owner = .auto ∧ (t.pump p).stopAt = some (s.now + 30000)
          else t = answered s h .conflict .none)
        ∧ (∀ w, g.action = .name .rotate → g.target = .well w →
          if 2 ≤ (s.duty.rotation.get w).length then Answered s t h .ok .none
            ∧ (Quiet s → t.duty.rotationDue.get w = false ∧ t.duty.rotation.get w =
                (s.duty.rotation.get w).drop 1 ++ (s.duty.rotation.get w).take 1)
          else t = answered s h .conflict .none)
        ∧ (∀ k, g.action = .name .rakeRun → g.target = .screen k →
          if (s.screen k).state = .parked ∧ (s.screen k).localHold = false ∧ (s.chan (homeOf k)).quality ≠ .lost
              ∧ (entryFor s (homeOf k)).isSome then
            Answered s t h .ok .none ∧ (t.screen k).state = .queued ∧ (t.screen k).consecutive = 0
              ∧ ∃ cls, (t.screen k).requestClass = some cls ∧ .startRequest (.rake k) cls ∈ t.raised
          else t = answered s h .conflict .none)
        ∧ (∀ k, g.action = .name .rakeEnable → g.target = .screen k →
          if (s.screen k).state = .outOfService then Answered s t h .ok .none
            ∧ (t.screen k).state = .parked ∧ (t.screen k).outOfService = false ∧ (t.screen k).jams = 0
            ∧ (t.screen k).consecutive = 0
            ∧ (t.screen k).intervalAt = some (s.now + intervalMs s.setup s.ssu.state)
          else t = answered s h .conflict .none)
        ∧ (∀ k, g.action = .name .rakeDisable → g.target = .screen k →
          if (s.screen k).state = .outOfService then t = answered s h .conflict .none
          else Answered s t h .ok .none ∧ (t.screen k).state = .outOfService ∧ (t.screen k).outOfService = true
            ∧ ((s.screen k).state = .queued ∨ (s.screen k).state = .shed →
                (t.screen k).requestClass = none ∧ .requestWithdrawal (.rake k) ∈ t.raised)
            ∧ ((s.screen k).state = .cycling ∨ (s.screen k).state = .jamReverse ∨ (s.screen k).state = .jamPause →
                (t.screen k).charge = .none ∧ (t.screen k).leaveAt = none ∧ (t.screen k).cycleAt = none
                ∧ ((s.screen k).charge ≠ .none → .chargeRelease (.rake k) ∈ t.raised)))
        ∧ (∀ k, g.action = .name .screenClear → g.target = .screen k →
          if (s.screen k).state = .parked ∨ (s.screen k).state = .jammed then Answered s t h .ok .none
            ∧ (t.screen k).state = .parked ∧ (t.screen k).jams = 0 ∧ (t.screen k).baseline = none
            ∧ (t.screen k).baselineCount = 0 ∧ (t.screen k).slowRun = 0 ∧ (t.screen k).wearReported = false
            ∧ (t.screen k).intervalAt = some (s.now + intervalMs s.setup s.ssu.state)
          else t = answered s h .conflict .none)
        ∧ (∀ q, g.action = .name .channelClear → g.target = .quantity q →
          if (entryFor s q).isSome ∧ (s.chan q).quality = .suspect then Answered s t h .ok .none
            ∧ (t.chan q).value = (s.chan q).value ∧ (t.chan q).rejects = 0 ∧ (t.chan q).recovery = 0
            ∧ (t.chan q).quality = (if (s.chan q).value = none then .lost
                else if due (s.chan q).staleAt s.now = true then .held else .good)
            ∧ ((t.chan q).quality = .held → (t.chan q).holdAt = some (s.now + holdLimitOf s q * 1000))
            ∧ ((t.chan q).quality = .good → .recordSubmission (.sensorRecovered q .suspect) ∈ t.raised)
          else t = answered s h .conflict .none)
        ∧ (∀ q, g.action = .name .refCheck → g.target = .quantity q →
          if (∃ x, entryFor s q = some x ∧ x.expected ≠ none) ∧ (s.chan q).awaiting = none then
            Answered s t h .ok .none ∧ if s.lp.control.length < 8 then (t.chan q).awaiting = some s.now
              else (t.chan q).referenceRetryAt ≠ none
          else t = answered s h .conflict .none)
        ∧ (g.action = .name .forceStorm → t.ssu.forced = true
          ∧ if s.ssu.forced = true then t = answered s h .conflict .none
            else Answered s t h .ok .none ∧ t.ssu.state = .storm)
        ∧ (g.action = .name .allowDry →
          (s.ssu.state = .dry → t = answered s h .conflict .none)
          ∧ (s.ssu.state = .storm → t.ssu.forced = false ∧ t.ssu.holdAt = none
            ∧ (s.ssu.tideLock = true ∨ (∃ o, s.ssu.spillSeen.get o ≠ .dry)
                ∨ (∃ w level, (s.well w).quality ≠ .lost ∧ (s.well w).level = some level ∧ s.setup.stormLevel.get w ≤ level)
                ∨ (∃ w, s.setup.stormInflow.get w ≤ ((s.well w).smoothedInflow : Int)) →
              t = answered { s with ssu := { s.ssu with forced := false, holdAt := none } } h .conflict .none)
            ∧ (s.ssu.tideLock = false → (∀ o, s.ssu.spillSeen.get o = .dry) →
                (∀ w level, (s.well w).quality ≠ .lost → (s.well w).level = some level →
                  level < s.setup.stormLevel.get w) →
                (∀ w, ((s.well w).smoothedInflow : Int) < s.setup.stormInflow.get w) →
              Answered s t h .ok .none ∧ t.ssu.state = .dry
                ∧ .recordSubmission (.stormChange .dry .allowDry) ∈ t.raised))))

/-- R164, R165, R186: a restart resets every block on the tables of the store, keeping the own address, the mode, the store and
the forward queue but for RUN and REVERSE frames bound for pumps, and its answer is the one frame of the GENERAL queue; during
a store write it waits for the write, and is made when the write has completed. That the internal counter starts at 0 (log
entry 2), that a deferred restart met during a write does nothing (log entry 7), that the frame LOOP OUT is carrying goes on
leaving (log entry 72), that a waiting forwarded DRIVE_CMD that begins with 1 or 3 counts as a RUN or REVERSE whatever the
length of its payload (log entry 73), and that a RESTART taken while another waits, its write completed, is made and answered
in the other's place (log entry 78), are the model's choices. -/
def Obligations.RestartResets : Prop :=
  ∀ (h : ReqHead) (s : State), s.live = true →
    (∀ c, (c = .restart h (some ()) ∧ Permitted s h ∨ c = .deferredRestart ∧ s.mu.restartWaiting = some h) →
      (∀ id x d, s.mu.commit ≠ .storing id x d) →
      ∃ t, exec c s = .next t ∧ t.mode = s.mode ∧ t.powered = true ∧ t.now = 0
        ∧ t.lp.ownAddress = s.lp.ownAddress ∧ t.lp.sending = s.lp.sending
        ∧ t.lp.forward = s.lp.forward.filter (fun f =>
            !(Pump.all.any fun p => t.setup.fitted p && rawIsRunFor (t.setup.drive.get p).toNat f))
        ∧ t.lp.general = [⟨h.source, s.lp.ownAddress, h.frameSeq, .mgmtRsp h.tag .ok .none⟩]
        ∧ t.store = s.store ∧ t.tables = loadTables s.store ∧ t.budget = Budget.reset t.setup
        ∧ t.elr.records = [] ∧ t.mu.clock = 0 ∧ t.mu.timeUnset = true ∧ t.mu.lockLevel = 0
        ∧ t.mu.commit = .none ∧ t.mu.restartWaiting = none
        ∧ (∀ p w, t.wellOf p = some w → (t.pump p).state = .float)
        ∧ (∀ w, t.ssu.well.get w = .fallback))
    ∧ (∀ id x d, s.mu.commit = .storing id x d →
      (Permitted s h → s.mu.restartWaiting = none →
        exec (.restart h (some ())) s = .next { s with mu := { s.mu with restartWaiting := some h } })
      ∧ exec .deferredRestart s = .next s)
end

