-- ==== Sys2Proof/Laws/Account.lean ====
section
/-! SUPPORT. What SB's sweep and examination of the queue, and MU's answer to a request, can do. -/

namespace Sys2Proof.Machine

/-! ## The account -/

theorem entryOfReq_setEntry (b : Budget) (r x : Requester) (e : ChargeEntry) :
    entryOfReq (setEntry b r e) x = if x = r then e else entryOfReq b x := by
  rcases r with p | k <;> rcases x with q | j
  · cases p <;> cases q <;> rfl
  · cases p <;> cases j <;> rfl
  · cases k <;> cases q <;> rfl
  · cases k <;> cases j <;> rfl

@[simp] theorem setEntry_reserve (b : Budget) (r : Requester) (e : ChargeEntry) :
    (setEntry b r e).reserve = b.reserve := by cases r <;> rfl
@[simp] theorem setEntry_queue (b : Budget) (r : Requester) (e : ChargeEntry) :
    (setEntry b r e).queue = b.queue := by cases r <;> rfl
@[simp] theorem setEntry_arrivals (b : Budget) (r : Requester) (e : ChargeEntry) :
    (setEntry b r e).arrivals = b.arrivals := by cases r <;> rfl
@[simp] theorem setEntry_supply (b : Budget) (r : Requester) (e : ChargeEntry) :
    (setEntry b r e).supply = b.supply := by cases r <;> rfl

/-- The committed weight is that of the entries and the reserves. -/
theorem committed_congr {b b' : Budget} (h : ∀ x, (entryOfReq b x).weight = (entryOfReq b' x).weight)
    (hr : b.reserve = b'.reserve) : committed b = committed b' := by
  unfold committed
  simp only [h, hr]

/-- The releasing weight is that of the entries. -/
theorem releasing_congr {b b' : Budget} (h : ∀ x, entryOfReq b x = entryOfReq b' x) : releasing b = releasing b' := by
  unfold releasing
  simp only [h]

theorem committed_setEntry_le (b : Budget) (r : Requester) (e : ChargeEntry) :
    committed (setEntry b r e) ≤ committed b + e.weight := by
  rcases r with p | k
  · cases p <;>
      simp [committed, requesters, Pump.all, Screen.all, entryOfReq, setEntry, PerPump.get, PerPump.set] <;> omega
  · cases k <;>
      simp [committed, requesters, Pump.all, Screen.all, entryOfReq, setEntry, PerScreen.get, PerScreen.set] <;> omega

/-! ## The sweep (R97) -/

/-- What taking candidates from an account does: a first part of them is taken and flagged, nothing else changes, they end where
the weight fits or none is left, and no shorter part of them would do. -/
structure Taken (cap : Nat) (list : List Requester) (b b' : Budget) (shed : List Requester) : Prop where
  first : shed <+: list
  entries : ∀ x, entryOfReq b' x =
    if x ∈ shed then { entryOfReq b x with releasing := true } else entryOfReq b x
  rest : b'.reserve = b.reserve ∧ b'.queue = b.queue ∧ b'.arrivals = b.arrivals ∧ b'.supply = b.supply
  ends : committed b' ≤ cap + releasing b' ∨ shed = list
  needed : ∀ k c, k < shed.length → (∀ x, entryOfReq c x =
    if x ∈ shed.take k then { entryOfReq b x with releasing := true } else entryOfReq b x) →
    cap + releasing c < committed b

theorem takeCandidates_taken (cap : Nat) (list : List Requester) (b : Budget) :
    Taken cap list b (takeCandidates cap list b).1 (takeCandidates cap list b).2 := by
  induction list generalizing b with
  | nil => exact ⟨List.prefix_rfl, by simp [takeCandidates], by simp [takeCandidates], .inr rfl, by simp [takeCandidates]⟩
  | cons c cs ih =>
    unfold takeCandidates
    split
    · rename_i fits
      exact ⟨List.nil_prefix, by simp, by simp, .inl fits, by simp⟩
    · rename_i above
      have same : committed (setEntry b c { entryOfReq b c with releasing := true }) = committed b := by
        refine committed_congr (fun x => ?_) (setEntry_reserve _ _ _)
        rw [entryOfReq_setEntry]
        split
        · subst x; rfl
        · rfl
      obtain ⟨first, entries, rest, ends, needed⟩ := ih (setEntry b c { entryOfReq b c with releasing := true })
      refine ⟨by simpa using first, fun x => ?_, by simpa using rest, ends.imp id (by simp), fun k b' hk hb => ?_⟩
      · simp only [entries, entryOfReq_setEntry, List.mem_cons]
        by_cases h : x = c
        · subst h; simp
        · simp [h]
      · cases k with
        | zero =>
          rw [releasing_congr (b' := b) (by simpa using hb)]
          omega
        | succ k =>
          rw [← same]
          refine needed k b' (by simpa using hk) fun x => ?_
          rw [hb]
          simp only [List.take_succ_cons, List.mem_cons, entryOfReq_setEntry]
          by_cases h : x = c
          · subst h; simp
          · simp [h]

/-! ## The examination of the queue (R95) -/

/-- What an examination of the queue does: its head requests are granted, each charged at its start weight while that fits, until
the head does not fit. -/
structure Granted (s t : State) (granted : List Requester) : Prop where
  frame : t = { s with budget := t.budget, raised := s.raised ++ granted.map grantEvent }
  rest : t.budget.supply = s.budget.supply ∧ t.budget.reserve = s.budget.reserve ∧ t.budget.arrivals = s.budget.arrivals
  entries : ∀ x, entryOfReq t.budget x =
    if x ∈ granted then ⟨.start, startWeight s x, false⟩ else entryOfReq s.budget x
  queue : s.budget.queue.map (·.requester) = granted ++ t.budget.queue.map (·.requester)
  left : t.budget.queue = s.budget.queue.drop granted.length
  bound : committed t.budget ≤ max (committed s.budget) (capacity s)
  each : ∀ k x b, granted[k]? = some x → b.reserve = s.budget.reserve → (∀ y, entryOfReq b y =
      if y ∈ granted.take k then ⟨.start, startWeight s y, false⟩ else entryOfReq s.budget y) →
    committed b + startWeight s x ≤ capacity s
  ends : ∀ q, t.budget.queue.head? = some q → capacity s < committed t.budget + startWeight s q.requester

theorem grantHead_startWeight (s : State) (q : Request) (rest : List Request) :
    startWeight (grantHead s q rest) = startWeight s := by funext x; cases x <;> rfl
theorem grantHead_entry (s : State) (q : Request) (rest : List Request) (x : Requester) :
    entryOfReq (grantHead s q rest).budget x =
      if x = q.requester then ⟨.start, startWeight s q.requester, false⟩ else entryOfReq s.budget x := by
  rw [← entryOfReq_setEntry]
  cases x <;> rfl
theorem grantHead_capacity (s : State) (q : Request) (rest : List Request) :
    capacity (grantHead s q rest) = capacity s := by
  show capacityOf _ (setEntry s.budget q.requester _).supply = _
  rw [setEntry_supply]
  rfl
theorem grantHead_committed (s : State) (q : Request) (rest : List Request) :
    committed (grantHead s q rest).budget ≤ committed s.budget + startWeight s q.requester :=
  committed_setEntry_le s.budget q.requester ⟨.start, startWeight s q.requester, false⟩

theorem examineFuel_granted (n : Nat) (s : State) (hn : n = s.budget.queue.length) :
    ∃ granted, Granted s (examineFuel n s) granted := by
  induction n generalizing s with
  | zero =>
    have none : s.budget.queue = [] := List.length_eq_zero_iff.1 hn.symm
    exact ⟨[], by simp [examineFuel], by simp [examineFuel], by simp [examineFuel], by simp [examineFuel],
      by simp [examineFuel], by simp [examineFuel], by simp, by simp [examineFuel, none]⟩
  | succ n ih =>
    unfold examineFuel
    cases hq : s.budget.queue with
    | nil => simp [hq] at hn
    | cons q rest =>
      simp only
      split
      · rename_i fits
        obtain ⟨granted, frame, others, entries, queue, left, bound, each, ends⟩ :=
          ih (grantHead s q rest) (Nat.succ.inj (hn.trans (congrArg List.length hq)))
        rw [grantHead_capacity] at bound each ends
        have reserve : (grantHead s q rest).budget.reserve = s.budget.reserve :=
          setEntry_reserve s.budget q.requester _
        have after := grantHead_committed s q rest
        refine ⟨q.requester :: granted, ⟨?_, ?_, fun x => ?_, ?_, ?_, by omega, fun k x b hk hb hy => ?_, ?_⟩⟩
        · exact frame.trans (by simp [grantHead, State.raise])
        · refine ⟨others.1.trans ?_, others.2.1.trans reserve, others.2.2.trans ?_⟩
          · exact setEntry_supply s.budget q.requester _
          · exact setEntry_arrivals s.budget q.requester _
        · rw [entries, grantHead_entry, grantHead_startWeight]
          by_cases h : x = q.requester
          · subst h; simp
          · simp [h]
        · rw [hq]
          exact congrArg (q.requester :: ·) queue
        · rw [hq]
          exact left
        · cases k with
          | zero =>
            obtain rfl : q.requester = x := by simpa using hk
            rw [committed_congr (b' := s.budget) (fun y => by rw [hy]; simp) hb]
            exact fits
          | succ k =>
            rw [← grantHead_startWeight s q rest]
            refine each k x b (by simpa using hk) (hb.trans reserve.symm) fun y => ?_
            rw [hy, grantHead_entry, grantHead_startWeight]
            simp only [List.take_succ_cons, List.mem_cons]
            by_cases h : y = q.requester
            · subst h; simp
            · simp [h]
        · rw [← grantHead_startWeight s q rest]
          exact ends
      · rename_i above
        exact ⟨[], by simp, by simp, by simp, by simp, by simp, by simp, by simp, by
          intro x hx
          obtain rfl : q = x := by simpa [hq] using hx
          omega⟩

theorem examine_granted (s : State) : ∃ granted, Granted s (examine s) granted := examineFuel_granted _ s rfl

/-! ## The answer to a request (R176) -/

theorem respond_eq (s : State) (h : ReqHead) (result : ResultCode) (data : RspData) :
    respond s h result data = answered s h result data := by
  unfold respond answered offerGeneral
  by_cases room : s.lp.general.length < 8
  · have choice : choiceOnJoin s.lp = true ↔
        s.lp.sending = none ∧ s.lp.forward = [] ∧ s.lp.control = [] ∧ s.lp.general = [] := by
      simp [choiceOnJoin, and_assoc]
    by_cases idle : choiceOnJoin s.lp = true
    · simp [State.raiseIf, State.raise, completeFrame, sequenceAfter, idle, choice.1 idle]
    · simp [room, State.raiseIf, completeFrame, sequenceAfter, idle, mt choice.2 idle]
  · simp [room]

end Sys2Proof.Machine
end

