-- ==== Sys2Proof/Laws/State.lean ====
section
/-! SUPPORT. One lemma per field and update of the state, and reading a family after writing it. -/

namespace Sys2Proof.Machine

variable (s : State)

@[simp] theorem State.setChan_powered (q : Quantity) (r : ChannelRecord) : (s.setChan q r).powered = s.powered := rfl
@[simp] theorem State.setChan_mode (q : Quantity) (r : ChannelRecord) : (s.setChan q r).mode = s.mode := rfl
@[simp] theorem State.setChan_now (q : Quantity) (r : ChannelRecord) : (s.setChan q r).now = s.now := rfl
@[simp] theorem State.setChan_lp (q : Quantity) (r : ChannelRecord) : (s.setChan q r).lp = s.lp := rfl
@[simp] theorem State.setChan_channels (q : Quantity) (r : ChannelRecord) : (s.setChan q r).channels = s.channels.set q r := rfl
@[simp] theorem State.setChan_nodes (q : Quantity) (r : ChannelRecord) : (s.setChan q r).nodes = s.nodes := rfl
@[simp] theorem State.setChan_blanking (q : Quantity) (r : ChannelRecord) : (s.setChan q r).blanking = s.blanking := rfl
@[simp] theorem State.setChan_wells (q : Quantity) (r : ChannelRecord) : (s.setChan q r).wells = s.wells := rfl
@[simp] theorem State.setChan_pumps (q : Quantity) (r : ChannelRecord) : (s.setChan q r).pumps = s.pumps := rfl
@[simp] theorem State.setChan_duty (q : Quantity) (r : ChannelRecord) : (s.setChan q r).duty = s.duty := rfl
@[simp] theorem State.setChan_budget (q : Quantity) (r : ChannelRecord) : (s.setChan q r).budget = s.budget := rfl
@[simp] theorem State.setChan_screens (q : Quantity) (r : ChannelRecord) : (s.setChan q r).screens = s.screens := rfl
@[simp] theorem State.setChan_hourAt (q : Quantity) (r : ChannelRecord) : (s.setChan q r).hourAt = s.hourAt := rfl
@[simp] theorem State.setChan_points (q : Quantity) (r : ChannelRecord) : (s.setChan q r).points = s.points := rfl
@[simp] theorem State.setChan_ssu (q : Quantity) (r : ChannelRecord) : (s.setChan q r).ssu = s.ssu := rfl
@[simp] theorem State.setChan_elr (q : Quantity) (r : ChannelRecord) : (s.setChan q r).elr = s.elr := rfl
@[simp] theorem State.setChan_mu (q : Quantity) (r : ChannelRecord) : (s.setChan q r).mu = s.mu := rfl
@[simp] theorem State.setChan_tables (q : Quantity) (r : ChannelRecord) : (s.setChan q r).tables = s.tables := rfl
@[simp] theorem State.setChan_store (q : Quantity) (r : ChannelRecord) : (s.setChan q r).store = s.store := rfl
@[simp] theorem State.setChan_raised (q : Quantity) (r : ChannelRecord) : (s.setChan q r).raised = s.raised := rfl
@[simp] theorem State.setChan_pending (q : Quantity) (r : ChannelRecord) : (s.setChan q r).pending = s.pending := rfl
@[simp] theorem State.setChan_free (q : Quantity) (r : ChannelRecord) : (s.setChan q r).free = s.free := rfl

@[simp] theorem State.setWell_powered (w : Well) (r : WellRecord) : (s.setWell w r).powered = s.powered := rfl
@[simp] theorem State.setWell_mode (w : Well) (r : WellRecord) : (s.setWell w r).mode = s.mode := rfl
@[simp] theorem State.setWell_now (w : Well) (r : WellRecord) : (s.setWell w r).now = s.now := rfl
@[simp] theorem State.setWell_lp (w : Well) (r : WellRecord) : (s.setWell w r).lp = s.lp := rfl
@[simp] theorem State.setWell_channels (w : Well) (r : WellRecord) : (s.setWell w r).channels = s.channels := rfl
@[simp] theorem State.setWell_nodes (w : Well) (r : WellRecord) : (s.setWell w r).nodes = s.nodes := rfl
@[simp] theorem State.setWell_blanking (w : Well) (r : WellRecord) : (s.setWell w r).blanking = s.blanking := rfl
@[simp] theorem State.setWell_wells (w : Well) (r : WellRecord) : (s.setWell w r).wells = s.wells.set w r := rfl
@[simp] theorem State.setWell_pumps (w : Well) (r : WellRecord) : (s.setWell w r).pumps = s.pumps := rfl
@[simp] theorem State.setWell_duty (w : Well) (r : WellRecord) : (s.setWell w r).duty = s.duty := rfl
@[simp] theorem State.setWell_budget (w : Well) (r : WellRecord) : (s.setWell w r).budget = s.budget := rfl
@[simp] theorem State.setWell_screens (w : Well) (r : WellRecord) : (s.setWell w r).screens = s.screens := rfl
@[simp] theorem State.setWell_hourAt (w : Well) (r : WellRecord) : (s.setWell w r).hourAt = s.hourAt := rfl
@[simp] theorem State.setWell_points (w : Well) (r : WellRecord) : (s.setWell w r).points = s.points := rfl
@[simp] theorem State.setWell_ssu (w : Well) (r : WellRecord) : (s.setWell w r).ssu = s.ssu := rfl
@[simp] theorem State.setWell_elr (w : Well) (r : WellRecord) : (s.setWell w r).elr = s.elr := rfl
@[simp] theorem State.setWell_mu (w : Well) (r : WellRecord) : (s.setWell w r).mu = s.mu := rfl
@[simp] theorem State.setWell_tables (w : Well) (r : WellRecord) : (s.setWell w r).tables = s.tables := rfl
@[simp] theorem State.setWell_store (w : Well) (r : WellRecord) : (s.setWell w r).store = s.store := rfl
@[simp] theorem State.setWell_raised (w : Well) (r : WellRecord) : (s.setWell w r).raised = s.raised := rfl
@[simp] theorem State.setWell_pending (w : Well) (r : WellRecord) : (s.setWell w r).pending = s.pending := rfl
@[simp] theorem State.setWell_free (w : Well) (r : WellRecord) : (s.setWell w r).free = s.free := rfl

@[simp] theorem State.setPump_powered (p : Pump) (r : PumpRecord) : (s.setPump p r).powered = s.powered := rfl
@[simp] theorem State.setPump_mode (p : Pump) (r : PumpRecord) : (s.setPump p r).mode = s.mode := rfl
@[simp] theorem State.setPump_now (p : Pump) (r : PumpRecord) : (s.setPump p r).now = s.now := rfl
@[simp] theorem State.setPump_lp (p : Pump) (r : PumpRecord) : (s.setPump p r).lp = s.lp := rfl
@[simp] theorem State.setPump_channels (p : Pump) (r : PumpRecord) : (s.setPump p r).channels = s.channels := rfl
@[simp] theorem State.setPump_nodes (p : Pump) (r : PumpRecord) : (s.setPump p r).nodes = s.nodes := rfl
@[simp] theorem State.setPump_blanking (p : Pump) (r : PumpRecord) : (s.setPump p r).blanking = s.blanking := rfl
@[simp] theorem State.setPump_wells (p : Pump) (r : PumpRecord) : (s.setPump p r).wells = s.wells := rfl
@[simp] theorem State.setPump_pumps (p : Pump) (r : PumpRecord) : (s.setPump p r).pumps = s.pumps.set p r := rfl
@[simp] theorem State.setPump_duty (p : Pump) (r : PumpRecord) : (s.setPump p r).duty = s.duty := rfl
@[simp] theorem State.setPump_budget (p : Pump) (r : PumpRecord) : (s.setPump p r).budget = s.budget := rfl
@[simp] theorem State.setPump_screens (p : Pump) (r : PumpRecord) : (s.setPump p r).screens = s.screens := rfl
@[simp] theorem State.setPump_hourAt (p : Pump) (r : PumpRecord) : (s.setPump p r).hourAt = s.hourAt := rfl
@[simp] theorem State.setPump_points (p : Pump) (r : PumpRecord) : (s.setPump p r).points = s.points := rfl
@[simp] theorem State.setPump_ssu (p : Pump) (r : PumpRecord) : (s.setPump p r).ssu = s.ssu := rfl
@[simp] theorem State.setPump_elr (p : Pump) (r : PumpRecord) : (s.setPump p r).elr = s.elr := rfl
@[simp] theorem State.setPump_mu (p : Pump) (r : PumpRecord) : (s.setPump p r).mu = s.mu := rfl
@[simp] theorem State.setPump_tables (p : Pump) (r : PumpRecord) : (s.setPump p r).tables = s.tables := rfl
@[simp] theorem State.setPump_store (p : Pump) (r : PumpRecord) : (s.setPump p r).store = s.store := rfl
@[simp] theorem State.setPump_raised (p : Pump) (r : PumpRecord) : (s.setPump p r).raised = s.raised := rfl
@[simp] theorem State.setPump_pending (p : Pump) (r : PumpRecord) : (s.setPump p r).pending = s.pending := rfl
@[simp] theorem State.setPump_free (p : Pump) (r : PumpRecord) : (s.setPump p r).free = s.free := rfl

@[simp] theorem State.setScreen_powered (k : Screen) (r : ScreenRecord) : (s.setScreen k r).powered = s.powered := rfl
@[simp] theorem State.setScreen_mode (k : Screen) (r : ScreenRecord) : (s.setScreen k r).mode = s.mode := rfl
@[simp] theorem State.setScreen_now (k : Screen) (r : ScreenRecord) : (s.setScreen k r).now = s.now := rfl
@[simp] theorem State.setScreen_lp (k : Screen) (r : ScreenRecord) : (s.setScreen k r).lp = s.lp := rfl
@[simp] theorem State.setScreen_channels (k : Screen) (r : ScreenRecord) : (s.setScreen k r).channels = s.channels := rfl
@[simp] theorem State.setScreen_nodes (k : Screen) (r : ScreenRecord) : (s.setScreen k r).nodes = s.nodes := rfl
@[simp] theorem State.setScreen_blanking (k : Screen) (r : ScreenRecord) : (s.setScreen k r).blanking = s.blanking := rfl
@[simp] theorem State.setScreen_wells (k : Screen) (r : ScreenRecord) : (s.setScreen k r).wells = s.wells := rfl
@[simp] theorem State.setScreen_pumps (k : Screen) (r : ScreenRecord) : (s.setScreen k r).pumps = s.pumps := rfl
@[simp] theorem State.setScreen_duty (k : Screen) (r : ScreenRecord) : (s.setScreen k r).duty = s.duty := rfl
@[simp] theorem State.setScreen_budget (k : Screen) (r : ScreenRecord) : (s.setScreen k r).budget = s.budget := rfl
@[simp] theorem State.setScreen_screens (k : Screen) (r : ScreenRecord) : (s.setScreen k r).screens = s.screens.set k r := rfl
@[simp] theorem State.setScreen_hourAt (k : Screen) (r : ScreenRecord) : (s.setScreen k r).hourAt = s.hourAt := rfl
@[simp] theorem State.setScreen_points (k : Screen) (r : ScreenRecord) : (s.setScreen k r).points = s.points := rfl
@[simp] theorem State.setScreen_ssu (k : Screen) (r : ScreenRecord) : (s.setScreen k r).ssu = s.ssu := rfl
@[simp] theorem State.setScreen_elr (k : Screen) (r : ScreenRecord) : (s.setScreen k r).elr = s.elr := rfl
@[simp] theorem State.setScreen_mu (k : Screen) (r : ScreenRecord) : (s.setScreen k r).mu = s.mu := rfl
@[simp] theorem State.setScreen_tables (k : Screen) (r : ScreenRecord) : (s.setScreen k r).tables = s.tables := rfl
@[simp] theorem State.setScreen_store (k : Screen) (r : ScreenRecord) : (s.setScreen k r).store = s.store := rfl
@[simp] theorem State.setScreen_raised (k : Screen) (r : ScreenRecord) : (s.setScreen k r).raised = s.raised := rfl
@[simp] theorem State.setScreen_pending (k : Screen) (r : ScreenRecord) : (s.setScreen k r).pending = s.pending := rfl
@[simp] theorem State.setScreen_free (k : Screen) (r : ScreenRecord) : (s.setScreen k r).free = s.free := rfl

@[simp] theorem State.setPoint_powered (o : Point) (r : PointRecord) : (s.setPoint o r).powered = s.powered := rfl
@[simp] theorem State.setPoint_mode (o : Point) (r : PointRecord) : (s.setPoint o r).mode = s.mode := rfl
@[simp] theorem State.setPoint_now (o : Point) (r : PointRecord) : (s.setPoint o r).now = s.now := rfl
@[simp] theorem State.setPoint_lp (o : Point) (r : PointRecord) : (s.setPoint o r).lp = s.lp := rfl
@[simp] theorem State.setPoint_channels (o : Point) (r : PointRecord) : (s.setPoint o r).channels = s.channels := rfl
@[simp] theorem State.setPoint_nodes (o : Point) (r : PointRecord) : (s.setPoint o r).nodes = s.nodes := rfl
@[simp] theorem State.setPoint_blanking (o : Point) (r : PointRecord) : (s.setPoint o r).blanking = s.blanking := rfl
@[simp] theorem State.setPoint_wells (o : Point) (r : PointRecord) : (s.setPoint o r).wells = s.wells := rfl
@[simp] theorem State.setPoint_pumps (o : Point) (r : PointRecord) : (s.setPoint o r).pumps = s.pumps := rfl
@[simp] theorem State.setPoint_duty (o : Point) (r : PointRecord) : (s.setPoint o r).duty = s.duty := rfl
@[simp] theorem State.setPoint_budget (o : Point) (r : PointRecord) : (s.setPoint o r).budget = s.budget := rfl
@[simp] theorem State.setPoint_screens (o : Point) (r : PointRecord) : (s.setPoint o r).screens = s.screens := rfl
@[simp] theorem State.setPoint_hourAt (o : Point) (r : PointRecord) : (s.setPoint o r).hourAt = s.hourAt := rfl
@[simp] theorem State.setPoint_points (o : Point) (r : PointRecord) : (s.setPoint o r).points = s.points.set o r := rfl
@[simp] theorem State.setPoint_ssu (o : Point) (r : PointRecord) : (s.setPoint o r).ssu = s.ssu := rfl
@[simp] theorem State.setPoint_elr (o : Point) (r : PointRecord) : (s.setPoint o r).elr = s.elr := rfl
@[simp] theorem State.setPoint_mu (o : Point) (r : PointRecord) : (s.setPoint o r).mu = s.mu := rfl
@[simp] theorem State.setPoint_tables (o : Point) (r : PointRecord) : (s.setPoint o r).tables = s.tables := rfl
@[simp] theorem State.setPoint_store (o : Point) (r : PointRecord) : (s.setPoint o r).store = s.store := rfl
@[simp] theorem State.setPoint_raised (o : Point) (r : PointRecord) : (s.setPoint o r).raised = s.raised := rfl
@[simp] theorem State.setPoint_pending (o : Point) (r : PointRecord) : (s.setPoint o r).pending = s.pending := rfl
@[simp] theorem State.setPoint_free (o : Point) (r : PointRecord) : (s.setPoint o r).free = s.free := rfl

@[simp] theorem State.setElr_powered (l : EventLog) : (s.setElr l).powered = s.powered := rfl
@[simp] theorem State.setElr_mode (l : EventLog) : (s.setElr l).mode = s.mode := rfl
@[simp] theorem State.setElr_now (l : EventLog) : (s.setElr l).now = s.now := rfl
@[simp] theorem State.setElr_lp (l : EventLog) : (s.setElr l).lp = s.lp := rfl
@[simp] theorem State.setElr_channels (l : EventLog) : (s.setElr l).channels = s.channels := rfl
@[simp] theorem State.setElr_nodes (l : EventLog) : (s.setElr l).nodes = s.nodes := rfl
@[simp] theorem State.setElr_blanking (l : EventLog) : (s.setElr l).blanking = s.blanking := rfl
@[simp] theorem State.setElr_wells (l : EventLog) : (s.setElr l).wells = s.wells := rfl
@[simp] theorem State.setElr_pumps (l : EventLog) : (s.setElr l).pumps = s.pumps := rfl
@[simp] theorem State.setElr_duty (l : EventLog) : (s.setElr l).duty = s.duty := rfl
@[simp] theorem State.setElr_budget (l : EventLog) : (s.setElr l).budget = s.budget := rfl
@[simp] theorem State.setElr_screens (l : EventLog) : (s.setElr l).screens = s.screens := rfl
@[simp] theorem State.setElr_hourAt (l : EventLog) : (s.setElr l).hourAt = s.hourAt := rfl
@[simp] theorem State.setElr_points (l : EventLog) : (s.setElr l).points = s.points := rfl
@[simp] theorem State.setElr_ssu (l : EventLog) : (s.setElr l).ssu = s.ssu := rfl
@[simp] theorem State.setElr_elr (l : EventLog) : (s.setElr l).elr = l := rfl
@[simp] theorem State.setElr_mu (l : EventLog) : (s.setElr l).mu = s.mu := rfl
@[simp] theorem State.setElr_tables (l : EventLog) : (s.setElr l).tables = s.tables := rfl
@[simp] theorem State.setElr_store (l : EventLog) : (s.setElr l).store = s.store := rfl
@[simp] theorem State.setElr_raised (l : EventLog) : (s.setElr l).raised = s.raised := rfl
@[simp] theorem State.setElr_pending (l : EventLog) : (s.setElr l).pending = s.pending := rfl
@[simp] theorem State.setElr_free (l : EventLog) : (s.setElr l).free = s.free := rfl

@[simp] theorem State.setLp_powered (l : Loop) : (s.setLp l).powered = s.powered := rfl
@[simp] theorem State.setLp_mode (l : Loop) : (s.setLp l).mode = s.mode := rfl
@[simp] theorem State.setLp_now (l : Loop) : (s.setLp l).now = s.now := rfl
@[simp] theorem State.setLp_lp (l : Loop) : (s.setLp l).lp = l := rfl
@[simp] theorem State.setLp_channels (l : Loop) : (s.setLp l).channels = s.channels := rfl
@[simp] theorem State.setLp_nodes (l : Loop) : (s.setLp l).nodes = s.nodes := rfl
@[simp] theorem State.setLp_blanking (l : Loop) : (s.setLp l).blanking = s.blanking := rfl
@[simp] theorem State.setLp_wells (l : Loop) : (s.setLp l).wells = s.wells := rfl
@[simp] theorem State.setLp_pumps (l : Loop) : (s.setLp l).pumps = s.pumps := rfl
@[simp] theorem State.setLp_duty (l : Loop) : (s.setLp l).duty = s.duty := rfl
@[simp] theorem State.setLp_budget (l : Loop) : (s.setLp l).budget = s.budget := rfl
@[simp] theorem State.setLp_screens (l : Loop) : (s.setLp l).screens = s.screens := rfl
@[simp] theorem State.setLp_hourAt (l : Loop) : (s.setLp l).hourAt = s.hourAt := rfl
@[simp] theorem State.setLp_points (l : Loop) : (s.setLp l).points = s.points := rfl
@[simp] theorem State.setLp_ssu (l : Loop) : (s.setLp l).ssu = s.ssu := rfl
@[simp] theorem State.setLp_elr (l : Loop) : (s.setLp l).elr = s.elr := rfl
@[simp] theorem State.setLp_mu (l : Loop) : (s.setLp l).mu = s.mu := rfl
@[simp] theorem State.setLp_tables (l : Loop) : (s.setLp l).tables = s.tables := rfl
@[simp] theorem State.setLp_store (l : Loop) : (s.setLp l).store = s.store := rfl
@[simp] theorem State.setLp_raised (l : Loop) : (s.setLp l).raised = s.raised := rfl
@[simp] theorem State.setLp_pending (l : Loop) : (s.setLp l).pending = s.pending := rfl
@[simp] theorem State.setLp_free (l : Loop) : (s.setLp l).free = s.free := rfl

@[simp] theorem State.raise_powered (e : Instr) : (s.raise e).powered = s.powered := rfl
@[simp] theorem State.raise_mode (e : Instr) : (s.raise e).mode = s.mode := rfl
@[simp] theorem State.raise_now (e : Instr) : (s.raise e).now = s.now := rfl
@[simp] theorem State.raise_lp (e : Instr) : (s.raise e).lp = s.lp := rfl
@[simp] theorem State.raise_channels (e : Instr) : (s.raise e).channels = s.channels := rfl
@[simp] theorem State.raise_nodes (e : Instr) : (s.raise e).nodes = s.nodes := rfl
@[simp] theorem State.raise_blanking (e : Instr) : (s.raise e).blanking = s.blanking := rfl
@[simp] theorem State.raise_wells (e : Instr) : (s.raise e).wells = s.wells := rfl
@[simp] theorem State.raise_pumps (e : Instr) : (s.raise e).pumps = s.pumps := rfl
@[simp] theorem State.raise_duty (e : Instr) : (s.raise e).duty = s.duty := rfl
@[simp] theorem State.raise_budget (e : Instr) : (s.raise e).budget = s.budget := rfl
@[simp] theorem State.raise_screens (e : Instr) : (s.raise e).screens = s.screens := rfl
@[simp] theorem State.raise_hourAt (e : Instr) : (s.raise e).hourAt = s.hourAt := rfl
@[simp] theorem State.raise_points (e : Instr) : (s.raise e).points = s.points := rfl
@[simp] theorem State.raise_ssu (e : Instr) : (s.raise e).ssu = s.ssu := rfl
@[simp] theorem State.raise_elr (e : Instr) : (s.raise e).elr = s.elr := rfl
@[simp] theorem State.raise_mu (e : Instr) : (s.raise e).mu = s.mu := rfl
@[simp] theorem State.raise_tables (e : Instr) : (s.raise e).tables = s.tables := rfl
@[simp] theorem State.raise_store (e : Instr) : (s.raise e).store = s.store := rfl
@[simp] theorem State.raise_raised (e : Instr) : (s.raise e).raised = s.raised ++ [e] := rfl
@[simp] theorem State.raise_pending (e : Instr) : (s.raise e).pending = s.pending := rfl
@[simp] theorem State.raise_free (e : Instr) : (s.raise e).free = s.free := rfl

@[simp] theorem State.submit_powered (b : RecordBody) : (s.submit b).powered = s.powered := rfl
@[simp] theorem State.submit_mode (b : RecordBody) : (s.submit b).mode = s.mode := rfl
@[simp] theorem State.submit_now (b : RecordBody) : (s.submit b).now = s.now := rfl
@[simp] theorem State.submit_lp (b : RecordBody) : (s.submit b).lp = s.lp := rfl
@[simp] theorem State.submit_channels (b : RecordBody) : (s.submit b).channels = s.channels := rfl
@[simp] theorem State.submit_nodes (b : RecordBody) : (s.submit b).nodes = s.nodes := rfl
@[simp] theorem State.submit_blanking (b : RecordBody) : (s.submit b).blanking = s.blanking := rfl
@[simp] theorem State.submit_wells (b : RecordBody) : (s.submit b).wells = s.wells := rfl
@[simp] theorem State.submit_pumps (b : RecordBody) : (s.submit b).pumps = s.pumps := rfl
@[simp] theorem State.submit_duty (b : RecordBody) : (s.submit b).duty = s.duty := rfl
@[simp] theorem State.submit_budget (b : RecordBody) : (s.submit b).budget = s.budget := rfl
@[simp] theorem State.submit_screens (b : RecordBody) : (s.submit b).screens = s.screens := rfl
@[simp] theorem State.submit_hourAt (b : RecordBody) : (s.submit b).hourAt = s.hourAt := rfl
@[simp] theorem State.submit_points (b : RecordBody) : (s.submit b).points = s.points := rfl
@[simp] theorem State.submit_ssu (b : RecordBody) : (s.submit b).ssu = s.ssu := rfl
@[simp] theorem State.submit_elr (b : RecordBody) : (s.submit b).elr = s.elr := rfl
@[simp] theorem State.submit_mu (b : RecordBody) : (s.submit b).mu = s.mu := rfl
@[simp] theorem State.submit_tables (b : RecordBody) : (s.submit b).tables = s.tables := rfl
@[simp] theorem State.submit_store (b : RecordBody) : (s.submit b).store = s.store := rfl
@[simp] theorem State.submit_raised (b : RecordBody) : (s.submit b).raised = s.raised ++ [.recordSubmission b] := rfl
@[simp] theorem State.submit_pending (b : RecordBody) : (s.submit b).pending = s.pending := rfl
@[simp] theorem State.submit_free (b : RecordBody) : (s.submit b).free = s.free := rfl

@[simp] theorem State.raiseAll_powered (es : List Instr) : (s.raiseAll es).powered = s.powered := rfl
@[simp] theorem State.raiseAll_mode (es : List Instr) : (s.raiseAll es).mode = s.mode := rfl
@[simp] theorem State.raiseAll_now (es : List Instr) : (s.raiseAll es).now = s.now := rfl
@[simp] theorem State.raiseAll_lp (es : List Instr) : (s.raiseAll es).lp = s.lp := rfl
@[simp] theorem State.raiseAll_channels (es : List Instr) : (s.raiseAll es).channels = s.channels := rfl
@[simp] theorem State.raiseAll_nodes (es : List Instr) : (s.raiseAll es).nodes = s.nodes := rfl
@[simp] theorem State.raiseAll_blanking (es : List Instr) : (s.raiseAll es).blanking = s.blanking := rfl
@[simp] theorem State.raiseAll_wells (es : List Instr) : (s.raiseAll es).wells = s.wells := rfl
@[simp] theorem State.raiseAll_pumps (es : List Instr) : (s.raiseAll es).pumps = s.pumps := rfl
@[simp] theorem State.raiseAll_duty (es : List Instr) : (s.raiseAll es).duty = s.duty := rfl
@[simp] theorem State.raiseAll_budget (es : List Instr) : (s.raiseAll es).budget = s.budget := rfl
@[simp] theorem State.raiseAll_screens (es : List Instr) : (s.raiseAll es).screens = s.screens := rfl
@[simp] theorem State.raiseAll_hourAt (es : List Instr) : (s.raiseAll es).hourAt = s.hourAt := rfl
@[simp] theorem State.raiseAll_points (es : List Instr) : (s.raiseAll es).points = s.points := rfl
@[simp] theorem State.raiseAll_ssu (es : List Instr) : (s.raiseAll es).ssu = s.ssu := rfl
@[simp] theorem State.raiseAll_elr (es : List Instr) : (s.raiseAll es).elr = s.elr := rfl
@[simp] theorem State.raiseAll_mu (es : List Instr) : (s.raiseAll es).mu = s.mu := rfl
@[simp] theorem State.raiseAll_tables (es : List Instr) : (s.raiseAll es).tables = s.tables := rfl
@[simp] theorem State.raiseAll_store (es : List Instr) : (s.raiseAll es).store = s.store := rfl
@[simp] theorem State.raiseAll_raised (es : List Instr) : (s.raiseAll es).raised = s.raised ++ es := rfl
@[simp] theorem State.raiseAll_pending (es : List Instr) : (s.raiseAll es).pending = s.pending := rfl
@[simp] theorem State.raiseAll_free (es : List Instr) : (s.raiseAll es).free = s.free := rfl

@[simp] theorem State.raiseIf_powered (b : Bool) (e : Instr) : (s.raiseIf b e).powered = s.powered := by
  unfold State.raiseIf; split <;> rfl
@[simp] theorem State.raiseIf_mode (b : Bool) (e : Instr) : (s.raiseIf b e).mode = s.mode := by
  unfold State.raiseIf; split <;> rfl
@[simp] theorem State.raiseIf_now (b : Bool) (e : Instr) : (s.raiseIf b e).now = s.now := by
  unfold State.raiseIf; split <;> rfl
@[simp] theorem State.raiseIf_lp (b : Bool) (e : Instr) : (s.raiseIf b e).lp = s.lp := by
  unfold State.raiseIf; split <;> rfl
@[simp] theorem State.raiseIf_channels (b : Bool) (e : Instr) : (s.raiseIf b e).channels = s.channels := by
  unfold State.raiseIf; split <;> rfl
@[simp] theorem State.raiseIf_nodes (b : Bool) (e : Instr) : (s.raiseIf b e).nodes = s.nodes := by
  unfold State.raiseIf; split <;> rfl
@[simp] theorem State.raiseIf_blanking (b : Bool) (e : Instr) : (s.raiseIf b e).blanking = s.blanking := by
  unfold State.raiseIf; split <;> rfl
@[simp] theorem State.raiseIf_wells (b : Bool) (e : Instr) : (s.raiseIf b e).wells = s.wells := by
  unfold State.raiseIf; split <;> rfl
@[simp] theorem State.raiseIf_pumps (b : Bool) (e : Instr) : (s.raiseIf b e).pumps = s.pumps := by
  unfold State.raiseIf; split <;> rfl
@[simp] theorem State.raiseIf_duty (b : Bool) (e : Instr) : (s.raiseIf b e).duty = s.duty := by
  unfold State.raiseIf; split <;> rfl
@[simp] theorem State.raiseIf_budget (b : Bool) (e : Instr) : (s.raiseIf b e).budget = s.budget := by
  unfold State.raiseIf; split <;> rfl
@[simp] theorem State.raiseIf_screens (b : Bool) (e : Instr) : (s.raiseIf b e).screens = s.screens := by
  unfold State.raiseIf; split <;> rfl
@[simp] theorem State.raiseIf_hourAt (b : Bool) (e : Instr) : (s.raiseIf b e).hourAt = s.hourAt := by
  unfold State.raiseIf; split <;> rfl
@[simp] theorem State.raiseIf_points (b : Bool) (e : Instr) : (s.raiseIf b e).points = s.points := by
  unfold State.raiseIf; split <;> rfl
@[simp] theorem State.raiseIf_ssu (b : Bool) (e : Instr) : (s.raiseIf b e).ssu = s.ssu := by
  unfold State.raiseIf; split <;> rfl
@[simp] theorem State.raiseIf_elr (b : Bool) (e : Instr) : (s.raiseIf b e).elr = s.elr := by
  unfold State.raiseIf; split <;> rfl
@[simp] theorem State.raiseIf_mu (b : Bool) (e : Instr) : (s.raiseIf b e).mu = s.mu := by
  unfold State.raiseIf; split <;> rfl
@[simp] theorem State.raiseIf_tables (b : Bool) (e : Instr) : (s.raiseIf b e).tables = s.tables := by
  unfold State.raiseIf; split <;> rfl
@[simp] theorem State.raiseIf_store (b : Bool) (e : Instr) : (s.raiseIf b e).store = s.store := by
  unfold State.raiseIf; split <;> rfl
@[simp] theorem State.raiseIf_pending (b : Bool) (e : Instr) : (s.raiseIf b e).pending = s.pending := by
  unfold State.raiseIf; split <;> rfl
@[simp] theorem State.raiseIf_free (b : Bool) (e : Instr) : (s.raiseIf b e).free = s.free := by
  unfold State.raiseIf; split <;> rfl
@[simp] theorem State.raiseIf_raised (b : Bool) (e : Instr) :
    (s.raiseIf b e).raised = if b then s.raised ++ [e] else s.raised := by
  unfold State.raiseIf; split <;> rfl

/-! ## Reading a family after writing it -/

variable {α : Type}

@[simp] theorem PerWell.get_set (f : PerWell α) (w w' : Well) (x : α) :
    (f.set w x).get w' = if w' = w then x else f.get w' := by
  cases w <;> cases w' <;> rfl
@[simp] theorem PerPump.get_set (f : PerPump α) (p p' : Pump) (x : α) :
    (f.set p x).get p' = if p' = p then x else f.get p' := by
  cases p <;> cases p' <;> rfl
@[simp] theorem PerScreen.get_set (f : PerScreen α) (k k' : Screen) (x : α) :
    (f.set k x).get k' = if k' = k then x else f.get k' := by
  cases k <;> cases k' <;> rfl
@[simp] theorem PerPoint.get_set (f : PerPoint α) (o o' : Point) (x : α) :
    (f.set o x).get o' = if o' = o then x else f.get o' := by
  cases o <;> cases o' <;> rfl
@[simp] theorem PerQuantity.get_set (f : PerQuantity α) (q q' : Quantity) (x : α) :
    (f.set q x).get q' = if q' = q then x else f.get q' := by
  cases q <;> cases q' <;> rfl
@[simp] theorem PerPump.get_make (g : Pump → α) (p : Pump) : (PerPump.make g).get p = g p := by
  cases p <;> rfl
@[simp] theorem PerQuantity.get_make (g : Quantity → α) (q : Quantity) : (PerQuantity.make g).get q = g q := by
  cases q <;> rfl
@[simp] theorem PerWell.get_of (x : α) (w : Well) : (PerWell.of x).get w = x := by cases w <;> rfl
@[simp] theorem PerScreen.get_of (x : α) (k : Screen) : (PerScreen.of x).get k = x := by cases k <;> rfl
@[simp] theorem PerPoint.get_of (x : α) (o : Point) : (PerPoint.of x).get o = x := by cases o <;> rfl

/-! ## Reading a record after writing it -/

@[simp] theorem State.pump_setPump (p p' : Pump) (r : PumpRecord) :
    (s.setPump p r).pump p' = if p' = p then r else s.pump p' := by simp [State.pump]
@[simp] theorem State.chan_setChan (q q' : Quantity) (r : ChannelRecord) :
    (s.setChan q r).chan q' = if q' = q then r else s.chan q' := by simp [State.chan]
@[simp] theorem State.well_setWell (w w' : Well) (r : WellRecord) :
    (s.setWell w r).well w' = if w' = w then r else s.well w' := by simp [State.well]
@[simp] theorem State.screen_setScreen (k k' : Screen) (r : ScreenRecord) :
    (s.setScreen k r).screen k' = if k' = k then r else s.screen k' := by simp [State.screen]
@[simp] theorem State.point_setPoint (o o' : Point) (r : PointRecord) :
    (s.setPoint o r).point o' = if o' = o then r else s.point o' := by simp [State.point]

end Sys2Proof.Machine
end

