-- ==== Sys2Proof/Laws/FramesBudget.lean ====
section
/-! SUPPORT. What SB's operations leave alone. -/

namespace Sys2Proof.Machine

/-- The state without what SB changes. -/
def sbMask (s : State) : State :=
  { s with budget := State.reset.budget, raised := State.reset.raised }

@[simp] theorem State.raise_sb (s : State) (e : Instr) : sbMask (s.raise e) = sbMask s := rfl
@[simp] theorem State.submit_sb (s : State) (b : RecordBody) : sbMask (s.submit b) = sbMask s := rfl
@[simp] theorem State.raiseAll_sb (s : State) (es : List Instr) : sbMask (s.raiseAll es) = sbMask s := rfl
@[simp] theorem State.raiseIf_sb (s : State) (b : Bool) (e : Instr) : sbMask (s.raiseIf b e) = sbMask s := by
  cases b <;> rfl
theorem each_sb {α : Type} (f : State → α → State) (h : ∀ s x, sbMask (f s x) = sbMask s) (xs : List α) (s : State) :
    sbMask (State.each f xs s) = sbMask s := by
  induction xs generalizing s with
  | nil => rfl
  | cons x xs ih => exact (ih (f s x)).trans (h s x)
@[simp] theorem grantHead_sb (s : State) (q : Request) (rest : List Request) :
    sbMask (grantHead s q rest) = sbMask s := by
  rfl
theorem examineFuel_sb (n : Nat) (s : State) : sbMask (examineFuel n s) = sbMask s := by
  induction n generalizing s with
  | zero => rfl
  | succ n ih =>
    unfold examineFuel
    split
    · rfl
    · split
      · exact (ih _).trans (grantHead_sb s _ _)
      · rfl
@[simp] theorem examine_sb (s : State) :
    sbMask (examine s) = sbMask s := by
  exact examineFuel_sb _ s
@[simp] theorem changeBudget_sb (s : State) (b : Budget) :
    sbMask (changeBudget s b) = sbMask s := by
  unfold changeBudget
  repeat' (first | rfl | (simp [apply_ite sbMask, each_sb]; done) | (simp [apply_ite sbMask, each_sb]; rfl) | split)
@[simp] theorem removeRequests_sb (s : State) (qs : List Request) :
    sbMask (removeRequests s qs) = sbMask s := by
  unfold removeRequests
  dsimp only
  split
  · exact (examine_sb _).trans rfl
  · rfl
theorem exitCharge_get (s : State) (names : PerPump (Option ExitName)) (b : Budget) (q p : Pump) :
    (exitCharge s names b q).pumps.get p =
      if q = p ∧ (b.pumps.get p).kind = .none ∧ exitKind (names.get p) ≠ .none then
        ⟨exitKind (names.get p), runWeight s (.pump p), false⟩
      else b.pumps.get p := by
  unfold exitCharge
  by_cases h : q = p
  · subst h
    split <;> simp_all [setEntry]
  · split <;> simp_all [setEntry, Ne.symm h]
/-- What an exit notice leaves of a pump's entry: the charge its name records where the entry was NONE (R90, R92). -/
theorem exitCharges_get (s : State) (names : PerPump (Option ExitName)) (b : Budget) (p : Pump) :
    (Pump.all.foldl (exitCharge s names) b).pumps.get p =
      if (b.pumps.get p).kind = .none ∧ exitKind (names.get p) ≠ .none then
        ⟨exitKind (names.get p), runWeight s (.pump p), false⟩
      else b.pumps.get p := by
  cases p <;> simp [Pump.all, exitCharge_get]
theorem sweep_sb (s : State) : sbMask (sweep s).1 = sbMask s := rfl
theorem capacityChange_sb (s : State) (n : Nat) : sbMask (capacityChange s n).1 = sbMask s := by
  unfold capacityChange
  split
  · exact sweep_sb s
  · split
    · exact examine_sb s
    · rfl
@[simp] theorem supplyChange_sb (s : State) (v : Supply) :
    sbMask (supplyChange s v) = sbMask s := by
  unfold supplyChange
  exact (State.submit_sb _ _).trans ((capacityChange_sb _ _).trans rfl)

end Sys2Proof.Machine
end

