-- ==== Sys2Proof/Laws/FramesChannels.lean ====
section
/-! SUPPORT. What CU's operations leave alone. -/

namespace Sys2Proof.Machine

/-- The state without what CU changes. -/
def cuMask (s : State) : State :=
  { s with lp := State.reset.lp, channels := State.reset.channels, nodes := State.reset.nodes, blanking := State.reset.blanking, raised := State.reset.raised }

@[simp] theorem State.setChan_cu (s : State) (q : Quantity) (r : ChannelRecord) : cuMask (s.setChan q r) = cuMask s := rfl
@[simp] theorem State.setLp_cu (s : State) (l : Loop) : cuMask (s.setLp l) = cuMask s := rfl
@[simp] theorem State.raise_cu (s : State) (e : Instr) : cuMask (s.raise e) = cuMask s := rfl
@[simp] theorem State.submit_cu (s : State) (b : RecordBody) : cuMask (s.submit b) = cuMask s := rfl
@[simp] theorem State.raiseAll_cu (s : State) (es : List Instr) : cuMask (s.raiseAll es) = cuMask s := rfl
@[simp] theorem State.raiseIf_cu (s : State) (b : Bool) (e : Instr) : cuMask (s.raiseIf b e) = cuMask s := by
  cases b <;> rfl
theorem each_cu {α : Type} (f : State → α → State) (h : ∀ s x, cuMask (f s x) = cuMask s) (xs : List α) (s : State) :
    cuMask (State.each f xs s) = cuMask s := by
  induction xs generalizing s with
  | nil => rfl
  | cons x xs ih => exact (ih (f s x)).trans (h s x)
theorem offerControl_cu {s s' : State} {d : Addr} {a : Option (BitVec 6)} {p : OutPayload}
    (h : offerControl s d a p = some s') : cuMask s' = cuMask s := by
  unfold offerControl at h; split at h
  · cases h; exact State.raiseIf_cu ..
  · cases h
theorem offerGeneral_cu {s s' : State} {d : Addr} {a : Option (BitVec 6)} {p : OutPayload}
    (h : offerGeneral s d a p = some s') : cuMask s' = cuMask s := by
  unfold offerGeneral at h; split at h
  · cases h; exact State.raiseIf_cu ..
  · cases h
@[simp] theorem deliver_cu (s : State) (q : Quantity) (stored : Bool) :
    cuMask (deliver s q stored) = cuMask s := by
  rfl
@[simp] theorem updateNode_cu (s : State) (node : Nat) (f : CadenceState → CadenceState) :
    cuMask (updateNode s node f) = cuMask s := by
  rfl
@[simp] theorem resetStale_cu (s : State) (node : Nat) (cls : StationState) :
    cuMask (resetStale s node cls) = cuMask s := by
  unfold resetStale
  exact each_cu _ (fun s e => by split <;> rfl) _ _
@[simp] theorem cadencePlaced_cu (s : State) (node : Nat) (cls : StationState) :
    cuMask (cadencePlaced s node cls) = cuMask s := by
  unfold cadencePlaced
  simp [apply_ite cuMask]
theorem placeCadence_cu {s t : State} {node : Nat} {ref : Option Nat} (h : placeCadence s node ref = some t) :
    cuMask t = cuMask s := by
  unfold placeCadence at h
  cases h' : offerControl s node none (.cadence s.ssu.state ref) with
  | none => simp [h'] at h
  | some u =>
    simp only [h', Option.map_some, Option.some.injEq] at h
    subst h
    exact (cadencePlaced_cu _ _ _).trans (offerControl_cu h')
@[simp] theorem offerCadence_cu (s : State) (node : Nat) :
    cuMask (offerCadence s node) = cuMask s := by
  unfold offerCadence
  cases h : placeCadence s node none with
  | none => rfl
  | some t => exact placeCadence_cu h
@[simp] theorem offerCadenceAll_cu (s : State) :
    cuMask (offerCadenceAll s) = cuMask s := by
  unfold offerCadenceAll
  simp [each_cu]
@[simp] theorem requestReference_cu (s : State) (q : Quantity) (e : SampleEntry) :
    cuMask (requestReference s q e) = cuMask s := by
  unfold requestReference
  split
  · next h => exact (State.setChan_cu _ _ _).trans (placeCadence_cu h)
  · rfl
@[simp] theorem enterSuspect_cu (s : State) (q : Quantity) (cause : SuspectCause) :
    cuMask (enterSuspect s q cause) = cuMask s := by
  unfold enterSuspect
  simp [apply_ite cuMask]
@[simp] theorem leaveSuspect_cu (s : State) (q : Quantity) (holdLimit : Nat) :
    cuMask (leaveSuspect s q holdLimit) = cuMask s := by
  unfold leaveSuspect
  simp [apply_ite cuMask]
@[simp] theorem recoveryRecord_cu (s : State) (q : Quantity) (before after : Quality) :
    cuMask (recoveryRecord s q before after) = cuMask s := by
  unfold recoveryRecord
  simp [apply_ite cuMask]
@[simp] theorem arrive_cu (s : State) (q : Quantity) (node : Nat) :
    cuMask (arrive s q node) = cuMask s := by
  rfl
@[simp] theorem takeReference_cu (s : State) (q : Quantity) (e : SampleEntry) (rd : Reading) :
    cuMask (takeReference s q e rd) = cuMask s := by
  unfold takeReference
  dsimp only
  repeat' split
  all_goals simp
@[simp] theorem rejectReading_cu (s : State) (q : Quantity) :
    cuMask (rejectReading s q) = cuMask s := by
  unfold rejectReading
  simp [apply_ite cuMask]
@[simp] theorem storeReading_cu (s : State) (q : Quantity) (v : Int) :
    cuMask (storeReading s q v) = cuMask s := by
  unfold storeReading
  simp
@[simp] theorem takeAnalog_cu (s : State) (q : Quantity) (e : SampleEntry) (rd : Reading) :
    cuMask (takeAnalog s q e rd) = cuMask s := by
  unfold takeAnalog
  simp [apply_ite cuMask]
@[simp] theorem takeReading_cu (src : Addr) (s : State) (rd : Reading) :
    cuMask (takeReading src s rd) = cuMask s := by
  unfold takeReading
  repeat' (first | rfl | (simp [apply_ite cuMask, each_cu]; done) | (simp [apply_ite cuMask, each_cu]; rfl) | split)
@[simp] theorem deliverEdge_cu (s : State) (q : Quantity) (before : Option Int) (after : Int) (qualityChanged : Bool) :
    cuMask (deliverEdge s q before after qualityChanged) = cuMask s := by
  unfold deliverEdge
  split <;> simp [apply_ite cuMask]
@[simp] theorem takeEdge_cu (s : State) (q : Quantity) (e : SampleEntry) (st : Bool) (count : BitVec 8) :
    cuMask (takeEdge s q e st count) = cuMask s := by
  unfold takeEdge
  simp [apply_ite cuMask]
@[simp] theorem becomeHeld_cu (s : State) (q : Quantity) :
    cuMask (becomeHeld s q) = cuMask s := by
  rfl
@[simp] theorem becomeLost_cu (s : State) (q : Quantity) :
    cuMask (becomeLost s q) = cuMask s := by
  rfl
@[simp] theorem channelClear_cu (s : State) (q : Quantity) :
    cuMask (channelClear s q).1 = cuMask s := by
  unfold channelClear
  repeat' (first | rfl | (simp [apply_ite cuMask, each_cu]; done) | (simp [apply_ite cuMask, each_cu]; rfl) | split)
@[simp] theorem refCheck_cu (s : State) (q : Quantity) :
    cuMask (refCheck s q).1 = cuMask s := by
  unfold refCheck
  repeat' (first | rfl | (simp [apply_ite cuMask, each_cu]; done) | (simp [apply_ite cuMask, each_cu]; rfl) | split)
@[simp] theorem resetChannel_cu (s : State) (q : Quantity) (referenceAt : Option Ms) :
    cuMask (resetChannel s q referenceAt) = cuMask s := by
  rfl
@[simp] theorem keepChannel_cu (s : State) (q : Quantity) (old new : SampleEntry) :
    cuMask (keepChannel s q old new) = cuMask s := by
  unfold keepChannel
  simp [apply_ite cuMask]
@[simp] theorem switchChannel_cu (old new : List SampleEntry) (s : State) (q : Quantity) :
    cuMask (switchChannel old new s q) = cuMask s := by
  unfold switchChannel
  split <;> simp [apply_ite cuMask]
@[simp] theorem takeSampleMap_cu (old : List SampleEntry) (s : State) :
    cuMask (takeSampleMap old s) = cuMask s := by
  unfold takeSampleMap
  dsimp only
  exact (each_cu _ (fun s n => offerCadence_cu s n) _ _).trans
    ((show cuMask _ = cuMask (State.each (switchChannel old (mapEntries s)) Quantity.all s) from rfl).trans
      (each_cu _ (fun s q => switchChannel_cu _ _ s q) _ _))

end Sys2Proof.Machine
end

