-- ==== Sys2Proof/Laws/FramesDuty.lean ====
section
/-! SUPPORT. What DC's operations leave alone. -/

namespace Sys2Proof.Machine

/-- The state without what DC changes. -/
def dcMask (s : State) : State :=
  { s with lp := State.reset.lp, pumps := State.reset.pumps, duty := State.reset.duty, raised := State.reset.raised }

@[simp] theorem State.setPump_dc (s : State) (p : Pump) (r : PumpRecord) : dcMask (s.setPump p r) = dcMask s := rfl
@[simp] theorem State.setLp_dc (s : State) (l : Loop) : dcMask (s.setLp l) = dcMask s := rfl
@[simp] theorem State.raise_dc (s : State) (e : Instr) : dcMask (s.raise e) = dcMask s := rfl
@[simp] theorem State.submit_dc (s : State) (b : RecordBody) : dcMask (s.submit b) = dcMask s := rfl
@[simp] theorem State.raiseAll_dc (s : State) (es : List Instr) : dcMask (s.raiseAll es) = dcMask s := rfl
@[simp] theorem State.raiseIf_dc (s : State) (b : Bool) (e : Instr) : dcMask (s.raiseIf b e) = dcMask s := by
  cases b <;> rfl
theorem each_dc {α : Type} (f : State → α → State) (h : ∀ s x, dcMask (f s x) = dcMask s) (xs : List α) (s : State) :
    dcMask (State.each f xs s) = dcMask s := by
  induction xs generalizing s with
  | nil => rfl
  | cons x xs ih => exact (ih (f s x)).trans (h s x)
theorem offerControl_dc {s s' : State} {d : Addr} {a : Option (BitVec 6)} {p : OutPayload}
    (h : offerControl s d a p = some s') : dcMask s' = dcMask s := by
  unfold offerControl at h; split at h
  · cases h; exact State.raiseIf_dc ..
  · cases h
theorem offerGeneral_dc {s s' : State} {d : Addr} {a : Option (BitVec 6)} {p : OutPayload}
    (h : offerGeneral s d a p = some s') : dcMask s' = dcMask s := by
  unfold offerGeneral at h; split at h
  · cases h; exact State.raiseIf_dc ..
  · cases h
@[simp] theorem joinForward_dc (s : State) (f : RawFrame) :
    dcMask (joinForward s f) = dcMask s := by
  unfold joinForward
  repeat' (first | rfl | (simp [apply_ite dcMask, each_dc]; done) | (simp [apply_ite dcMask, each_dc]; rfl) | split)
@[simp] theorem removeRuns_dc (s : State) (drive : Addr) :
    dcMask (removeRuns s drive) = dcMask s := by
  rfl
@[simp] theorem enter_dc (s : State) (p : Pump) (st : PumpState) :
    dcMask (enter s p st) = dcMask s := by
  rfl
@[simp] theorem enterOff_dc (s : State) (p : Pump) :
    dcMask (enterOff s p) = dcMask s := by
  rfl
@[simp] theorem lockOut_dc (s : State) (p : Pump) :
    dcMask (lockOut s p) = dcMask s := by
  rfl
@[simp] theorem releaseCharge_dc (s : State) (p : Pump) :
    dcMask (releaseCharge s p) = dcMask s := by
  unfold releaseCharge
  simp [apply_ite dcMask]
@[simp] theorem returnCharge_dc (s : State) (p : Pump) :
    dcMask (returnCharge s p) = dcMask s := by
  unfold returnCharge
  simp [apply_ite dcMask]
@[simp] theorem withdraw_dc (s : State) (p : Pump) :
    dcMask (withdraw s p) = dcMask s := by
  rfl
@[simp] theorem chargeExternal_dc (s : State) (p : Pump) :
    dcMask (chargeExternal s p) = dcMask s := by
  unfold chargeExternal
  split <;> simp
@[simp] theorem notifySurge_dc (s : State) (p : Pump) :
    dcMask (notifySurge s p) = dcMask s := by
  unfold notifySurge
  split <;> simp
@[simp] theorem notifyFlow_dc (s : State) (p : Pump) :
    dcMask (notifyFlow s p) = dcMask s := by
  rfl
@[simp] theorem offerCommand_dc (s : State) (p : Pump) (command : Option (DriveAction × Nat)) (stateChange : Bool) :
    dcMask (offerCommand s p command stateChange) = dcMask s := by
  unfold offerCommand
  split
  · split
    · next h => simpa using offerControl_dc h
    · split <;> simp
  · simp
@[simp] theorem buildCommand_dc (s : State) (p : Pump) (stateChange : Bool) :
    dcMask (buildCommand s p stateChange) = dcMask s := by
  unfold buildCommand
  simp
@[simp] theorem stopPump_dc (s : State) (p : Pump) (send : Bool) :
    dcMask (stopPump s p send) = dcMask s := by
  unfold stopPump
  simp [apply_ite dcMask]
@[simp] theorem drawBackoff_dc (s : State) :
    dcMask (drawBackoff s) = dcMask s := by
  rfl
@[simp] theorem enterBackoff_dc (s : State) (p : Pump) :
    dcMask (enterBackoff s p) = dcMask s := by
  rfl
@[simp] theorem exhaust_dc (s : State) (p : Pump) :
    dcMask (exhaust s p) = dcMask s := by
  unfold exhaust
  split <;> simp
@[simp] theorem afterAttempt_dc (s : State) (p : Pump) :
    dcMask (afterAttempt s p) = dcMask s := by
  unfold afterAttempt
  simp [apply_ite dcMask]
@[simp] theorem failStart_dc (s : State) (p : Pump) :
    dcMask (failStart s p) = dcMask s := by
  unfold failStart
  simp
@[simp] theorem tripRunning_dc (s : State) (p : Pump) (cause : TripCause) :
    dcMask (tripRunning s p cause) = dcMask s := by
  unfold tripRunning
  simp
@[simp] theorem confirmStart_dc (s : State) (p : Pump) :
    dcMask (confirmStart s p) = dcMask s := by
  unfold confirmStart
  simp [apply_ite dcMask]
@[simp] theorem confirmStop_dc (s : State) (p : Pump) :
    dcMask (confirmStop s p) = dcMask s := by
  unfold confirmStop
  simp
@[simp] theorem interlockPump_dc (s : State) (p : Pump) :
    dcMask (interlockPump s p) = dcMask s := by
  unfold interlockPump
  dsimp only
  repeat' split
  all_goals simp
@[simp] theorem evalInterlock_dc (d : WellDelivery) (s : State) (p : Pump) :
    dcMask (evalInterlock d s p) = dcMask s := by
  unfold evalInterlock
  simp [apply_ite dcMask]
@[simp] theorem restage_dc (w : Well) (level : Int) (s : State) (p : Pump) :
    dcMask (restage w level s p) = dcMask s := by
  rfl
@[simp] theorem judgeDeadHead_dc (s : State) (p : Pump) :
    dcMask (judgeDeadHead s p) = dcMask s := by
  unfold judgeDeadHead
  split <;> simp [apply_ite dcMask]
@[simp] theorem treat_dc (chosen : List Pump) (s : State) (p : Pump) :
    dcMask (treat chosen s p) = dcMask s := by
  unfold treat
  dsimp only
  repeat' split
  all_goals simp
@[simp] theorem select_dc (s : State) (w : Well) (demand : Nat) :
    dcMask (select s w demand) = dcMask s := by
  unfold select
  simp [each_dc]
@[simp] theorem rotateIfDue_dc (s : State) (w : Well) :
    dcMask (rotateIfDue s w) = dcMask s := by
  unfold rotateIfDue; split <;> rfl
@[simp] theorem evaluateOnce_dc (s : State) (w : Well) (d : WellDelivery) :
    dcMask (evaluateOnce s w d) = dcMask s := by
  unfold evaluateOnce
  split
  · rfl
  · split
    · exact (select_dc _ _ _).trans rfl
    · rfl
theorem evaluateFuel_dc (n : Nat) (s : State) (w : Well) (d : WellDelivery) :
    dcMask (evaluateFuel n s w d) = dcMask s := by
  induction n generalizing s with
  | zero => rfl
  | succ n ih =>
    unfold evaluateFuel
    dsimp only
    split
    · exact (ih _).trans ((rotateIfDue_dc _ _).trans (evaluateOnce_dc s w d))
    · exact (rotateIfDue_dc _ _).trans (evaluateOnce_dc s w d)
@[simp] theorem evaluate_dc (s : State) (w : Well) (d : WellDelivery) : dcMask (evaluate s w d) = dcMask s :=
  (evaluateFuel_dc 8 _ w d).trans (rotateIfDue_dc s w)
@[simp] theorem evaluateLive_dc (s : State) (w : Well) :
    dcMask (evaluateLive s w) = dcMask s := by
  unfold evaluateLive
  repeat' (first | rfl | (simp [apply_ite dcMask, each_dc]; done) | (simp [apply_ite dcMask, each_dc]; rfl) | split)
@[simp] theorem withdrawExcess_dc (w : Well) (s : State) (p : Pump) :
    dcMask (withdrawExcess w s p) = dcMask s := by
  unfold withdrawExcess
  simp [apply_ite dcMask]
@[simp] theorem evaluateWithin_dc (s : State) (w : Well) :
    dcMask (evaluateWithin s w) = dcMask s := by
  unfold evaluateWithin
  simp [each_dc]
@[simp] theorem runTick_dc (before after : State) (p : Pump) :
    dcMask (runTick before after p) = dcMask after := by
  unfold runTick
  simp [apply_ite dcMask]
@[simp] theorem noticeFlow_dc (before : State) (s : State) (p : Pump) :
    dcMask (noticeFlow before s p) = dcMask s := by
  unfold noticeFlow
  simp
@[simp] theorem judgeChanged_dc (before : State) (s : State) (p : Pump) :
    dcMask (judgeChanged before s p) = dcMask s := by
  unfold judgeChanged
  simp [apply_ite dcMask]
@[simp] theorem evaluateChanged_dc (before : State) (s : State) (w : Well) :
    dcMask (evaluateChanged before s w) = dcMask s := by
  unfold evaluateChanged
  simp [apply_ite dcMask]
@[simp] theorem settle_dc (before after : State) :
    dcMask (settle before after) = dcMask after := by
  unfold settle
  simp [each_dc]
@[simp] theorem restageWell_dc (s : State) (w : Well) (d : WellDelivery) :
    dcMask (restageWell s w d) = dcMask s := by
  unfold restageWell
  split <;> simp [each_dc]
@[simp] theorem takeDelivery_dc (s : State) (w : Well) (d : WellDelivery) :
    dcMask (takeDelivery s w d) = dcMask s := by
  unfold takeDelivery
  repeat' (first | rfl | (simp [apply_ite dcMask, each_dc]; done) | (simp [apply_ite dcMask, each_dc]; rfl) | split)
@[simp] theorem chargeLocal_dc (s : State) (p : Pump) (d : DriveReport) :
    dcMask (chargeLocal s p d) = dcMask s := by
  unfold chargeLocal
  simp [apply_ite dcMask]
@[simp] theorem takeLocal_dc (s : State) (p : Pump) (d : DriveReport) :
    dcMask (takeLocal s p d) = dcMask s := by
  unfold takeLocal
  split <;> simp
@[simp] theorem leaveLocal_dc (s : State) (p : Pump) (d : DriveReport) :
    dcMask (leaveLocal s p d) = dcMask s := by
  unfold leaveLocal
  simp [apply_ite dcMask]
@[simp] theorem lockMoist_dc (s : State) (p : Pump) :
    dcMask (lockMoist s p) = dcMask s := by
  unfold lockMoist
  split <;> simp
@[simp] theorem takeTripped_dc (s : State) (p : Pump) (d : DriveReport) :
    dcMask (takeTripped s p d) = dcMask s := by
  unfold takeTripped
  dsimp only
  repeat' split
  all_goals simp
@[simp] theorem takeReport_dc (s : State) (p : Pump) (d : DriveReport) :
    dcMask (takeReport s p d) = dcMask s := by
  unfold takeReport
  dsimp only
  repeat' split
  all_goals simp
@[simp] theorem recordReport_dc (s : State) (p : Pump) (d : DriveReport) :
    dcMask (recordReport s p d) = dcMask s := by
  rfl
@[simp] theorem fallSilent_dc (s : State) (p : Pump) (wasRunning : Bool) :
    dcMask (fallSilent s p wasRunning) = dcMask s := by
  unfold fallSilent
  dsimp only
  repeat' split
  all_goals simp
@[simp] theorem takeGrant_dc (s : State) (p : Pump) :
    dcMask (takeGrant s p) = dcMask s := by
  unfold takeGrant
  simp
@[simp] theorem toFloat_dc (s : State) (p : Pump) :
    dcMask (toFloat s p) = dcMask s := by
  unfold toFloat
  simp
@[simp] theorem adopt_dc (w : Well) (s : State) (p : Pump) :
    dcMask (adopt w s p) = dcMask s := by
  unfold adopt
  dsimp only
  repeat' split
  all_goals simp
@[simp] theorem returnMoved_dc (w : Well) (names : PerPump (Option ExitName)) (s : State) (p : Pump) :
    dcMask (returnMoved w names s p) = dcMask s := by
  simp [returnMoved]
@[simp] theorem takeExitName_dc (w : Well) (names : PerPump (Option ExitName)) (s : State) (p : Pump) :
    dcMask (takeExitName w names s p) = dcMask s := by
  unfold takeExitName
  split <;> simp
@[simp] theorem stopUnfit_dc (names : PerPump (Option ExitName)) (s : State) (p : Pump) :
    dcMask (stopUnfit names s p) = dcMask s := by
  unfold stopUnfit
  simp [apply_ite dcMask]
@[simp] theorem stopExcess_dc (names : PerPump (Option ExitName)) (w : Well) (s : State) (p : Pump) :
    dcMask (stopExcess names w s p) = dcMask s := by
  unfold stopExcess
  simp [apply_ite dcMask]
@[simp] theorem takeLateReport_dc (names : PerPump (Option ExitName)) (s : State) (p : Pump) :
    dcMask (takeLateReport names s p) = dcMask s := by
  unfold takeLateReport
  split <;> simp
@[simp] theorem pumpDisable_dc (s : State) (p : Pump) :
    dcMask (pumpDisable s p).1 = dcMask s := by
  unfold pumpDisable
  dsimp only
  repeat' split
  all_goals simp
@[simp] theorem pumpEnable_dc (s : State) (p : Pump) :
    dcMask (pumpEnable s p).1 = dcMask s := by
  unfold pumpEnable
  dsimp only
  repeat' split
  all_goals simp
@[simp] theorem pumpClear_dc (s : State) (p : Pump) :
    dcMask (pumpClear s p).1 = dcMask s := by
  unfold pumpClear
  dsimp only
  repeat' split
  all_goals simp
@[simp] theorem pumpRelease_dc (s : State) (p : Pump) :
    dcMask (pumpRelease s p).1 = dcMask s := by
  unfold pumpRelease
  split <;> simp
@[simp] theorem rotateGate_dc (s : State) (w : Well) :
    dcMask (rotateGate s w).1 = dcMask s := by
  unfold rotateGate
  dsimp only
  split
  · exact evaluateLive_dc _ _
  · rfl
@[simp] theorem recordManual_dc (s : State) (p : Pump) (src : Addr) (act : DriveAction) (speed : Nat) :
    dcMask (recordManual s p src act speed) = dcMask s := by
  rfl
@[simp] theorem startManual_dc (s : State) (p : Pump) :
    dcMask (startManual s p) = dcMask s := by
  rfl
@[simp] theorem passRun_dc (s : State) (p : Pump) (src : Addr) (act : DriveAction) (speed : Nat) :
    dcMask (passRun s p src act speed) = dcMask s := by
  unfold passRun
  dsimp only
  repeat' split
  all_goals simp
@[simp] theorem passStop_dc (s : State) (p : Pump) :
    dcMask (passStop s p) = dcMask s := by
  unfold passStop
  split <;> simp
@[simp] theorem refuse_dc (s : State) (p : Pump) (src : Addr) (seq : BitVec 6) (act : DriveAction) (why : RefusalReason) :
    dcMask (refuse s p src seq act why) = dcMask s := by
  unfold refuse
  cases h : offerControl s src (some seq) (.refusal (driveOf s p) act why) with
  | none => simp
  | some t => simpa using offerControl_dc h

end Sys2Proof.Machine
end

