-- ==== Sys2Proof/Laws/FramesLog.lean ====
section
/-! SUPPORT. What ELR's operations leave alone. -/

namespace Sys2Proof.Machine

/-- The state without what ELR changes. -/
def elrMask (s : State) : State :=
  { s with lp := State.reset.lp, elr := State.reset.elr, raised := State.reset.raised }

@[simp] theorem State.setElr_el (s : State) (l : EventLog) : elrMask (s.setElr l) = elrMask s := rfl
@[simp] theorem State.setLp_el (s : State) (l : Loop) : elrMask (s.setLp l) = elrMask s := rfl
@[simp] theorem State.raise_el (s : State) (e : Instr) : elrMask (s.raise e) = elrMask s := rfl
@[simp] theorem State.submit_el (s : State) (b : RecordBody) : elrMask (s.submit b) = elrMask s := rfl
@[simp] theorem State.raiseAll_el (s : State) (es : List Instr) : elrMask (s.raiseAll es) = elrMask s := rfl
@[simp] theorem State.raiseIf_el (s : State) (b : Bool) (e : Instr) : elrMask (s.raiseIf b e) = elrMask s := by
  cases b <;> rfl
theorem each_el {α : Type} (f : State → α → State) (h : ∀ s x, elrMask (f s x) = elrMask s) (xs : List α) (s : State) :
    elrMask (State.each f xs s) = elrMask s := by
  induction xs generalizing s with
  | nil => rfl
  | cons x xs ih => exact (ih (f s x)).trans (h s x)
theorem offerControl_el {s s' : State} {d : Addr} {a : Option (BitVec 6)} {p : OutPayload}
    (h : offerControl s d a p = some s') : elrMask s' = elrMask s := by
  unfold offerControl at h; split at h
  · cases h; exact State.raiseIf_el ..
  · cases h
theorem offerGeneral_el {s s' : State} {d : Addr} {a : Option (BitVec 6)} {p : OutPayload}
    (h : offerGeneral s d a p = some s') : elrMask s' = elrMask s := by
  unfold offerGeneral at h; split at h
  · cases h; exact State.raiseIf_el ..
  · cases h
theorem trySendFuel_el (n : Nat) (s : State) : elrMask (trySendFuel n s) = elrMask s := by
  induction n generalizing s with
  | zero => rfl
  | succ n ih =>
    unfold trySendFuel
    split
    · rfl
    · split
      · rfl
      · split
        · next h => exact (ih _).trans ((State.setElr_el _ _).trans (offerGeneral_el h))
        · rfl
theorem offerParts_el (n part : Nat) (s : State) : elrMask (offerParts n part s) = elrMask s := by
  induction n generalizing s part with
  | zero => rfl
  | succ n ih =>
    unfold offerParts
    split
    · next h => exact (ih _ _).trans (offerGeneral_el h)
    · rfl
@[simp] theorem trySend_el (s : State) :
    elrMask (trySend s) = elrMask s := by
  exact trySendFuel_el 5 s
@[simp] theorem judgeRecord_el (s : State) (body : RecordBody) :
    elrMask (judgeRecord s body) = elrMask s := by
  unfold judgeRecord
  simp [apply_ite elrMask]
@[simp] theorem tryLost_el (s : State) :
    elrMask (tryLost s) = elrMask s := by
  unfold tryLost
  simp [apply_ite elrMask]
@[simp] theorem goodAck_el (s : State) (k : Nat) :
    elrMask (goodAck s k) = elrMask s := by
  unfold goodAck
  simp
@[simp] theorem placeAck_el (s : State) (n : BitVec 16) :
    elrMask (placeAck s n) = elrMask s := by
  unfold placeAck
  simp [apply_ite elrMask]
@[simp] theorem startRound_el (s : State) :
    elrMask (startRound s) = elrMask s := by
  exact (offerParts_el 4 1 _).trans rfl

end Sys2Proof.Machine
end

