-- ==== Sys2Proof/Laws/FramesPoints.lean ====
section
/-! SUPPORT. What OA's operations leave alone. -/

namespace Sys2Proof.Machine

/-- The state without what OA changes. -/
def oaMask (s : State) : State :=
  { s with points := State.reset.points, raised := State.reset.raised, tables := State.reset.tables, mu := State.reset.mu, free := State.reset.free }

@[simp] theorem State.setPoint_oa (s : State) (o : Point) (r : PointRecord) : oaMask (s.setPoint o r) = oaMask s := rfl
@[simp] theorem State.raise_oa (s : State) (e : Instr) : oaMask (s.raise e) = oaMask s := rfl
@[simp] theorem State.submit_oa (s : State) (b : RecordBody) : oaMask (s.submit b) = oaMask s := rfl
@[simp] theorem State.raiseAll_oa (s : State) (es : List Instr) : oaMask (s.raiseAll es) = oaMask s := rfl
@[simp] theorem State.raiseIf_oa (s : State) (b : Bool) (e : Instr) : oaMask (s.raiseIf b e) = oaMask s := by
  cases b <;> rfl
theorem each_oa {α : Type} (f : State → α → State) (h : ∀ s x, oaMask (f s x) = oaMask s) (xs : List α) (s : State) :
    oaMask (State.each f xs s) = oaMask s := by
  induction xs generalizing s with
  | nil => rfl
  | cons x xs ih => exact (ih (f s x)).trans (h s x)
@[simp] theorem completeCommit_oa (s : State) (t : TableId) :
    oaMask (completeCommit s t) = oaMask s := by
  unfold completeCommit
  split <;> rfl
@[simp] theorem updateSlot_oa (s : State) (o : Point) (f : Slot → Slot) :
    oaMask (updateSlot s o f) = oaMask s := by
  rfl
@[simp] theorem evaluateCauses_oa (s : State) (o : Point) :
    oaMask (evaluateCauses s o) = oaMask s := by
  rfl
@[simp] theorem takeWeir_oa (s : State) (o : Point) :
    oaMask (takeWeir s o) = oaMask s := by
  unfold takeWeir
  simp [apply_ite oaMask]
@[simp] theorem setSpill_oa (s : State) (o : Point) (st : SpillState) :
    oaMask (setSpill s o st) = oaMask s := by
  rfl
@[simp] theorem confirmEvent_oa (s : State) (o : Point) (x : Slot) :
    oaMask (confirmEvent s o x) = oaMask s := by
  rfl
@[simp] theorem removeSlot_oa (s : State) (o : Point) (unconfirmed : Nat) :
    oaMask (removeSlot s o unconfirmed) = oaMask s := by
  rfl
@[simp] theorem closeEvent_oa (s : State) (o : Point) (x : Slot) :
    oaMask (closeEvent s o x) = oaMask s := by
  rfl
@[simp] theorem sampleTentative_oa (s : State) (o : Point) (v : SpillSample) (x : Slot) :
    oaMask (sampleTentative s o v x) = oaMask s := by
  unfold sampleTentative
  simp [apply_ite oaMask]
@[simp] theorem sampleOpen_oa (s : State) (o : Point) (v : SpillSample) (x : Slot) :
    oaMask (sampleOpen s o v x) = oaMask s := by
  unfold sampleOpen
  simp [apply_ite oaMask]
@[simp] theorem sampleClosing_oa (s : State) (o : Point) (v : SpillSample) (x : Slot) :
    oaMask (sampleClosing s o v x) = oaMask s := by
  unfold sampleClosing
  simp [apply_ite oaMask]
@[simp] theorem sampleDry_oa (s : State) (o : Point) (v : SpillSample) :
    oaMask (sampleDry s o v) = oaMask s := by
  unfold sampleDry
  simp [apply_ite oaMask]
@[simp] theorem sampleByState_oa (s : State) (o : Point) (v : SpillSample) :
    oaMask (sampleByState s o v) = oaMask s := by
  unfold sampleByState
  split <;> simp
@[simp] theorem takeSample_oa (s : State) (o : Point) (level : Int) (time : Ms) :
    oaMask (takeSample s o level time) = oaMask s := by
  unfold takeSample
  simp
@[simp] theorem takeNotice_oa (s : State) (o : Point) (q : Quality) :
    oaMask (takeNotice s o q) = oaMask s := by
  unfold takeNotice
  simp [apply_ite oaMask]

end Sys2Proof.Machine
end

