-- ==== Sys2Proof/Laws/FramesScreens.lean ====
section
/-! SUPPORT. What SC's operations leave alone. -/

namespace Sys2Proof.Machine

/-- The state without what SC changes. -/
def scMask (s : State) : State :=
  { s with lp := State.reset.lp, screens := State.reset.screens, raised := State.reset.raised }

@[simp] theorem State.setScreen_sc (s : State) (k : Screen) (r : ScreenRecord) : scMask (s.setScreen k r) = scMask s := rfl
@[simp] theorem State.setLp_sc (s : State) (l : Loop) : scMask (s.setLp l) = scMask s := rfl
@[simp] theorem State.raise_sc (s : State) (e : Instr) : scMask (s.raise e) = scMask s := rfl
@[simp] theorem State.submit_sc (s : State) (b : RecordBody) : scMask (s.submit b) = scMask s := rfl
@[simp] theorem State.raiseAll_sc (s : State) (es : List Instr) : scMask (s.raiseAll es) = scMask s := rfl
@[simp] theorem State.raiseIf_sc (s : State) (b : Bool) (e : Instr) : scMask (s.raiseIf b e) = scMask s := by
  cases b <;> rfl
theorem each_sc {α : Type} (f : State → α → State) (h : ∀ s x, scMask (f s x) = scMask s) (xs : List α) (s : State) :
    scMask (State.each f xs s) = scMask s := by
  induction xs generalizing s with
  | nil => rfl
  | cons x xs ih => exact (ih (f s x)).trans (h s x)
theorem offerControl_sc {s s' : State} {d : Addr} {a : Option (BitVec 6)} {p : OutPayload}
    (h : offerControl s d a p = some s') : scMask s' = scMask s := by
  unfold offerControl at h; split at h
  · cases h; exact State.raiseIf_sc ..
  · cases h
theorem offerGeneral_sc {s s' : State} {d : Addr} {a : Option (BitVec 6)} {p : OutPayload}
    (h : offerGeneral s d a p = some s') : scMask s' = scMask s := by
  unfold offerGeneral at h; split at h
  · cases h; exact State.raiseIf_sc ..
  · cases h
@[simp] theorem buildRake_sc (s : State) (k : Screen) (stateChange : Bool) :
    scMask (buildRake s k stateChange) = scMask s := by
  unfold buildRake
  split
  · split
    · next h => simpa using offerControl_sc h
    · split <;> simp
  · simp
@[simp] theorem rakeEnter_sc (s : State) (k : Screen) (st : RakeState) :
    scMask (rakeEnter s k st) = scMask s := by
  rfl
@[simp] theorem rakeRelease_sc (s : State) (k : Screen) :
    scMask (rakeRelease s k) = scMask s := by
  unfold rakeRelease
  simp [apply_ite scMask]
@[simp] theorem rakeWithdraw_sc (s : State) (k : Screen) :
    scMask (rakeWithdraw s k) = scMask s := by
  rfl
@[simp] theorem rakeRequest_sc (s : State) (k : Screen) :
    scMask (rakeRequest s k) = scMask s := by
  rfl
@[simp] theorem clearCycle_sc (s : State) (k : Screen) :
    scMask (clearCycle s k) = scMask s := by
  rfl
@[simp] theorem reblind_sc (s : State) (k : Screen) :
    scMask (reblind s k) = scMask s := by
  unfold reblind
  dsimp only
  split
  · rfl
  · rfl
theorem scStep_sc (s : State) (k : Screen) (f : State → State) (h : ∀ s, scMask (f s) = scMask s) :
    scMask (scStep s k f) = scMask s := (reblind_sc _ k).trans (h s)
@[simp] theorem rakeTrigger_sc (s : State) (k : Screen) :
    scMask (rakeTrigger s k) = scMask s := by
  unfold rakeTrigger
  simp [apply_ite scMask]
@[simp] theorem retestClass_sc (s : State) (k : Screen) :
    scMask (retestClass s k) = scMask s := by
  unfold retestClass
  simp [apply_ite scMask]
@[simp] theorem evaluateScreen_sc (s : State) (k : Screen) :
    scMask (evaluateScreen s k) = scMask s := by
  unfold evaluateScreen
  dsimp only
  repeat' split
  all_goals simp
@[simp] theorem recomputeDifferential_sc (s : State) (k : Screen) (up : ChannelUpdate) (level : Option Int)
    (quality : LevelQuality) : scMask (recomputeDifferential s k up level quality) = scMask s := by
  unfold recomputeDifferential
  dsimp only
  repeat' split
  all_goals simp
@[simp] theorem screenDelivery_sc (d : WellDelivery) (s : State) (k : Screen) :
    scMask (screenDelivery d s k) = scMask s := by
  exact scStep_sc s k _ fun s => by simp
@[simp] theorem cycleStart_sc (s : State) (k : Screen) (continuation : Bool) :
    scMask (cycleStart s k continuation) = scMask s := by
  unfold cycleStart
  simp [apply_ite scMask]
@[simp] theorem confirmRake_sc (s : State) (k : Screen) :
    scMask (confirmRake s k) = scMask s := by
  unfold confirmRake
  simp [apply_ite scMask]
@[simp] theorem captureCycle_sc (s : State) (k : Screen) (at_ : Ms) :
    scMask (captureCycle s k at_) = scMask s := by
  unfold captureCycle
  dsimp only
  repeat' split
  all_goals simp
@[simp] theorem restartInterval_sc (s : State) (k : Screen) :
    scMask (restartInterval s k) = scMask s := by
  rfl
@[simp] theorem parkRake_sc (s : State) (k : Screen) :
    scMask (parkRake s k) = scMask s := by
  unfold parkRake
  simp
@[simp] theorem completeCycle_sc (s : State) (k : Screen) (at_ : Ms) :
    scMask (completeCycle s k at_) = scMask s := by
  unfold completeCycle
  simp [apply_ite scMask]
@[simp] theorem endReverse_sc (s : State) (k : Screen) :
    scMask (endReverse s k) = scMask s := by
  unfold endReverse
  simp
@[simp] theorem giveUp_sc (s : State) (k : Screen) (cause : JamCause) :
    scMask (giveUp s k cause) = scMask s := by
  unfold giveUp
  simp
@[simp] theorem declareJam_sc (s : State) (k : Screen) (cause : JamCause) :
    scMask (declareJam s k cause) = scMask s := by
  unfold declareJam
  simp [apply_ite scMask]
@[simp] theorem rakeFault_sc (s : State) (k : Screen) (cause : TripCause) :
    scMask (rakeFault s k cause) = scMask s := by
  unfold rakeFault
  simp
@[simp] theorem holdLocal_sc (s : State) (k : Screen) :
    scMask (holdLocal s k) = scMask s := by
  unfold holdLocal
  simp [apply_ite scMask]
@[simp] theorem liftLocal_sc (s : State) (k : Screen) :
    scMask (liftLocal s k) = scMask s := by
  unfold liftLocal
  simp [apply_ite scMask]
@[simp] theorem rakeTripped_sc (s : State) (k : Screen) (cause : TripCause) :
    scMask (rakeTripped s k cause) = scMask s := by
  unfold rakeTripped
  repeat' (first | rfl | (simp [apply_ite scMask, each_sc]; done) | (simp [apply_ite scMask, each_sc]; rfl) | split)
@[simp] theorem takeRakeReport_sc (s : State) (k : Screen) (d : DriveReport) :
    scMask (takeRakeReport s k d) = scMask s := by
  unfold takeRakeReport
  split <;> simp
@[simp] theorem shortenInterval_sc (s : State) (k : Screen) :
    scMask (shortenInterval s k) = scMask s := by
  rfl
@[simp] theorem rakeRun_sc (s : State) (k : Screen) :
    scMask (rakeRun s k).1 = scMask s := by
  unfold rakeRun
  split
  · rfl
  · exact scStep_sc s k _ fun s => by simp
@[simp] theorem disableRake_sc (s : State) (k : Screen) :
    scMask (disableRake s k) = scMask s := by
  unfold disableRake
  simp [apply_ite scMask]
@[simp] theorem rakeDisable_sc (s : State) (k : Screen) :
    scMask (rakeDisable s k).1 = scMask s := by
  unfold rakeDisable
  split
  · rfl
  · exact scStep_sc s k _ fun s => by simp
@[simp] theorem rakeEnable_sc (s : State) (k : Screen) :
    scMask (rakeEnable s k).1 = scMask s := by
  unfold rakeEnable
  split
  · exact scStep_sc s k _ fun s => by simp
  · rfl
@[simp] theorem screenClear_sc (s : State) (k : Screen) :
    scMask (screenClear s k).1 = scMask s := by
  unfold screenClear
  split
  · exact scStep_sc s k _ fun s => by simp
  · rfl
@[simp] theorem switchScreen_sc (old : Setup) (s : State) (k : Screen) :
    scMask (switchScreen old s k) = scMask s := by
  unfold switchScreen
  dsimp only
  exact (scStep_sc _ k _ fun s => by simp).trans rfl
@[simp] theorem switchScreens_sc (old : Setup) (s : State) :
    scMask (switchScreens old s) = scMask s := by
  unfold switchScreens
  simp [each_sc]

end Sys2Proof.Machine
end

