-- ==== Sys2Proof/Laws/FramesStation.lean ====
section
/-! SUPPORT. What SSU's operations leave alone. -/

namespace Sys2Proof.Machine

/-- The state without what SSU changes. -/
def ssuMask (s : State) : State :=
  { s with ssu := State.reset.ssu, raised := State.reset.raised }

@[simp] theorem State.raise_su (s : State) (e : Instr) : ssuMask (s.raise e) = ssuMask s := rfl
@[simp] theorem State.submit_su (s : State) (b : RecordBody) : ssuMask (s.submit b) = ssuMask s := rfl
@[simp] theorem State.raiseAll_su (s : State) (es : List Instr) : ssuMask (s.raiseAll es) = ssuMask s := rfl
@[simp] theorem State.raiseIf_su (s : State) (b : Bool) (e : Instr) : ssuMask (s.raiseIf b e) = ssuMask s := by
  cases b <;> rfl
theorem each_su {α : Type} (f : State → α → State) (h : ∀ s x, ssuMask (f s x) = ssuMask s) (xs : List α) (s : State) :
    ssuMask (State.each f xs s) = ssuMask s := by
  induction xs generalizing s with
  | nil => rfl
  | cons x xs ih => exact (ih (f s x)).trans (h s x)
@[simp] theorem changeStation_su (s : State) (st : StationState) (why : StormReason) :
    ssuMask (changeStation s st why) = ssuMask s := by
  rfl
@[simp] theorem evaluateStorm_su (s : State) (a b : WellDelivery) :
    ssuMask (evaluateStorm s a b) = ssuMask s := by
  unfold evaluateStorm
  dsimp only
  repeat' split
  all_goals first | rfl | simp [apply_ite ssuMask, each_su]
@[simp] theorem evaluateStormLive_su (s : State) :
    ssuMask (evaluateStormLive s) = ssuMask s := by
  unfold evaluateStormLive
  simp
@[simp] theorem forceStorm_su (s : State) :
    ssuMask (forceStorm s).1 = ssuMask s := by
  unfold forceStorm
  repeat' (first | rfl | (simp [apply_ite ssuMask, each_su]; done) | (simp [apply_ite ssuMask, each_su]; rfl) | split)
@[simp] theorem allowDry_su (s : State) :
    ssuMask (allowDry s).1 = ssuMask s := by
  unfold allowDry
  dsimp only
  repeat' split
  all_goals first | rfl | simp [apply_ite ssuMask, each_su]
@[simp] theorem judgeTide_su (s : State) (v : Option Int) :
    ssuMask (judgeTide s v) = ssuMask s := by
  rfl
@[simp] theorem setWellState_su (s : State) (w : Well) (st : WellState) :
    ssuMask (setWellState s w st) = ssuMask s := by
  rfl
@[simp] theorem decideWell_su (s : State) (w : Well) :
    ssuMask (decideWell s w) = ssuMask s := by
  unfold decideWell
  dsimp only
  repeat' split
  all_goals first | rfl | simp [apply_ite ssuMask, each_su]
@[simp] theorem setRecovery_su (s : State) (w : Well) (recovery wait : Option Ms) :
    ssuMask (setRecovery s w recovery wait) = ssuMask s := by
  rfl
@[simp] theorem enterFallback_su (s : State) (w : Well) (q : LevelQuality) :
    ssuMask (enterFallback s w q) = ssuMask s := by
  unfold enterFallback
  exact (State.submit_su _ _).trans ((State.raiseAll_su _ _).trans (by simp))
@[simp] theorem judgeRecovery_su (s : State) (w : Well) (d : WellDelivery) :
    ssuMask (judgeRecovery s w d) = ssuMask s := by
  unfold judgeRecovery
  repeat' (first | rfl | (simp [apply_ite ssuMask, each_su]; done) | (simp [apply_ite ssuMask, each_su]; rfl) | split)
@[simp] theorem exitFallback_su (s : State) (w : Well) :
    ssuMask (exitFallback s w) = ssuMask s := by
  unfold exitFallback
  exact (State.submit_su _ _).trans ((State.raiseAll_su _ _).trans (by simp))
@[simp] theorem switchStation_su (s : State) :
    ssuMask (switchStation s) = ssuMask s := by
  unfold switchStation
  simp [each_su]

end Sys2Proof.Machine
end

