-- ==== Sys2Proof/Laws/FramesWells.lean ====
section
/-! SUPPORT. What WMU's operations leave alone. -/

namespace Sys2Proof.Machine

/-- The state without what WMU changes. -/
def wmuMask (s : State) : State :=
  { s with wells := State.reset.wells, raised := State.reset.raised, tables := State.reset.tables, mu := State.reset.mu, free := State.reset.free }

@[simp] theorem State.setWell_wmu (s : State) (w : Well) (r : WellRecord) : wmuMask (s.setWell w r) = wmuMask s := rfl
@[simp] theorem State.raise_wmu (s : State) (e : Instr) : wmuMask (s.raise e) = wmuMask s := rfl
@[simp] theorem State.submit_wmu (s : State) (b : RecordBody) : wmuMask (s.submit b) = wmuMask s := rfl
@[simp] theorem State.raiseAll_wmu (s : State) (es : List Instr) : wmuMask (s.raiseAll es) = wmuMask s := rfl
@[simp] theorem State.raiseIf_wmu (s : State) (b : Bool) (e : Instr) : wmuMask (s.raiseIf b e) = wmuMask s := by
  cases b <;> rfl
theorem each_wmu {α : Type} (f : State → α → State) (h : ∀ s x, wmuMask (f s x) = wmuMask s) (xs : List α) (s : State) :
    wmuMask (State.each f xs s) = wmuMask s := by
  induction xs generalizing s with
  | nil => rfl
  | cons x xs ih => exact (ih (f s x)).trans (h s x)
@[simp] theorem deliverWell_wmu (s : State) (w : Well) :
    wmuMask (deliverWell s w) = wmuMask s := by
  rfl
@[simp] theorem completeCommit_wmu (s : State) (t : TableId) :
    wmuMask (completeCommit s t) = wmuMask s := by
  unfold completeCommit
  split <;> rfl
@[simp] theorem integrate_wmu (s : State) (w : Well) :
    wmuMask (integrate s w) = wmuMask s := by
  unfold integrate
  simp [apply_ite wmuMask]
@[simp] theorem selectionEvent_wmu (s : State) (w : Well) (q : Quantity) (u first second : ChannelUpdate) :
    wmuMask (selectionEvent s w q u first second) = wmuMask s := by
  unfold selectionEvent
  simp
@[simp] theorem recomputeVolume_wmu (s : State) (w : Well) :
    wmuMask (recomputeVolume s w) = wmuMask s := by
  unfold recomputeVolume
  split <;> simp
@[simp] theorem recomputeBalance_wmu (s : State) (w : Well) :
    wmuMask (recomputeBalance s w) = wmuMask s := by
  unfold recomputeBalance
  split <;> simp
@[simp] theorem takeLevelVolume_wmu (s : State) (w : Well) :
    wmuMask (takeLevelVolume s w) = wmuMask s := by
  unfold takeLevelVolume
  simp [apply_ite wmuMask]
@[simp] theorem takeCurves_wmu (s : State) (w : Well) :
    wmuMask (takeCurves s w) = wmuMask s := by
  unfold takeCurves
  simp [apply_ite wmuMask]
@[simp] theorem balanceStep_wmu (s : State) (w : Well) :
    wmuMask (balanceStep s w) = wmuMask s := by
  unfold balanceStep
  dsimp only
  repeat' split
  all_goals simp
@[simp] theorem balanceEvent_wmu (s : State) (w : Well) :
    wmuMask (balanceEvent s w) = wmuMask s := by
  unfold balanceEvent
  simp

end Sys2Proof.Machine
end

