-- ==== Sys2Proof/Laws/Settle.lean ====
section
/-! SUPPORT. What follows a change of a pump: what evaluations, rotations, judgements and notices can do to a pump's record, to
the events on their way and to the CONTROL queue. -/

namespace Sys2Proof.Machine

/-- What a relation needs to hold between the state before and after all that follows a change. -/
structure Settles (R : State → State → Prop) : Prop where
  refl : ∀ s, R s s
  trans : ∀ {s t u}, R s t → R t u → R s u
  duty : ∀ s d, R s { s with duty := d }
  treat : ∀ l s p, R s (treat l s p)
  judge : ∀ s p, R s (judgeDeadHead s p)
  tick : ∀ s p x, R s (s.setPump p { s.pump p with runTickAt := x })
  raise : ∀ s e, R s (s.raise e)

variable {R : State → State → Prop}

theorem Settles.each (h : Settles R) {α : Type} (f : State → α → State) (hf : ∀ s x, R s (f s x)) (xs : List α)
    (s : State) : R s (State.each f xs s) := by
  induction xs generalizing s with
  | nil => exact h.refl s
  | cons x xs ih => exact h.trans (hf s x) (ih (f s x))

theorem Settles.evaluateOnce (h : Settles R) (s : State) (w : Well) (d : WellDelivery) :
    R s (evaluateOnce s w d) := by
  unfold Machine.evaluateOnce
  split
  · exact h.refl s
  · split
    · exact h.trans (h.duty s _) (h.each _ (h.treat _) _ _)
    · exact h.refl s

theorem Settles.rotateIfDue (h : Settles R) (s : State) (w : Well) : R s (rotateIfDue s w) := by
  unfold Machine.rotateIfDue
  split
  · exact h.duty s _
  · exact h.refl s

theorem Settles.evaluateFuel (h : Settles R) (n : Nat) (s : State) (w : Well) (d : WellDelivery) :
    R s (evaluateFuel n s w d) := by
  induction n generalizing s with
  | zero => exact h.refl s
  | succ n ih =>
    unfold Machine.evaluateFuel
    dsimp only
    split
    · exact h.trans (h.trans (h.evaluateOnce s w d) (h.rotateIfDue _ w)) (ih _)
    · exact h.trans (h.evaluateOnce s w d) (h.rotateIfDue _ w)

theorem Settles.evaluate (h : Settles R) (s : State) (w : Well) (d : WellDelivery) : R s (evaluate s w d) :=
  h.trans (h.rotateIfDue s w) (h.evaluateFuel 8 _ w d)

theorem Settles.evaluateLive (h : Settles R) (s : State) (w : Well) : R s (evaluateLive s w) :=
  h.evaluate s w _

theorem Settles.noticeFlow (h : Settles R) (b s : State) (p : Pump) : R s (noticeFlow b s p) := by
  have tick : R s (runTick b s p) := by
    unfold Machine.runTick
    split
    · exact h.refl s
    · exact h.tick s p _
  unfold Machine.noticeFlow State.raiseIf
  dsimp only
  split
  · exact h.trans tick (h.raise _ _)
  · exact tick

/-- All that follows a change keeps what its parts keep. -/
theorem Settles.settle (h : Settles R) (b a : State) : R a (settle b a) := by
  unfold Machine.settle
  refine h.trans (h.trans (h.trans (h.each _ ?_ _ _) (h.each _ h.rotateIfDue _ _)) (h.each _ ?_ _ _))
    (h.each _ (h.noticeFlow b) _ _)
  · intro s w
    unfold evaluateChanged
    split
    · exact h.evaluateLive s w
    · exact h.refl s
  · intro s p
    unfold judgeChanged
    split
    · exact h.refl s
    · exact h.judge s p

/-! ## Events and frames stay on their way -/

/-- Events on their way and frames of the CONTROL queue are added to, never taken. -/
structure Grows (s t : State) : Prop where
  raised : s.raised <+: t.raised
  control : s.lp.control <+: t.lp.control

theorem Grows.refl (s : State) : Grows s s := ⟨List.prefix_refl _, List.prefix_refl _⟩
theorem Grows.trans {s t u : State} (h : Grows s t) (k : Grows t u) : Grows s u :=
  ⟨h.raised.trans k.raised, h.control.trans k.control⟩
theorem Grows.mem_raised {s t : State} (h : Grows s t) {e : Instr} (m : e ∈ s.raised) : e ∈ t.raised :=
  h.raised.subset m
theorem Grows.mem_control {s t : State} (h : Grows s t) {f : OutFrame} (m : f ∈ s.lp.control) : f ∈ t.lp.control :=
  h.control.subset m

theorem State.raise_grows (s : State) (e : Instr) : Grows s (s.raise e) :=
  ⟨List.prefix_append _ _, List.prefix_refl _⟩
theorem State.raiseIf_grows (s : State) (b : Bool) (e : Instr) : Grows s (s.raiseIf b e) := by
  unfold State.raiseIf
  split
  · exact s.raise_grows e
  · exact .refl s
theorem State.setPump_grows (s : State) (p : Pump) (r : PumpRecord) : Grows s (s.setPump p r) := ⟨List.prefix_refl _, List.prefix_refl _⟩

theorem offerControl_grows {s t : State} {d : Addr} {a : Option (BitVec 6)} {x : OutPayload}
    (h : offerControl s d a x = some t) : Grows s t := by
  unfold offerControl at h
  split at h
  · cases h
    refine ⟨?_, by simp⟩
    rw [State.raiseIf_raised]
    split
    · exact List.prefix_append _ _
    · exact List.prefix_refl _
  · cases h

theorem offerCommand_grows (s : State) (p : Pump) (c : Option (DriveAction × Nat)) (b : Bool) :
    Grows s (offerCommand s p c b) := by
  unfold offerCommand
  split
  · split
    · rename_i h
      exact (offerControl_grows h).trans (State.setPump_grows _ _ _)
    · split
      · exact State.setPump_grows _ _ _
      · exact .refl s
  · exact State.setPump_grows _ _ _

theorem buildCommand_grows (s : State) (p : Pump) (b : Bool) : Grows s (buildCommand s p b) := offerCommand_grows s p _ b

theorem returnCharge_grows (s : State) (p : Pump) : Grows s (returnCharge s p) := by
  unfold returnCharge
  split
  · exact (State.setPump_grows _ _ _).trans (State.raise_grows _ _)
  · exact .refl s

theorem releaseCharge_grows (s : State) (p : Pump) : Grows s (releaseCharge s p) := by
  unfold releaseCharge
  split
  · exact .refl s
  · exact (State.setPump_grows _ _ _).trans (State.raise_grows _ _)

theorem enter_grows (s : State) (p : Pump) (st : PumpState) : Grows s (enter s p st) := State.setPump_grows _ _ _
theorem enterOff_grows (s : State) (p : Pump) : Grows s (enterOff s p) := State.setPump_grows _ _ _

theorem grows_send {s t : State} {p : Pump} (h : Grows s t) (send : Bool) :
    Grows s (if send then buildCommand t p true else t) := by
  split
  · exact h.trans (buildCommand_grows t p true)
  · exact h

theorem stopPump_grows (s : State) (p : Pump) (send : Bool) : Grows s (stopPump s p send) := by
  unfold stopPump
  dsimp only
  refine grows_send ?_ send
  refine .trans (returnCharge_grows s p) (.trans (enter_grows _ p .stopping) ?_)
  exact .trans (State.setPump_grows _ _ _) (State.raiseIf_grows _ _ _)

theorem treat_grows (l : List Pump) (s : State) (p : Pump) : Grows s (treat l s p) := by
  unfold treat
  dsimp only
  split
  · exact .refl s
  · split
    · split
      · exact (enter_grows s p _).trans (State.raise_grows _ _)
      · exact .refl s
    · split
      · exact .refl s
      · exact (State.raise_grows _ _).trans (enterOff_grows _ _)
    · split
      · exact State.setPump_grows _ _ _
      · split
        · exact stopPump_grows _ _ _
        · exact State.setPump_grows _ _ _
    · exact .refl s

theorem judgeDeadHead_grows (s : State) (p : Pump) : Grows s (judgeDeadHead s p) := by
  unfold judgeDeadHead
  split
  · split
    · exact State.setPump_grows _ _ _
    · exact .refl s
  · exact .refl s

theorem grows_settles : Settles Grows where
  refl := .refl
  trans := .trans
  duty _ _ := ⟨List.prefix_refl _, List.prefix_refl _⟩
  treat := treat_grows
  judge := judgeDeadHead_grows
  tick s p _ := State.setPump_grows s p _
  raise := State.raise_grows

theorem settle_grows (b a : State) : Grows a (settle b a) := grows_settles.settle b a

/-! ## A pump that an evaluation does not move -/

/-- An evaluation moves only AUTO pumps in OFF, START_WAIT or RUNNING (R57). -/
def Held (r : PumpRecord) : Prop := r.owner ≠ .auto ∨ (r.state ≠ .off ∧ r.state ≠ .startWait ∧ r.state ≠ .running)

/-- A record but for what judgements of speed and the count of run seconds change. -/
def still (r : PumpRecord) : PumpRecord := { r with deadHeadAt := none, forcing := false, staged := 0, runTickAt := none }

theorem Held.of_still {r r' : PumpRecord} (h : still r' = still r) (k : Held r) : Held r' := by
  have h1 : r'.owner = r.owner := show (still r').owner = (still r).owner by rw [h]
  have h2 : r'.state = r.state := show (still r').state = (still r).state by rw [h]
  unfold Held at *
  rwa [h1, h2]

/-- What an operation on one pump keeps of the others. -/
theorem offerCommand_other (s : State) {p q : Pump} (c : Option (DriveAction × Nat)) (b : Bool) (h : q ≠ p) :
    (offerCommand s p c b).pump q = s.pump q := by
  unfold offerCommand offerControl
  split
  · split
    · rename_i k
      split at k
      · cases k; simp [h, State.pump]
      · cases k
    · split <;> simp [h]
  · simp [h]

theorem buildCommand_other (s : State) {p q : Pump} (b : Bool) (h : q ≠ p) : (buildCommand s p b).pump q = s.pump q :=
  offerCommand_other s _ b h

theorem stopPump_other (s : State) {p q : Pump} (b : Bool) (h : q ≠ p) : (stopPump s p b).pump q = s.pump q := by
  have h1 : (returnCharge s p).pump q = s.pump q := by
    unfold returnCharge; split
    · simp [h, State.pump]
    · rfl
  unfold stopPump
  dsimp only
  split
  · rw [buildCommand_other _ _ h]; simp [h, enter, State.pump]; exact h1
  · simp [h, enter, State.pump]; exact h1

theorem treat_other (l : List Pump) (s : State) {p q : Pump} (h : q ≠ p) : (treat l s p).pump q = s.pump q := by
  unfold treat enterOff enter withdraw
  dsimp only
  repeat' split
  all_goals first | rfl | exact stopPump_other _ _ h | simp [h, State.pump]

theorem treat_held (l : List Pump) (s : State) (p : Pump) (h : Held (s.pump p)) : treat l s p = s := by
  unfold treat
  dsimp only
  rcases h with h | ⟨h1, h2, h3⟩
  · rw [if_pos h]
  · split
    · rfl
    · split <;> first | rfl | simp_all

theorem judgeDeadHead_still (s : State) (p q : Pump) : still ((judgeDeadHead s p).pump q) = still (s.pump q) := by
  unfold judgeDeadHead
  split
  · split
    · by_cases h : q = p
      · subst h; simp [still]
      · simp [h]
    · rfl
  · rfl

theorem held_settles (p : Pump) :
    Settles fun s t => Held (s.pump p) → still (t.pump p) = still (s.pump p) where
  refl _ _ := rfl
  trans h k hs := (k (Held.of_still (h hs) hs)).trans (h hs)
  duty _ _ _ := rfl
  treat l s q h := by
    by_cases e : p = q
    · subst e; rw [treat_held l s p h]
    · rw [treat_other l s e]
  judge s q _ := judgeDeadHead_still s q p
  tick s q x _ := by
    by_cases e : p = q
    · subst e; simp [still]
    · simp [e]
  raise _ _ _ := rfl

/-- What follows a change keeps a pump that an evaluation does not move. -/
theorem settle_held (b a : State) (p : Pump) (h : Held (a.pump p)) :
    still ((settle b a).pump p) = still (a.pump p) := (held_settles p).settle b a h

/-! ## What stays of every pump -/

/-- The fields that no evaluation, rotation, judgement or notice touches. -/
structure Steady (r r' : PumpRecord) : Prop where
  owner : r'.owner = r.owner
  disabled : r'.disabled = r.disabled
  lockout : r'.lockout = r.lockout
  interlock : r'.interlock = r.interlock
  drive : r'.drive = r.drive
  lastReport : r'.lastReport = r.lastReport
  statusAt : r'.statusAt = r.statusAt
  lastTrip : r'.lastTrip = r.lastTrip
  runSeconds : r'.runSeconds = r.runSeconds
  history : r'.history = r.history
  attempts : r'.attempts = r.attempts
  formula : r'.formula = r.formula
  applied : r'.applied = r.applied
  charge : r.charge ≠ .start → r'.charge = r.charge

theorem Steady.refl (r : PumpRecord) : Steady r r := by constructor <;> simp
theorem Steady.trans {a b c : PumpRecord} (h : Steady a b) (k : Steady b c) : Steady a c where
  owner := k.owner.trans h.owner
  disabled := k.disabled.trans h.disabled
  lockout := k.lockout.trans h.lockout
  interlock := k.interlock.trans h.interlock
  drive := k.drive.trans h.drive
  lastReport := k.lastReport.trans h.lastReport
  statusAt := k.statusAt.trans h.statusAt
  lastTrip := k.lastTrip.trans h.lastTrip
  runSeconds := k.runSeconds.trans h.runSeconds
  history := k.history.trans h.history
  attempts := k.attempts.trans h.attempts
  formula := k.formula.trans h.formula
  applied := k.applied.trans h.applied
  charge x := (k.charge (by rw [h.charge x]; exact x)).trans (h.charge x)

/-- Building a STOP changes the count and the timers of the command alone. -/
theorem buildCommand_stop (s : State) (p : Pump) (b : Bool) (h : actionHeld (s.pump p).state = some .stop) :
    ∃ c x y, (buildCommand s p b).pump p = { s.pump p with count := c, refreshAt := x, retryAt := y } := by
  unfold buildCommand offerCommand commandOf heldCommand
  simp only [h, Option.some.injEq, reduceCtorEq, false_and, if_false]
  cases k : offerControl s (driveOf s p) none (.driveCmd .stop 100 (s.pump p).count) with
  | some t =>
    have e : t.pump p = s.pump p := by
      unfold offerControl at k
      split at k
      · cases k; simp [State.pump]
      · cases k
    refine ⟨(s.pump p).count + 1, some (t.now + refreshMs t), none, ?_⟩
    simp [commandPlaced, e]
  | none =>
    dsimp only
    split
    · exact ⟨(s.pump p).count, (s.pump p).refreshAt, _, by simp; rfl⟩
    · exact ⟨(s.pump p).count, (s.pump p).refreshAt, (s.pump p).retryAt, rfl⟩

/-- A stop of a pump by DC: it is STOPPING with its deadline, and its start charge is returned (R79). -/
theorem stopPump_pump (s : State) (p : Pump) (send : Bool) :
    ∃ c x y, (stopPump s p send).pump p = { inState s { s.pump p with
      charge := if (s.pump p).charge = .start then .none else (s.pump p).charge } .stopping with
        stopAt := some (s.now + 30000), stopFailed := false, count := c, refreshAt := x, retryAt := y } := by
  let a := returnCharge s p
  have ha : a.pump p = { s.pump p with charge := if (s.pump p).charge = .start then .none else (s.pump p).charge } := by
    simp only [a, returnCharge]
    split
    · simp [State.pump]
    · rfl
  have hn : a.now = s.now := by simp only [a, returnCharge]; split <;> rfl
  have hi : ∀ r, inState a r .stopping = inState s r .stopping := by
    have : a.setup = s.setup := by simp only [a, returnCharge]; split <;> rfl
    intro r; simp [inState, refreshMs, hn, this]
  let b := (a.setPump p (inState a (a.pump p) .stopping)).setPump p
    { (a.setPump p (inState a (a.pump p) .stopping)).pump p with stopAt := some (a.now + 30000), stopFailed := false }
  let d := b.raiseIf ((b.pump p).charge == .running || (b.pump p).charge == .external) (.stopNotice p)
  have hb : d.pump p = { inState s { s.pump p with
      charge := if (s.pump p).charge = .start then .none else (s.pump p).charge } .stopping with
        stopAt := some (s.now + 30000), stopFailed := false } := by
    have : d.pump p = b.pump p := by simp [d, State.pump]
    rw [this]; simp [b, ha, hi, hn]
  have hd : stopPump s p send = if send then buildCommand d p true else d := rfl
  rw [hd]
  split
  · have hs : actionHeld (d.pump p).state = some .stop := by rw [hb]; rfl
    obtain ⟨c, x, y, e⟩ := buildCommand_stop d p true hs
    exact ⟨c, x, y, by rw [e, hb]⟩
  · exact ⟨_, _, _, hb⟩

theorem stopPump_state (s : State) (p : Pump) (send : Bool) : ((stopPump s p send).pump p).state = .stopping := by
  obtain ⟨c, x, y, e⟩ := stopPump_pump s p send; rw [e]; rfl
theorem stopPump_stopAt (s : State) (p : Pump) (send : Bool) :
    ((stopPump s p send).pump p).stopAt = some (s.now + 30000) := by
  obtain ⟨c, x, y, e⟩ := stopPump_pump s p send; rw [e]

theorem stopPump_steady (s : State) (p : Pump) (send : Bool) (h : (s.pump p).owner = .auto) :
    Steady (s.pump p) ((stopPump s p send).pump p) := by
  obtain ⟨c, x, y, e⟩ := stopPump_pump s p send
  rw [e]
  constructor <;> simp [inState, ownerIn, h]
  intro k1 k2; exact absurd k2 k1

theorem ownerIn_redirect (l d : Bool) :
    ownerIn (if l then .lockedOut else if d then .unavailable .disabled else .off) .auto = .auto := by
  cases l <;> cases d <;> rfl

theorem treat_steady (l : List Pump) (s : State) (p q : Pump) : Steady (s.pump q) ((treat l s p).pump q) := by
  by_cases h : q = p
  · subst h
    unfold treat enterOff enter withdraw
    dsimp only
    split
    · exact .refl _
    · rename_i h0
      have h0 : (s.pump q).owner = .auto := by simpa using h0
      split
      · split
        · simp [State.pump]; constructor <;> simp_all [inState, ownerIn, State.pump]
        · exact .refl _
      · split
        · exact .refl _
        · simp [State.pump]
          constructor <;> simp_all [inState, State.pump]
          exact ownerIn_redirect _ _
      · split
        · simp; constructor <;> simp
        · split
          · exact stopPump_steady s q true h0
          · simp; constructor <;> simp
      · exact .refl _
  · rw [treat_other l s h]; exact .refl _

theorem judgeDeadHead_steady (s : State) (p q : Pump) : Steady (s.pump q) ((judgeDeadHead s p).pump q) := by
  have h := judgeDeadHead_still s p q
  unfold still at h
  simp only [PumpRecord.mk.injEq] at h
  constructor <;> simp_all

theorem steady_settles (p : Pump) : Settles fun s t => Steady (s.pump p) (t.pump p) where
  refl _ := .refl _
  trans h k := h.trans k
  duty _ _ := .refl _
  treat l s q := treat_steady l s q p
  judge s q := judgeDeadHead_steady s q p
  tick s q x := by
    by_cases e : p = q
    · subst e; constructor <;> simp
    · simp only [State.pump_setPump, e, if_false]; exact .refl _
  raise _ _ := .refl _

/-- What follows a change keeps these fields of every pump. -/
theorem settle_steady (b a : State) (p : Pump) : Steady (a.pump p) ((settle b a).pump p) :=
  (steady_settles p).settle b a

/-! ## No evaluation -/

theorem wellChanged_self (s : State) (w : Well) : wellChanged s s w = false := by simp [wellChanged]

/-- What a change keeps that moves no pump: the pumps but for judgements of speed and run seconds, LP and the demands. -/
structure Keeps (s t : State) : Prop where
  pumps : ∀ p, still (t.pump p) = still (s.pump p)
  lp : t.lp = s.lp
  levelDemand : t.duty.levelDemand = s.duty.levelDemand
  demand : t.duty.demand = s.duty.demand

theorem Keeps.refl (s : State) : Keeps s s := ⟨fun _ => rfl, rfl, rfl, rfl⟩
theorem Keeps.trans {s t u : State} (h : Keeps s t) (k : Keeps t u) : Keeps s u :=
  ⟨fun p => (k.pumps p).trans (h.pumps p), k.lp.trans h.lp, k.levelDemand.trans h.levelDemand, k.demand.trans h.demand⟩
theorem Keeps.each {α : Type} (f : State → α → State) (hf : ∀ s x, Keeps s (f s x)) (xs : List α) (s : State) :
    Keeps s (State.each f xs s) := by
  induction xs generalizing s with
  | nil => exact .refl s
  | cons x xs ih => exact (hf s x).trans (ih (f s x))

theorem rotateIfDue_keeps (s : State) (w : Well) : Keeps s (rotateIfDue s w) := by
  unfold rotateIfDue
  split
  · exact ⟨fun _ => rfl, rfl, rfl, rfl⟩
  · exact .refl s

theorem rotateIfDue_ssu (s : State) (w : Well) : (rotateIfDue s w).ssu = s.ssu := by unfold rotateIfDue; split <;> rfl
theorem rotateIfDue_wells (s : State) (w : Well) : (rotateIfDue s w).wells = s.wells := by
  unfold rotateIfDue; split <;> rfl
theorem rotateIfDue_pumps (s : State) (w : Well) : (rotateIfDue s w).pumps = s.pumps := by
  unfold rotateIfDue; split <;> rfl

theorem noEvaluation_rotate {s : State} {w : Well} (v : Well) (h : noEvaluation s w) :
    noEvaluation (rotateIfDue s v) w := by
  unfold noEvaluation State.well at *
  rwa [rotateIfDue_ssu, rotateIfDue_wells]

/-- A rotation moves no pump, so it brings no evaluation. -/
theorem wellChanged_rotate (s : State) (w : Well) : wellChanged s (rotateIfDue s w) w = false := by
  simp [wellChanged, State.pump, rotateIfDue_pumps]

/-- With no evaluation possible, an evaluation is at most a rotation. -/
theorem evaluateLive_keeps {s : State} {w : Well} (h : noEvaluation s w) :
    Keeps s (evaluateLive s w) ∧ noEvaluation (evaluateLive s w) .a = noEvaluation s .a
      ∧ noEvaluation (evaluateLive s w) .b = noEvaluation s .b := by
  have k : evaluateOnce (rotateIfDue s w) w (deliveryOf (s.well w)) = rotateIfDue s w := by
    unfold evaluateOnce
    refine if_pos ?_
    rw [rotateIfDue_ssu]
    exact h
  have e : evaluateLive s w = rotateIfDue (rotateIfDue s w) w := by
    unfold evaluateLive evaluate evaluateFuel
    simp [k, wellChanged_rotate]
  rw [e]
  refine ⟨(rotateIfDue_keeps s w).trans (rotateIfDue_keeps _ w), ?_, ?_⟩ <;>
    · unfold noEvaluation State.well
      simp only [rotateIfDue_ssu, rotateIfDue_wells]

/-- With no evaluation possible, what follows a change keeps every pump, the CONTROL queue and the demands. -/
theorem settle_quiet (b a : State) (h : Quiet a) :
    (∀ p, still ((settle b a).pump p) = still (a.pump p)) ∧ (settle b a).lp = a.lp
      ∧ (settle b a).duty.levelDemand = a.duty.levelDemand ∧ (settle b a).duty.demand = a.duty.demand := by
  have one : ∀ s w, noEvaluation s w → Keeps s (evaluateChanged b s w)
      ∧ noEvaluation (evaluateChanged b s w) .b = noEvaluation s .b := by
    intro s w hs
    unfold evaluateChanged
    split
    · exact ⟨(evaluateLive_keeps hs).1, (evaluateLive_keeps hs).2.2⟩
    · exact ⟨.refl s, rfl⟩
  have ev : Keeps a (State.each (evaluateChanged b) Well.all a) := by
    have k := one a .a (h .a)
    exact k.1.trans (one _ .b (k.2 ▸ h .b)).1
  have rest : ∀ s : State, Keeps s (State.each (noticeFlow b) Pump.all (State.each (judgeChanged b) Pump.all
      (State.each rotateIfDue Well.all s))) := by
    intro s
    refine .trans (.trans (.each _ rotateIfDue_keeps _ s) (.each _ ?_ _ _)) (.each _ ?_ _ _)
    · intro s p
      unfold judgeChanged
      split
      · exact .refl s
      · have k : (judgeDeadHead s p).lp = s.lp ∧ (judgeDeadHead s p).duty = s.duty := by
          unfold judgeDeadHead
          split
          · split <;> exact ⟨rfl, rfl⟩
          · exact ⟨rfl, rfl⟩
        exact ⟨judgeDeadHead_still s p, k.1, by rw [k.2], by rw [k.2]⟩
    · intro s p
      have tick : Keeps s (runTick b s p) := by
        unfold runTick
        split
        · exact .refl s
        · refine ⟨fun q => ?_, rfl, rfl, rfl⟩
          by_cases e : q = p
          · subst e; simp [still]
          · simp [e]
      refine tick.trans ?_
      unfold noticeFlow State.raiseIf
      dsimp only
      split
      · exact ⟨fun _ => rfl, rfl, rfl, rfl⟩
      · exact .refl _
  have k := ev.trans (rest _)
  exact ⟨k.pumps, k.lp, k.levelDemand, k.demand⟩

end Sys2Proof.Machine
end

