-- ==== Sys2Proof/WellFormed.lean ====
section
/-! DEFINITION. Which commands can come about: addresses a node may hold, frames whose payload has the length the header
gives, deliveries to the right consumer. The machine's meanings do not rely on it. -/

namespace Sys2Proof

/-- An address a node may hold (R1, R187). -/
def nodeAddress (a : Nat) : Bool := decide (1 ≤ a ∧ a ≤ 62)

/-- A frame as LP takes it (R166): as many payload bytes as the header says, when the check can be located. -/
def RawFrame.wf (f : RawFrame) : Bool :=
  decide (48 < f.length.toNat) || f.payload.length == f.length.toNat

/-- A payload of a good frame from a node. -/
def payloadFrom (src : Addr) (payload : List Byte) : Bool := nodeAddress src && decide (payload.length ≤ 48)

/-- A request header: its source is a node, its authority 0..3. -/
def ReqHead.wf (h : ReqHead) : Bool := nodeAddress h.source && decide (h.authority ≤ 3)

/-- The quantities of a well, delivered to WMU (R5, R21). -/
def wellQuantity : Quantity → Bool
  | .la1 | .la2 | .lb1 | .lb2 | .fah | .fal | .fbh | .fbl => true
  | .riv | .su1 | .su2 | .su3 | .ov1 | .ov2 | .rh1 | .rh2 | .rh3 => false

/-- Quantities whose entries are ANALOG (00_scope.md, Station quantities). -/
def analogQuantity : Quantity → Bool
  | .la1 | .la2 | .lb1 | .lb2 | .riv | .su1 | .su2 | .su3 | .ov1 | .ov2 => true
  | .fah | .fal | .fbh | .fbl | .rh1 | .rh2 | .rh3 => false

/-- A pump asks at class PUMP, a rake at one of the rake classes (R93). -/
def classFits : Requester → RequestClass → Bool
  | .pump _, .pump => true
  | .pump _, _ => false
  | .rake _, .pump => false
  | .rake _, _ => true

/-- ELR makes LOST records itself; no block submits one (R154). -/
def submittable : RecordBody → Bool
  | .lost .. => false
  | _ => true

/-- A stored sample has a value (R5). -/
def ChannelUpdate.wf (u : ChannelUpdate) : Bool := !u.stored || u.value.isSome

/-- The commands that can come about. -/
def Instr.wf : Instr → Bool
  | .forwardOnlyArrival f | .frameArrival f => f.wf
  | .sampleFrame src payload | .edgeFrame src payload | .driveStat src payload | .rakeDriveStat src payload
  | .reportAck src payload => payloadFrom src payload
  | .supplyStat src value => nodeAddress src && value != some .unknown
  | .referenceIntervalExpiry q | .referenceRetry q | .referenceTimeout q => analogQuantity q
  | .cadenceRepeatExpiry node | .cadenceRetry node => nodeAddress node
  | .levelSelection q u first second => wellQuantity q && u.wf && first.wf && second.wf
  | .wellStateToDc _ st => st != .fallback
  | .startRequest r cls => classFits r cls
  | .overflowLevelUpdate _ u | .rivUpdateSsu u | .upstreamLevelUpdate _ u | .homeQualityNotice _ u => u.wf
  | .recordSubmission body => submittable body
  | .tableWrite h _ | .tableRead h _ | .tableDiscard h _ | .tableCommit h _ | .readRecord h _ | .invokeGate h _
  | .setLockLevel h _ | .setTime h _ | .clearCounters h _ | .restart h _ => h.wf
  | .pumpFlowNotice _ _ | .wellRecordDeliveryDc _ _ | .wellRecordDeliverySc _ _ | .wellRecordDeliveryOa _ _
  | .wellRecordDeliverySsu _ _ => true
  | .powerOn _ | .loopOutFree _ | .silenceTimerExpiry | .stalenessDeadline _ | .holdDeadline _ | .floatContradiction _ _ _
  | .surgeNotice _ | .stationStateToCu _ | .disagreeTimeout _ | .balanceExpiry _ => true
  | .startDeadlineExpiry _ | .stopDeadlineExpiry _ | .backoffEnd _ | .restEnd _ | .skipEnd _ | .statusDeadlineExpiry _
  | .minRunExpiry _ | .startHistoryAging _ | .refreshExpiry _ | .commandRetry _ | .deadHeadExpiry _
  | .runSecondsTick _ | .pumpGrant _ | .pumpShed _ | .fallbackEntryDc _ | .fallbackExitDc _ _ | .stationStateToDc _
  | .curveSwitchNotice _ => true
  | .requestWithdrawal _ | .chargeTransfer _ | .grantReturn _ | .chargeRelease _ | .externalCharge _ _ | .stopNotice _
  | .shedDecline _ | .fallbackEntrySb _ | .fallbackExitSb _ _ => true
  | .homeOffEdge _ _ | .homeOnEdge _ _ | .rakeGrant _ | .rakeShed _
  | .leaveDeadlineExpiry _ | .cycleDeadlineExpiry _ | .reverseEnd _ | .pauseEnd _ | .intervalTimerExpiry _
  | .hourTimerExpiry | .rakeRefreshExpiry _ | .rakeCommandRetry _ | .stationStateToSc _ => true
  | .wellStateToOa _ _ | .spillStateDelivery _ _ | .holdTimerExpiry | .blindedChange _ _
  | .recoveryTimerExpiry _ | .statusWaitEnd _ | .driveStatusReport _ _ => true
  | .reportRetry | .reportTimerExpiry | .statusTimerExpiry | .statusPartRetry | .stationStateToElr _ => true
  | .deferredRestart | .storeWriteComplete | .clockAdvance | .powerLoss => true

end Sys2Proof
end

