-- ==== Sys2Proof/Tests/Slice0.lean ====
section
/-! SUPPORT. Tests: the rules' own examples, an ill-formed command for each check of WellFormed, and for every statement
with hypotheses a state and operands that meet them (`wit_…`). -/

namespace Sys2Proof.Tests

open Sys2Proof Sys2Proof.Machine

-- One test after another: every `decide +kernel` that waits for the kernel would hold a thread of its own.
set_option Elab.async false

/-! ## Rules' own examples -/

/-- R8's table. -/
theorem test_level_conversion :
    [(-500, 6000, 0), (-500, 6000, 2048), (-500, 6000, 4095), (14000, 2000, 4095)].map
      (fun x : Int × Int × Int => clampInt (-5000) 15000 (x.1 + truncDiv (x.2.2 * x.2.1) 4095))
      = [-500, 2500, 5500, 15000] := by decide

/-- R22's example: the mean of −101 and −100 is −101. -/
theorem test_mean_rounds_down : ((-101 : Int) + -100) / 2 = -101 := by decide

/-- R74: one step from the reset value ACE1, whose lowest bit is set: 5670 hex, then the feedback B400. -/
theorem test_backoff_step : backoffStep 0xACE1#16 = 0xE270#16 := by decide

/-- R166: the well-known check of the bytes "123456789" with this generator and start value. PRESUMED (general knowledge). -/
theorem test_crc : crc16 [0x31#8, 0x32#8, 0x33#8, 0x34#8, 0x35#8, 0x36#8, 0x37#8, 0x38#8, 0x39#8] = 0x29B1#16 := by decide +kernel

/-- Power-on with strap 62 and a blank store gives the reset state. -/
theorem test_power_on_is_reset :
    exec (.powerOn 62#6) { State.reset with powered := false } = .next State.reset := by rfl

/-- No word spells a command. -/
theorem test_no_word : decodeTableWord 32 0xFFFFFFFF = none := by decide

/-- R177: the Station Setup has 185 values. -/
theorem test_setup_size : SetupKey.all.length = 185 := by decide +kernel

/-! ## WellFormed refuses -/

def frameOf (dest src kind : Byte) (payload : List Byte) : RawFrame :=
  let f : RawFrame := ⟨dest, src, kind, 0, BitVec.ofNat 8 payload.length, payload, 0⟩
  { f with check := crc16 (rawCovered f) }

theorem test_wf_frame : (Instr.frameArrival ⟨1, 2, 1, 0, 3, [0], 0⟩).wf = false := by decide
theorem test_wf_forward_only : (Instr.forwardOnlyArrival ⟨1, 2, 1, 0, 3, [0], 0⟩).wf = false := by decide
theorem test_wf_source : (Instr.sampleFrame 63 []).wf = false := by decide
theorem test_wf_payload : (Instr.driveStat 1 (List.replicate 49 0)).wf = false := by decide
theorem test_wf_supply : (Instr.supplyStat 30 (some .unknown)).wf = false := by decide
theorem test_wf_reference : (Instr.referenceRetry .fah).wf = false := by decide
theorem test_wf_node : (Instr.cadenceRetry 0).wf = false := by decide
theorem test_wf_selection : (Instr.levelSelection .riv).wf = false := by decide
theorem test_wf_selection_update :
    (Instr.levelSelection .la1 ⟨none, .good, none, true⟩).wf = false := by decide
theorem test_wf_well_state : (Instr.wellStateToDc .a .fallback).wf = false := by decide
theorem test_wf_class : (Instr.startRequest (.pump .p1) .rake).wf = false := by decide
theorem test_wf_rake_class : (Instr.startRequest (.rake .s1) .pump).wf = false := by decide
theorem test_wf_update : (Instr.overflowLevelUpdate .one ⟨none, .good, none, true⟩).wf = false := by decide
theorem test_wf_lost : (Instr.recordSubmission (.lost 0 0 0 0)).wf = false := by decide
theorem test_wf_authority : (Instr.setTime ⟨1, 4, 0, 0⟩ none).wf = false := by decide
theorem test_wf_request_source : (Instr.restart ⟨0, 0, 0, 0⟩ none).wf = false := by decide
theorem test_wf_good : (Instr.frameArrival (frameOf 21 1 4 [1, 100, 0])).wf = true := by decide

/-! ## States -/

/-- A part in its middle age, its queues empty. -/
def base : State :=
  { State.reset with now := 100000000, raised := [], lp := { State.reset.lp with control := [] } }

/-- With both wells out of fallback. -/
def awake : State := { base with ssu := { base.ssu with well := ⟨.normal, .normal⟩ } }

def dark : State := { base with powered := false }
def forwarding : State := { base with mode := .forwardOnly }

def withPump (s : State) (p : Pump) (f : PumpRecord → PumpRecord) : State := s.setPump p (f (s.pump p))
def withScreen (s : State) (k : Screen) (f : ScreenRecord → ScreenRecord) : State := s.setScreen k (f (s.screen k))
def withWell (s : State) (w : Well) (f : WellRecord → WellRecord) : State := s.setWell w (f (s.well w))
def withChan (s : State) (q : Quantity) (f : ChannelRecord → ChannelRecord) : State := s.setChan q (f (s.chan q))

def past : Ms := 90000000

def mapEntry (ch : Nat) (q : Quantity) (k : ChannelKind) : SampleEntry :=
  ⟨5, ch, .name q, k, -500, 6000, 100, 4000, some 2000, some 10, 30, false⟩

/-- A map of node 5: a transducer, a home switch and a float. -/
def nodeFive : SampleMap :=
  [some (mapEntry 0 .la1 .analog), some (mapEntry 1 .rh1 .discrete), some (mapEntry 2 .fah .discrete)]

def mapped : State :=
  { awake with
    tables := { awake.tables with sampleMap := Machine.Banks.valid nodeFive }
    nodes := [⟨5, .storm, some past, some past⟩] }

def report (d : DriveState) : DriveReport := ⟨d, false, 100, 50, .none⟩
def payloadOf (state flags cause : Byte) : List Byte := [state, flags, 100, 50, cause]

/-- A field after a command. -/
def after {α : Type} (c : Instr) (s : State) (f : State → α) : Option α :=
  match exec c s with
  | .next t => some (f t)
  | .fault _ => none
  | .refused _ => none

/-- A request from the one source of the reset tables, of authority 0. -/
def head : ReqHead := ⟨1, 0, 3, 9⟩

/-- A frame of source 9, bound for drive 21. -/
def driveFrame (src : Byte) : RawFrame := frameOf 21 src 4 [1, 100, 0]

def delivery (level : Option Int) (q : LevelQuality) : WellDelivery := ⟨level, q, .off, .off, 0, false, 0, true⟩

def slot : Slot := ⟨some 1, past, some past, 7, 0, 5, 6, past, 40000, .clear, ⟨false, false, false⟩, false⟩
def withPoint (s : State) (st : SpillState) (x : Option Slot) : State :=
  { s with points := s.points.set .one { s.point .one with spill := st, slot := x, previous := some (3, past) } }

def logged (n : Nat) : LogRecord := ⟨BitVec.ofNat 16 n, 0, true, .stormChange .storm .hold⟩

/-! ## Witnesses: the step, LP -/

theorem wit_StepRunsFrontCommand : { base with pending := [.clockAdvance] }.pending = .clockAdvance :: [] := by decide

theorem wit_IdleStep : base.pending = [] ∧ base.raised = [] ∧ base.powered = true ∧ dark.pending = [] ∧ dark.raised = []
    ∧ dark.powered = false ∧ State.reset.pending = [] ∧ State.reset.raised ≠ [] := by decide

theorem base_running : RunningLaw base where
  owners p := by cases p <;> exact ⟨by decide, by decide, by decide⟩
  lists w p := by cases w <;> cases p <;> decide
  once w := by cases w <;> decide
  limit w := by cases w <;> decide

theorem base_tables : TablesLaw base where
  active id := by rcases id with _ | w | _ <;> first | (cases w <;> rfl) | rfl | trivial
  inactive id := by rcases id with _ | w | _ <;> first | (cases w <;> rfl) | rfl | trivial
  first id c h := by rcases id with _ | w | _ <;> first | (cases w <;> cases h) | cases h
  second id c h := by rcases id with _ | w | _ <;> first | (cases w <;> cases h) | cases h

theorem base_points (o : Point) : SpillLaw (base.point o) := by
  have h : (base.point o).slot = none ∧ (base.point o).spill = .dry ∧ (base.point o).unconfirmed = 0 := by
    cases o <;> decide
  constructor <;> simp [h.1, h.2.1, h.2.2]

/-- The laws every step keeps hold at a state from which a step is taken. -/
theorem wit_EveryStepKeeps : Safe base ∧ step base = .next (idle base) := by
  refine ⟨⟨⟨rfl, by decide, by decide, fun i r h => ?_⟩, ?_, fun o => ?_, base_running, base_tables, by decide⟩, rfl⟩
  · have : base.elr.records = [] := rfl
    simp [this] at h
  · constructor <;> decide
  · exact base_points o

theorem wit_CommandsKeepTheRest : [Instr.surgeNotice .a, .balanceExpiry .a, .pumpGrant .p1, .stopNotice .p1, .rakeGrant .s1,
    .wellStateToOa .a .normal, .holdTimerExpiry, .reportTimerExpiry].map blockOf =
      [.cu, .wmu, .dc, .sb, .sc, .oa, .ssu, .elr] := by decide

theorem wit_SetupAndStoreChangeRarely : exec .clockAdvance base = .next { base with
    mu := { base.mu with clock := 1, clockAt := some 2000 } } := by rfl

theorem wit_ForwardOnlyForwards : forwarding.powered = true ∧ forwarding.mode = .forwardOnly
    ∧ forwarding.lp.forward.length < 8 ∧ forwarding.lp.sending = none ∧ forwarding.lp.forward = []
    ∧ forwarding.lp.control = [] ∧ forwarding.lp.general = [] ∧ forwarding.live = false
    ∧ 8 ≤ { forwarding with lp := { forwarding.lp with
        forward := List.replicate 8 (driveFrame 9) } }.lp.forward.length := by decide

theorem wit_PowerComesAndGoes : dark.powered = false ∧ base.powered = true ∧ base.mu.commit = .none
    ∧ { base with mu := { base.mu with commit := .storing .gates head 7 } }.mu.commit = .storing .gates head 7 := by decide

/-- A write that keeps the first copy, the second being the lower of two that pass, and one that keeps the second, no copy
passing. -/
theorem wit_PowerComesAndGoes_store :
    let copy := fun (g : BitVec 32) => some (makeCopy (.gates blankGates) g)
    let s := { base with
      mu := { base.mu with commit := .storing .gates head 7 }, store := { base.store with gates := ⟨copy 5, copy 4⟩ } }
    s.mu.commit = .storing .gates head 7 ∧ copyPasses (storePair s.store .gates).first = true
      ∧ copyPasses (storePair s.store .gates).second = true ∧ higherGeneration (generationOf (copy 4)) (generationOf (copy 5)) = false
      ∧ copyPasses (storePair base.store .gates).first = false :=
  ⟨rfl, beq_self_eq_true _, beq_self_eq_true _, by decide, rfl⟩

/-- A bad check; an unusable source; a frame of the part's own (strap 62); a broadcast command; a frame that passes on. -/
theorem wit_ArrivalIsDisposed : base.live = true ∧ base.lp.ownAddress ≠ 63
    ∧ goodCheck { driveFrame 9 with check := 0 } = false
    ∧ (goodCheck (driveFrame 63) = true ∧ addressesUnusable (driveFrame 63) = true)
    ∧ (goodCheck (driveFrame 62) = true ∧ addressesUnusable (driveFrame 62) = false
      ∧ rawSource (driveFrame 62) = base.lp.ownAddress)
    ∧ (goodCheck (frameOf 63 9 4 []) = true ∧ addressesUnusable (frameOf 63 9 4 []) = false
      ∧ rawSource (frameOf 63 9 4 []) ≠ base.lp.ownAddress ∧ rawDestination (frameOf 63 9 4 []) = 63
      ∧ frameKind (frameOf 63 9 4 []).kind = .driveCmd)
    ∧ (goodCheck (frameOf 62 9 6 [9, 4]) = true ∧ addressesUnusable (frameOf 62 9 6 [9, 4]) = false
      ∧ rawDestination (frameOf 62 9 6 [9, 4]) = base.lp.ownAddress
      ∧ rawSource (frameOf 62 9 6 [9, 4]) ≠ base.lp.ownAddress)
    ∧ (let f := frameOf 21 9 4 []
       goodCheck f = true ∧ addressesUnusable f = false ∧ rawSource f ≠ base.lp.ownAddress
         ∧ rawDestination f ≠ base.lp.ownAddress ∧ (pumpAtDrive base (rawDestination f)).isSome = true
         ∧ driveCommandOf f.payload = none)
    ∧ goodCheck (frameOf 63 21 5 []) = true ∧ addressesUnusable (frameOf 63 21 5 []) = false
    ∧ rawSource (frameOf 63 21 5 []) ≠ base.lp.ownAddress ∧ rawDestination (frameOf 63 21 5 []) ≠ base.lp.ownAddress
    ∧ frameKind (frameOf 63 21 5 []).kind = .driveStat ∧ (pumpAtDrive base 21).isSome = true := by decide +kernel

/-- The checks of R63 do not refuse source 1 at authority 0. -/
theorem source_passes (s : State) (p : Pump) (act : DriveAction) (h : sourceEntry s 1 = some ⟨1, 0, true, true, true⟩)
    (hl : 0 ≤ s.setup.manualLevel) : ∀ row ∈ (refusalRows s p 1 0 act).take 2, ¬ row.2 := by
  simp only [refusalRows, List.take, List.mem_cons, List.not_mem_nil, or_false]
  rintro row (rfl | rfl)
  · exact fun hn => absurd (hn _ h) (by decide)
  · rintro ⟨e, he, hlt⟩
    rw [h] at he
    cases he
    simp at hlt
    omega

/-- Pump 1 idle under AUTO, its wells out of fallback, with nothing to draw on. -/
def starved : State :=
  withPump { awake with budget := { awake.budget with supply := .none } } .p1
    fun r => { r with state := .off, owner := .auto, interlock := false }

/-- Source 9 has no entry; source 1 has one, and its RUN meets the fallback of reset, a disabled flag, or an empty budget. -/
theorem wit_RefusedDriveDoesNotPass : base.live = true ∧ goodCheck (driveFrame 9) = true
    ∧ addressesUnusable (driveFrame 9) = false ∧ rawSource (driveFrame 9) ≠ base.lp.ownAddress
    ∧ rawDestination (driveFrame 9) ≠ 63 ∧ frameKind (driveFrame 9).kind = .driveCmd
    ∧ pumpAtDrive base (rawDestination (driveFrame 9)) = some .p1
    ∧ driveCommandOf (driveFrame 9).payload = some (.run, 100)
    ∧ (base.pump .p1).state = .float ∧ inFallback base .p1 = true ∧ sourceEntry base 9 = none
    ∧ RefusedFor base .p1 9 0 .run .noPermission ∧ RefusedFor base .p1 1 0 .run .fallback
    ∧ RefusedFor (withPump starved .p1 fun r => { r with disabled := true }) .p1 1 0 .run .locked
    ∧ RefusedFor starved .p1 1 0 .run .budget := by
  refine ⟨by decide, by decide +kernel, by decide, by decide, by decide, by decide, by decide, by decide, by decide,
    by decide, by decide, ⟨[], _, _, rfl, ?_, by simp⟩,
    ⟨_, _, _, rfl, ⟨.inl rfl, .a, rfl, rfl⟩, source_passes base .p1 .run (by decide) (by decide)⟩,
    ⟨(refusalRows _ _ _ _ _).take 3, _, _, rfl, ⟨.inl rfl, .inr (.inr rfl)⟩, ?_⟩,
    ⟨(refusalRows starved .p1 1 0 .run).take 7, _, [], rfl,
      ⟨⟨.inl rfl, by decide, by decide⟩, .inr (.inr (by decide))⟩, ?_⟩⟩
  · intro e he
    rw [show sourceEntry base 9 = none from by decide] at he
    cases he
  · intro row hr
    rw [List.take_add_one, List.mem_append] at hr
    rcases hr with hr | hr
    · exact source_passes _ _ _ (by decide) (by decide) row hr
    · cases (List.mem_singleton.1 hr : row = (.fallback, _))
      rintro ⟨-, w, -, hw⟩
      cases w <;> cases hw
  · intro row hr
    rw [show (7 : Nat) = 2 + 5 from rfl, List.take_add, List.mem_append] at hr
    rcases hr with hr | hr
    · exact source_passes _ _ _ (by decide) (by decide) row hr
    · simp only [refusalRows, List.drop, List.take, List.mem_cons, List.not_mem_nil, or_false] at hr
      rcases hr with rfl | rfl | rfl | rfl | rfl
      · rintro ⟨-, w, -, hw⟩
        cases w <;> cases hw
      · rintro ⟨-, h | ⟨_, h⟩ | h⟩ <;> cases h
      · rintro ⟨-, h⟩
        cases h
      · rintro ⟨-, h⟩
        revert h
        decide
      · rintro ⟨-, w, -, hw⟩
        revert hw
        cases w <;> decide

/-- Source 1 may command drive 21 where pump 1 is idle under AUTO and the supply is the mains. -/
def manned (st : PumpState) : State :=
  withPump { awake with budget := { awake.budget with supply := .mains } } .p1 fun r =>
    { r with state := st, owner := .auto, interlock := false }

theorem manned_unrefused : Unrefused (manned .off) .p1 1 0 .run := by
  intro row hr
  rw [← List.take_append_drop 2 (refusalRows _ _ _ _ _), List.mem_append] at hr
  rcases hr with hr | hr
  · exact source_passes _ _ _ (by decide) (by decide) row hr
  · simp only [refusalRows, List.drop, List.mem_cons, List.not_mem_nil, or_false] at hr
    rcases hr with rfl | rfl | rfl | rfl | rfl | rfl
    · rintro ⟨-, w, -, hw⟩
      cases w <;> cases hw
    · rintro ⟨-, h | ⟨_, h⟩ | h⟩ <;> cases h
    · rintro ⟨-, h⟩
      cases h
    · rintro ⟨-, h⟩
      revert h
      decide
    · rintro ⟨-, w, -, hw⟩
      revert hw
      cases w <;> decide
    · rintro ⟨-, ⟨q, hq, -⟩ | h | h⟩
      · cases hq
      · cases h
      · revert h
        decide

theorem wit_ManualCommandsPass : (manned .off).live = true ∧ goodCheck (driveFrame 1) = true
    ∧ addressesUnusable (driveFrame 1) = false ∧ rawSource (driveFrame 1) ≠ (manned .off).lp.ownAddress
    ∧ rawDestination (driveFrame 1) ≠ (manned .off).lp.ownAddress ∧ rawDestination (driveFrame 1) ≠ 63
    ∧ frameKind (driveFrame 1).kind = .driveCmd ∧ pumpAtDrive (manned .off) 21 = some .p1
    ∧ driveCommandOf (driveFrame 1).payload = some (.run, 100) ∧ driveCommandOf [2, 0, 0] = some (.stop, 0)
    ∧ (∀ st, sourceEntry (manned st) 1 = some ⟨1, 0, true, true, true⟩)
    ∧ rawAuthority (driveFrame 1) = 0 ∧ ((max 0 0 : Nat) : Int) ≤ (manned .off).setup.manualLevel
    ∧ Unrefused (manned .off) .p1 1 0 .run ∧ ((manned .off).pump .p1).state ≠ .float
    ∧ ((manned .running).pump .p1).state = .running ∧ ((manned .startWait).pump .p1).state = .startWait :=
  ⟨by decide, by decide +kernel, by decide, by decide, by decide, by decide, by decide, by decide, by decide, by decide,
    fun _ => rfl, by decide, by decide, manned_unrefused, by decide, by decide, by decide⟩

/-- Pump 1 still in FLOAT, its well no longer in FALLBACK (log entry 64). -/
theorem wit_ManualCommandsPass_float : awake.live = true ∧ pumpAtDrive awake 21 = some .p1
    ∧ sourceEntry awake 1 = some ⟨1, 0, true, true, true⟩ ∧ (awake.pump .p1).state = .float ∧ inFallback awake .p1 = false
    ∧ after (.frameArrival (driveFrame 1)) awake (fun t => (t.lp.forward, (t.pump .p1).state)) = some ([], .float) := by
  decide +kernel

theorem wit_LoopOutChooses : base.powered = true ∧ base.lp.sending = none ∧ base.lp.forward = [] ∧ base.lp.control = []
    ∧ base.lp.general = [] ∧ State.reset.lp.control ≠ [] ∧ State.reset.lp.forward = []
    ∧ (let l := { base.lp with forward := [driveFrame 9], general := [⟨1, 62, 0, .mgmtRsp 0 .ok .none⟩]
                               consecutiveForwards := 4, sending := some (.forwarded (driveFrame 9)) }
       l.sending ≠ none ∧ l.forward = driveFrame 9 :: [] ∧ l.control = [] ∧ l.general ≠ []
         ∧ 4 ≤ l.consecutiveForwards) := by decide +kernel

theorem permitted_head : Permitted base head := ⟨⟨1, 0, true, true, true⟩, by decide, by decide, by decide⟩

theorem wit_SilenceTimer : dark.powered = false ∧ base.live = true ∧ Permitted base head
    ∧ base.mu.commit = .none ∧ goodCheck (driveFrame 9) = true
    ∧ goodCheck { driveFrame 9 with check := 0 } = false ∧ base.lp.silenceAt = some 2000 ∧ 2000 ≤ base.now
    ∧ { base with lp := { base.lp with silenceAt := none } }.lp.silenceAt = none
    ∧ { base with lp := { base.lp with loopSilent := true, forward := [driveFrame 9] } }.lp.forward = driveFrame 9 :: [] :=
  ⟨rfl, rfl, permitted_head, rfl, by decide +kernel, by decide +kernel, rfl, by decide, rfl, rfl⟩

/-! ## CU -/

/-- Node 5 in a state: the channel LA1 as given, its blanking window open or not. -/
def sensing (q : Quality) (rec : Nat) (awaits shut : Bool) : State :=
  { withChan mapped .la1 fun r => { r with
      quality := q, recovery := rec, value := some 7, rejects := 2, awaiting := if awaits then some past else none } with
    blanking := ⟨if shut then some 100000001 else none, none⟩ }

/-- Each reading of one SAMPLE, of the same entry: a plain one at each end of the window and on either side of it, one with
RANGE, and reference ones that pass, fail by one, and fail by RANGE. -/
theorem wit_ReadingsAreTaken : (∀ q n x y, (sensing q n x y).live = true)
    ∧ [[0, 0, 100], [0, 15, 160], [0, 0, 99], [0, 15, 161], [0x80, 8, 0], [0x40, 7, 218], [0x40, 7, 219],
        [0xC0, 7, 208]].map sampleReadings =
      (([⟨0, 100, false, false⟩, ⟨0, 4000, false, false⟩, ⟨0, 99, false, false⟩, ⟨0, 4001, false, false⟩,
        ⟨0, 2048, true, false⟩, ⟨0, 2010, false, true⟩, ⟨0, 2011, false, true⟩, ⟨0, 2000, true, true⟩] : List Reading).map
        fun r => some ([] ++ r :: []))
    ∧ (∀ q n x y, entryAt (sensing q n x y) 5 0 = some (mapEntry 0 .la1 .analog))
    ∧ (mapEntry 0 .la1 .analog).windowLow = 100 ∧ (mapEntry 0 .la1 .analog).windowHigh = 4000
    ∧ (mapEntry 0 .la1 .analog).expected = some 2000 ∧ (mapEntry 0 .la1 .analog).tolerance = some 10
    ∧ blanked (sensing .good 0 false true) .la1 = true ∧ blanked (sensing .good 0 false false) .la1 = false
    ∧ ((sensing .held 0 false false).chan .la1).quality = .held ∧ ((sensing .lost 1 false false).chan .la1).recovery = 1
    ∧ ((sensing .suspect 0 true false).chan .la1).awaiting = some past
    ∧ quantityWell .la1 = some .a :=
  ⟨fun _ _ _ _ => rfl, by decide +kernel, fun _ _ _ _ => rfl, by decide, by decide, by decide, by decide, by decide,
    by decide, by decide, by decide, by decide, by decide⟩

/-- Payloads of no whole reading, of none and of seven; two payloads of one reading that make one of two; a reading of a channel
without an ANALOG entry. -/
theorem wit_ReadingsAreTaken_payload : mapped.live = true ∧ ([0, 8] : List Byte).length % 3 ≠ 0
    ∧ 18 < (List.replicate 21 0 : List Byte).length
    ∧ [[0, 8, 0], [0, 4, 0]].map (fun x : List Byte => x.length % 3) = [0, 0]
    ∧ sampleReadings [1, 8, 0] = some [⟨1, 2048, false, false⟩]
    ∧ entryAt mapped 5 1 = some (mapEntry 1 .rh1 .discrete) := by decide +kernel

/-- Two plain readings of one channel, in one frame, take a HELD or LOST channel to GOOD. -/
theorem wit_ReadingsAreTaken_two :
    sampleReadings [0, 8, 0, 0, 4, 0] = some ([] ++ ⟨0, 2048, false, false⟩ :: [] ++ ⟨0, 1024, false, false⟩ :: [])
    ∧ entryAt (sensing .lost 0 false false) 5 0 = some (mapEntry 0 .la1 .analog)
    ∧ blanked (sensing .lost 0 false false) .la1 = false
    ∧ after (.sampleFrame 5 [0, 8, 0, 0, 4, 0]) (sensing .lost 0 false false) (fun t =>
        ((t.chan .la1).value, (t.chan .la1).quality, t.raised.length)) = some (some 1000, .good, 3) := by decide +kernel

/-- A mapped transducer that is not SUSPECT, and one that the map does not name. -/
theorem wit_ChannelDeadlinesAndNotices_mapped : (entryFor mapped .la1).isSome = true ∧ (mapped.chan .la1).quality ≠ .suspect
    ∧ firstTransducer .a = .la1 ∧ entryFor mapped .la2 = none ∧ secondTransducer .a = .la2 := by decide +kernel

theorem wit_EdgeIsStored : edgeFields [1, 1, 7] = some (1, true, 7#8)
    ∧ entryAt mapped 5 1 = some (mapEntry 1 .rh1 .discrete) ∧ entryAt mapped 5 2 = some (mapEntry 2 .fah .discrete)
    ∧ quantityWell .fah = some .a ∧ homeScreen .rh1 = some .s1 ∧ mapped.live = true
    ∧ (let s := withChan mapped .rh1 fun r => { r with quality := .held, recovery := 1, value := some 1 }
       (s.chan .rh1).quality = .held ∧ (s.chan .rh1).recovery ≠ 0 ∧ (s.chan .rh1).value = some 1) := by decide +kernel

theorem wit_ChannelDeadlinesAndNotices :
    (let s := withChan base .la1 fun r => { r with staleAt := some past, holdAt := some past, quality := .good }
     s.live = true ∧ (s.chan .la1).staleAt = some past ∧ (s.chan .la1).holdAt = some past ∧ past ≤ s.now
       ∧ transducerWell .la1 = some .a ∧ (s.chan .la1).quality = .good)
    ∧ (let s := withWell base .a fun r => { r with episode := .timing past }
       (s.well .a).episode = .timing past ∧ past + 60000 ≤ s.now) := by decide

theorem wit_ReferenceChecks : mapped.live = true ∧ entryFor mapped .la1 = some (mapEntry 0 .la1 .analog)
    ∧ (let s := withChan mapped .la1 fun r => { r with
          referenceAt := some past, referenceRetryAt := some past, awaiting := some past }
       (s.chan .la1).referenceAt = some past ∧ past ≤ s.now ∧ (s.chan .la1).awaiting = some past
         ∧ past + 60000 ≤ s.now ∧ due (s.chan .la1).referenceRetryAt s.now = true)
    ∧ (let s := withChan mapped .la1 fun r => { r with referenceAt := some past }
       due (s.chan .la1).referenceAt s.now = true ∧ (s.chan .la1).awaiting = none) := by decide +kernel

theorem wit_CadenceFrames : mapped.live = true ∧ findNode mapped 5 = some ⟨5, .storm, some past, some past⟩
    ∧ due (some past) mapped.now = true ∧ mapped.lp.control.length + mapped.nodes.length ≤ 8
    ∧ mapped.ssu.state = .dry := by decide +kernel

/-- Two nodes and one free place: node 5 is sent its frame, and node 6 is offered one again after 1 s. -/
theorem wit_CadenceFrames_left :
    let s := { mapped with
      nodes := [⟨5, .storm, none, none⟩, ⟨6, .storm, none, none⟩]
      lp := { mapped.lp with control := List.replicate 7 ⟨1, 62, 0, .cadence .dry none⟩ } }
    s.live = true ∧ (s.nodes.map (·.node)).Nodup ∧ 1 = 8 - s.lp.control.length
      ∧ after (.stationStateToCu .dry) s (fun t =>
          (t.lp.control.length, t.nodes.map (·.recorded), t.nodes.map (·.retryAt), (t.chan .la1).staleAt))
        = some (8, [.dry, .storm], [none, some 100001000], some 100030000) := by decide +kernel

/-! ## WMU -/

/-- An update of a transducer. -/
def upd (v : Int) (q : Quality) (t : Ms) : ChannelUpdate := ⟨some v, q, some t, true⟩

/-- A well with a level-volume table from 500 mm in steps of 250. -/
def tabled : State :=
  { base with tables := { base.tables with levelVolume :=
      ⟨Machine.Banks.valid ⟨500, 250, (List.range 33).map (10000 * ·)⟩, base.tables.levelVolume.b⟩ } }

/-- The level selected from two updates: its value, quality, volume and whether it lies above the table. -/
def selected (s : State) (first second : ChannelUpdate) : Option (Option Int × LevelQuality × Nat × Bool) :=
  after (.levelSelection .la1 first first second) s fun t =>
    ((t.well .a).level, (t.well .a).quality, (t.well .a).volume, (t.well .a).aboveTable)

theorem wit_LevelIsSelected : tabled.live = true ∧ quantityWell .la1 = some .a ∧ quantityWell .fal = some .a
    ∧ firstTransducer .a = .la1 ∧ secondTransducer .a = .la2 ∧ lowFloatOf .a = .fal
    ∧ (tabled.tables.levelVolume.get .a).isEmpty = false ∧ (base.tables.levelVolume.get .a).isEmpty = true := by decide

/-- The least difference that is a disagreement, the ends of the table, and each choice among HELD and LOST. -/
theorem wit_LevelIsSelected_cases :
    [selected tabled (upd 500 .good 5) (upd 600 .good 6), selected tabled (upd 499 .good 5) (upd 398 .good 6),
      selected tabled (upd 8500 .good 5) (upd 1 .held 6), selected tabled (upd 8499 .held 6) (upd 1 .held 5),
      selected tabled (upd 3 .lost 6) (upd 700 .held 5), selected tabled (upd 3 .lost 6) (upd 700 .suspect 5),
      selected base (upd 700 .good 6) (upd 700 .good 5)] =
    [some (some 550, .good, 2000, false), some (some 499, .good, 0, false), some (some 8500, .good, 320000, true),
      some (some 8499, .held, 319960, false), some (some 700, .held, 8000, false), some (none, .lost, 0, false),
      some (some 700, .good, 0, false)] := by decide +kernel

/-- An episode ends with both transducers HELD or LOST; a selection 10,000 s after the last event counts 3 L/s for that time,
and one without a level integrates nothing. -/
theorem wit_LevelIsSelected_event :
    let s := withWell tabled .a fun r => { r with
      level := some 2000, episode := .timing past, integratedAt := some past, flowSet := ⟨1, 2, 0, 0, 0, 0⟩ }
    [after (.levelSelection .la1 (upd 700 .held 6) (upd 700 .held 6) (upd 700 .held 5)) s (fun t => (t.well .a).episode),
        after (.levelSelection .la1 (upd 3 .lost 6) (upd 3 .lost 6) (upd 700 .suspect 5)) s (fun t => (t.well .a).episode)]
      = [some .none, some .none]
    ∧ after (.levelSelection .la1 (upd 700 .good 6) (upd 700 .good 6) (upd 3 .lost 5)) s (fun t =>
        ((t.well .a).pumpedLitres, (t.well .a).remainder, (t.well .a).integratedAt)) = some (30000, 0, some 100000000)
    ∧ after (.levelSelection .la1 (upd 3 .lost 6) (upd 3 .lost 6) (upd 3 .lost 6)) tabled (fun t =>
        ((t.well .a).level, (t.well .a).integratedAt)) = some (none, none) := by decide +kernel

theorem wit_PumpedVolumeIsIntegrated :
    let s := withWell base .a fun r => { r with level := some 2000, integratedAt := some past }
    s.live = true ∧ s.wellOf .p1 = some .a ∧ (s.well .a).level.isSome = true ∧ (s.well .a).integratedAt = some past := by
  decide

/-- Pump 1, VARIABLE, RUNNING by its report: heads in the first interval, at the end of the last, and above it. -/
theorem wit_PumpedVolumeIsIntegrated_flows :
    let s := fun (speed : Nat) (river : Int) => withChan { withPump (withWell base .a fun r => { r with
        level := some 2000, integratedAt := some past }) .p1 fun r => { r with
          state := .running, owner := .auto, lastReport := some { report .running with speed := speed }
          drive := .known { report .running with speed := speed } base.now } with
      tables := { base.tables with pumpCurves := Machine.Banks.valid (List.replicate 54 500) } } .riv fun r =>
        { r with quality := .good, value := some river }
    (s 50 3000).live = true ∧ (s 50 3000).wellOf .p1 = some .a ∧ (s 50 3000).setup.isVariable .p1 = true
      ∧ ((s 50 3000).pump .p1).lastReport = some { report .running with speed := 50 }
      ∧ ((s 50 3000).pump .p1).state = .running ∧ (s 50 3000).tables.pumpCurves.isEmpty = false
      ∧ base.tables.pumpCurves.isEmpty = true
      ∧ [((100 : Nat), (3000 : Int)), (50, 6000), (30, 3440)].map (fun (x, river) =>
          (max river (s x river).setup.dischargeInvert - 2000).toNat * 10000 / (x * x)) =
        [2500, 16000, 27777]
      ∧ (2500 = 2000 * 1 + 500 ∧ 16000 = 2000 * 7 + 2000) ∧ (base.pump .p2).lastReport = none := by decide +kernel

/-- A well whose balance is due: its level GOOD, and established or not. -/
def balanced (est : Bool) : State :=
  { withWell awake .a fun r => { r with
      balanceAt := some past, level := some 2000, quality := .good, established := est, balanceVolume := some 5
      balanceTime := some past } with
    tables := { awake.tables with levelVolume := ⟨Machine.Banks.valid blankLevelVolume, awake.tables.levelVolume.b⟩ } }

theorem wit_BalanceIsComputed : (balanced true).live = true ∧ due ((balanced true).well .a).balanceAt (balanced true).now = true
    ∧ ((balanced true).well .a).level = some 2000 ∧ ((balanced true).well .a).pendingLevelVolume = false
    ∧ ((balanced true).well .a).pendingCurves = false ∧ ((balanced true).tables.levelVolume.get .a).isEmpty = false
    ∧ ((balanced true).well .a).quality = .good ∧ ((balanced true).well .a).established = true
    ∧ ((balanced true).well .a).balanceVolume = some 5 ∧ ((balanced true).well .a).balanceTime = some past
    ∧ ((balanced true).well .a).integratedAt = none ∧ 0 = ((balanced true).well .a).pumpedLitres + 0
    ∧ ((balanced false).well .a).established = false := by decide +kernel

/-- A balance expiry that takes a pending level-volume switch: both volumes on the new table, of 2,000 L a step, and the banks
exchanged. -/
theorem wit_BalanceIsComputed_levelVolume :
    let new : LevelVolume := ⟨500, 250, (List.range 33).map (2000 * ·)⟩
    let s := { withWell (balanced true) .a fun r => { r with
        pendingLevelVolume := true, balanceLevel := some 1500, volume := 7, balanceTime := some (past + 9000000) } with
      tables := { awake.tables with levelVolume := ⟨⟨blankLevelVolume, new, false⟩, awake.tables.levelVolume.b⟩ }
      mu := { awake.mu with commit := .scheduled (.levelVolume .a) head } }
    s.live = true ∧ due (s.well .a).balanceAt s.now = true ∧ (s.well .a).pendingLevelVolume = true
      ∧ s.mu.commit = .scheduled (.levelVolume .a) head ∧ (s.well .a).level = some 2000
      ∧ (s.well .a).quality = .good ∧ (s.well .a).established = true
      ∧ (volumeOn new 2000).1 = 12000 ∧ (volumeOn new 1500).1 = 8000
      ∧ after (.balanceExpiry .a) s (fun t => ((t.well .a).volume, (t.well .a).balanceVolume, (t.well .a).rawInflow,
          (t.well .a).pendingLevelVolume, t.tables.levelVolume.get .a)) =
        some (12000, some 12000, 4, false, ⟨new, new, false⟩) := by decide +kernel

/-- A balance expiry that takes a pending pump-curve switch: the first of two wells notifies DC, and the last also exchanges
the banks. -/
theorem wit_BalanceIsComputed_curves :
    let new := List.replicate 54 500
    let old := List.replicate 54 400
    let s := fun (other : Bool) => { withWell (withWell (balanced true) .a fun r => { r with pendingCurves := true }) .b
        fun r => { r with pendingCurves := other } with
      tables := { (balanced true).tables with pumpCurves := ⟨old, new, false⟩ }
      mu := { awake.mu with commit := .scheduled .pumpCurves head } }
    ∀ other, (s other).live = true ∧ due ((s other).well .a).balanceAt (s other).now = true
      ∧ ((s other).well .a).pendingCurves = true ∧ ((s other).well .a).pendingLevelVolume = false
      ∧ ((s other).well .b).pendingCurves = other ∧ (s other).mu.commit = .scheduled .pumpCurves head
      ∧ after (.balanceExpiry .a) (s other) (fun t => ((t.well .a).pendingCurves, t.raised.head?,
          t.tables.pumpCurves)) =
        some (false, some (.curveSwitchNotice .a), if other then ⟨old, new, false⟩ else ⟨new, new, false⟩) := by decide +kernel

/-! ## DC -/

/-- Pump 1 under AUTO in a state. -/
def pumping (s : State) (st : PumpState) : State :=
  withPump s .p1 fun r => { r with state := st, owner := .auto, interlock := false }

theorem wit_InterlockStopsPumps : awake.live = true ∧ (pumping awake .running).wellOf .p1 = some .a
    ∧ interlockHolds awake.setup .p1 (delivery (some 800) .good) = true
    ∧ interlockHolds awake.setup .p1 (delivery (some 801) .good) = false := by decide

/-- Pump 1, VARIABLE, stays RUNNING at a delivery that leaves its interlock clear, its curve delivering or absent, forcing
or not; with the low float ON it stops. -/
theorem wit_InterlockStopsPumps_running :
    let s := fun (curves : Bool) (forced : Bool) => withPump { (withWell awake .a fun r => { r with
        level := some 2200, quality := .good }) with
      tables := if curves then { awake.tables with pumpCurves := Machine.Banks.valid (List.replicate 54 500) }
        else { awake.tables with pumpCurves := Machine.Banks.valid (List.replicate 54 0) } } .p1 fun r => { r with
          state := .running, owner := .auto, interlock := false, runStart := some past, forcing := forced, applied := 100 }
    (s true true).live = true ∧ (s true true).wellOf .p1 = some .a ∧ (s true true).setup.isVariable .p1 = true
      ∧ [estimate (s true false) .a .p1 100, estimate (s false false) .a .p1 100] = [500, 0]
      ∧ ∀ c fc, after (.wellRecordDeliveryDc .a (delivery (some 2200) .good)) (s c fc) (fun t =>
          ((t.pump .p1).state == .running || (t.pump .p1).state == .stopping, (t.pump .p1).interlock)) = some (true, false)
        ∧ after (.wellRecordDeliveryDc .a { delivery (some 2200) .good with lowFloat := .on }) (s c fc) (fun t =>
          ((t.pump .p1).state, (t.pump .p1).interlock)) = some (.stopping, true) := by decide +kernel

theorem series_rise (s : State) (h : s.setup = Setup.defaults) (w : Well) :
    (∀ k, 1 ≤ k → k ≤ 4 → (s.setup.stopLevels.get w).get k < (s.setup.startLevels.get w).get k)
    ∧ (∀ k, 1 ≤ k → k ≤ 3 → (s.setup.startLevels.get w).get k ≤ (s.setup.startLevels.get w).get (k + 1)
      ∧ (s.setup.stopLevels.get w).get k ≤ (s.setup.stopLevels.get w).get (k + 1)) := by
  rw [h]; constructor <;> intro k h1 h2 <;> interval_cases k <;> cases w <;> decide

def levelled : State := withWell awake .a fun r => { r with level := some 2200, quality := .good }

theorem wit_LevelDemandIsEvaluated : levelled.live = true ∧ levelled.setup = Setup.defaults
    ∧ levelled.ssu.well.get .a ≠ .fallback ∧ (levelled.well .a).quality ≠ .lost ∧ (levelled.well .a).level = some 2200
    ∧ levelled.duty.levelDemand.get .a ≤ 4 ∧ levelled.ssu.state = .dry
    ∧ 2 = ([1, 2, 3, 4].filter fun k => decide ((levelled.setup.startLevels.get .a).get k ≤ 2200)).length := by decide

/-- Well A with its pumps on a curve of 500 L/s. -/
def curved : State :=
  { levelled with tables := { levelled.tables with pumpCurves := Machine.Banks.valid (List.replicate 54 500) }
                  pumps := PerPump.make fun p => { levelled.pump p with
                    state := .off, owner := .auto, interlock := false, staged := 100, drive := .known (report .stopped) past } }

/-- Pump 1, at the head of the list, is selected for a demand of 1, and not for a demand of 0. -/
theorem wit_PumpsAreSelected_chosen : Chosen curved .a 1 .p1 ∧ ¬ Chosen curved .a 0 .p1
    ∧ (curved.pump .p1).owner = .auto ∧ (curved.pump .p1).state = .off ∧ .p1 ∈ curved.duty.rotation.get .a
    ∧ (curved.duty.rotation.get .a).Nodup := by
  refine ⟨⟨[], [.p2, .p3, .p4], _, rfl, by decide, by decide +kernel, rfl, by decide, by decide, fun _ => ?_⟩, ?_,
    by decide, by decide, by decide, by decide⟩
  · decide +kernel
  · rintro ⟨_, _, _, _, _, _, rfl, _, _, h⟩
    have := h rfl
    simp [places] at this

theorem wit_PumpsAreSelected : (levelled.ssu.well.get .a ≠ .fallback
      ∧ (delivery (some 2200) .good).quality ≠ .lost ∧ (delivery (some 2200) .good).level = some 2200)
    ∧ (let s := withPump (withWell awake .a fun r => { r with level := some 900, quality := .good }) .p1 fun r =>
        { r with state := .running, owner := .auto, stopDeferred := true, runStart := some past }
      s.live = true ∧ (s.pump .p1).state = .running ∧ (s.pump .p1).stopDeferred = true
        ∧ past + (s.setup.minRun.get .p1).toNat * 1000 ≤ s.now ∧ s.wellOf .p1 = some .a ∧ .p1 ∈ s.duty.rotation.get .a
        ∧ s.ssu.state = .dry ∧ s.ssu.well.get .a ≠ .fallback ∧ (s.well .a).quality ≠ .lost ∧ (s.well .a).level = some 900
        ∧ 900 ≤ (s.setup.stopLevels.get .a).get 1 ∧ 900 ≤ (s.setup.stopLevels.get .a).get 4
        ∧ 900 < (s.setup.startLevels.get .a).get (s.duty.levelDemand.get .a + 1)
        ∧ 900 < (s.setup.startLevels.get .a).get 1 ∧ s.duty.levelDemand.get .a ≤ 4)
    ∧ (let s := withPump { curved with
          duty := { curved.duty with rotationDue := ⟨true, false⟩ }
          wells := ⟨{ curved.wells.a with quality := .lost }, curved.wells.b⟩ } .p1 fun r => { r with state := .stopping }
      s.live = true ∧ pumpAtDrive s 21 = some .p1 ∧ driveReportOf (payloadOf 0 0 0) = some (report .stopped)
        ∧ (s.pump .p1).state = .stopping ∧ s.wellOf .p1 = some .a ∧ s.ssu.well.get .a ≠ .fallback
        ∧ (s.well .a).quality = .lost ∧ s.duty.rotationDue.get .a = true ∧ .p1 ∈ s.duty.rotation.get .a
        ∧ ∀ q ∈ s.duty.rotation.get .a, q ≠ .p1 → (s.pump q).owner = .auto → (s.pump q).state ≠ .startWait
          ∧ (s.pump q).state ≠ .starting ∧ (s.pump q).state ≠ .running ∧ (s.pump q).state ≠ .stopping) := by decide +kernel

theorem wit_DriveReports : awake.live = true ∧ pumpAtDrive awake 21 = some .p1
    ∧ driveReportOf (payloadOf 2 0 0) = some (report .running) ∧ driveReportOf (payloadOf 0 0 0) = some (report .stopped)
    ∧ driveReportOf (payloadOf 4 0 0) = some (report .localHand)
    ∧ driveReportOf (payloadOf 3 0 4) = some { report .tripped with cause := .moisture }
    ∧ driveReportOf (payloadOf 3 0 1) = some { report .tripped with cause := .overload }
    ∧ ((pumping base .starting).pump .p1).state = .starting ∧ ((pumping base .running).pump .p1).state = .running := by
  decide +kernel

/-- Every state of pump 1 that a trip finds, and the ends of the attempts. -/
theorem wit_DriveReportsInterrupt : (∀ st, ((pumping base st).pump .p1).state = st ∧ (pumping base st).live = true
      ∧ pumpAtDrive (pumping base st) 21 = some .p1)
    ∧ 1 < (base.setup.attemptLimit.get .p1).toNat
    ∧ base.setup.policy.get .p1 = .name .lockout
    ∧ (let s := { base with tables := { base.tables with setup := Machine.Banks.valid { Setup.defaults with
          attemptLimit := Setup.defaults.attemptLimit.set .p1 1, policy := Setup.defaults.policy.set .p1 (.name .skip) } } }
       (s.setup.attemptLimit.get .p1).toNat ≤ 1 ∧ s.setup.policy.get .p1 = .name .skip) := by
  refine ⟨fun st => ⟨rfl, rfl, rfl⟩, by decide, by decide, by decide⟩

theorem wit_Quiet : Quiet base := fun w => .inl (by cases w <;> rfl)

theorem wit_StartsFail :
    let s := withPump (pumping awake .starting) .p1 fun r => { r with startAt := some past, charge := .start }
    s.live = true ∧ (s.pump .p1).state = .starting ∧ due (s.pump .p1).startAt s.now = true
      ∧ (s.pump .p1).charge = .start ∧ 1 = satInc 15 (s.pump .p1).attempts
      ∧ 1 < (s.setup.attemptLimit.get .p1).toNat ∧ s.setup.policy.get .p1 = .name .lockout
      ∧ satInc 15 ({ s.pump .p1 with attempts := 3 } : PumpRecord).attempts = (s.setup.attemptLimit.get .p1).toNat := by
  decide

theorem wit_WaitsAndDeadlinesEnd_waits :
    let s := fun st => withPump base .p1 fun r => { r with state := st, waitEnd := some past }
    (s .backoff).live = true ∧ due ((s .backoff).pump .p1).waitEnd (s .backoff).now = true
      ∧ ((s .backoff).pump .p1).state = .backoff ∧ ((s .resting).pump .p1).state = .resting
      ∧ ((s (.unavailable .skipped)).pump .p1).state = .unavailable .skipped
      ∧ ((s .resting).pump .p1).lockout = false ∧ ((s .resting).pump .p1).disabled = false := by decide

theorem wit_WaitsAndDeadlinesEnd :
    let s := { withPump base .p1 fun r => { r with
        state := .stopping, stopAt := some past, deadHeadAt := some past, runTickAt := some past
        history := [past - 4000000, past] } with
      mu := { base.mu with commit := .scheduled .pumpCurves head } }
    s.live = true ∧ due (s.pump .p1).stopAt s.now = true ∧ (s.pump .p1).state = .stopping
      ∧ (s.pump .p1).stopFailed = false ∧ due (s.pump .p1).deadHeadAt s.now = true
      ∧ (s.pump .p1).runTickAt = some past ∧ past ≤ s.now
      ∧ (s.pump .p1).history = (past - 4000000) :: [past] ∧ past - 4000000 + 3600000 ≤ s.now := by decide

/-- R81: the record names the last reported state also of a drive whose status is UNKNOWN since. -/
theorem wit_WaitsAndDeadlinesEnd_unknown :
    let s := fun (last : Option DriveReport) => withPump base .p1 fun r => { r with
      state := .stopping, stopAt := some past, drive := .unknown, lastReport := last }
    ∀ last ∈ [none, some (report .running)], after (.stopDeadlineExpiry .p1) (s last) (fun t => t.raised) =
      some [.recordSubmission (.stopFailed .p1 (last.map (·.state)))] := by decide +kernel

/-- Pump 1 out of local control or of silence, with an external charge. -/
def away (why : Unavailability) : State :=
  withPump awake .p1 fun r => { r with state := .unavailable why, owner := .auto, charge := .external }

theorem wit_DrivesFallSilentAndReturn :
    (let s := withPump (pumping awake .running) .p1 fun r => { r with statusAt := some past, charge := .running }
     s.live = true ∧ due (s.pump .p1).statusAt s.now = true ∧ (s.pump .p1).state = .running
       ∧ (s.pump .p1).charge = .running)
    ∧ (away .localHand).live = true ∧ pumpAtDrive (away .localHand) 21 = some .p1
    ∧ pumpAtDrive (away .noStatus) 21 = some .p1
    ∧ ((away .localHand).pump .p1).state = .unavailable .localHand
    ∧ ((away .noStatus).pump .p1).state = .unavailable .noStatus ∧ ((away .noStatus).pump .p1).charge = .external
    ∧ (away .noStatus).now = 100000000 ∧ ((away .noStatus).pump .p1).lockout = false
    ∧ ((away .noStatus).pump .p1).disabled = false
    ∧ [0, 2, 3].map (fun b => driveReportOf (payloadOf b 0 0)) =
        [DriveState.stopped, .running, .tripped].map fun d => some (report d) := by decide +kernel

theorem wit_CommandsAreRepeated :
    let s := withPump (pumping awake .running) .p1 fun r => { r with refreshAt := some past, retryAt := some past }
    s.live = true ∧ due (s.pump .p1).refreshAt s.now = true ∧ due (s.pump .p1).retryAt s.now = true
      ∧ (s.pump .p1).state = .running ∧ (s.pump .p1).owner = .auto ∧ (s.pump .p1).interlock = false
      ∧ s.setup.isVariable .p1 = true := by decide

/-- A MANUAL pump that turns in reverse at 55 per cent, interlocked and not; the refresh repeats the manual command. -/
theorem wit_CommandsAreRepeated_manual :
    let s := fun lock => withPump (pumping awake .running) .p1 fun r => { r with
      refreshAt := some past, owner := .manual, manual := some (.reverse, 55), interlock := lock }
    (∀ lock, (s lock).live = true ∧ due ((s lock).pump .p1).refreshAt (s lock).now = true)
      ∧ ((s false).pump .p1).owner = .manual ∧ ((s false).pump .p1).manual = some (.reverse, 55)
      ∧ ((s true).pump .p1).interlock = true
      ∧ after (.refreshExpiry .p1) (s false) (fun t => t.lp.control.map (·.payload))
        = some [.driveCmd .reverse 55 ((s false).pump .p1).count] := by decide +kernel

theorem wit_GrantsAndSheds :
    let s := pumping awake .startWait
    s.live = true ∧ (s.pump .p1).state = .startWait
      ∧ (s.pump .p1).history.length < (s.setup.startsPerHour.get .p1).toNat
      ∧ (s.setup.startsPerHour.get .p1).toNat ≤ [1, 2, 3, 4, 5, 6].length
      ∧ ((pumping awake .running).pump .p1).owner = .auto := by decide

theorem wit_FallbackMovesPumps : base.live = true ∧ base.ssu.well.get .a = .fallback ∧ base.wellOf .p1 = some .a
    ∧ (PerPump.make fun _ => some ExitName.adopted).get .p1 = some .adopted
    ∧ (base.pump .p1).lockout = false ∧ (base.pump .p1).disabled = false
    ∧ (let s := withWell base .a fun r => { r with lowFloat := .on }
       s.live = true ∧ (s.well .a).lowFloat = .on ∧ s.lp.control = [] ∧ (s.setup.pumpsOf .a).length = 4)
    ∧ (let s := withWell base .a fun r => { r with level := some 3000 }
       s.lp.control.length ≤ 1 ∧ (s.setup.pumpsOf .a).length ≤ 4
         ∧ after (.fallbackExitDc .a (PerPump.make fun _ => some ExitName.adopted)) s (fun t => (t.pump .p1).state)
           = some .running)
    ∧ (base.budget.pumps.get .p1).kind = .none ∧ base.budget.queue = [] := by decide +kernel

/-- Pump 1, taken from well A to well B by a switch since well A's notice was sent (log entry 63). -/
def moved : State :=
  let t := { awake.setup with well := awake.setup.well.set .p1 (.name (.well .b)) }
  withPump { awake with tables := { awake.tables with setup := Machine.Banks.valid t } } .p1 fun r => { r with state := .unavailable .noStatus, owner := .auto, charge := .none }

/-- SB charges a pump that the notice names as local and turning, of whatever well it is by then, and DC gives that back. -/
theorem wit_FallbackMovesPumps_moved :
    let names : PerPump (Option ExitName) :=
      PerPump.make fun p => if p = .p1 then some (.localHand true) else none
    moved.live = true ∧ moved.wellOf .p1 = some .b ∧ names.get .p1 = some (.localHand true)
      ∧ (moved.budget.pumps.get .p1).kind = .none ∧ (moved.pump .p1).charge = .none
      ∧ after (.fallbackExitSb .a names) moved (fun t => t.budget.pumps.get .p1)
        = some ⟨.external, (moved.setup.runWeight.get .p1).toNat, false⟩
      ∧ after (.fallbackExitDc .a names) moved (fun t => (t.raised, (t.pump .p1).state))
        = some ([.chargeRelease (.pump .p1)], .unavailable .noStatus) := by decide +kernel

/-- Pump 1 named silent and turning; its drive reported STOPPED, RUNNING or LOCAL behind the exit, or nothing. -/
theorem wit_FallbackMovesPumps_late :
    let names : PerPump (Option ExitName) := PerPump.make fun p => if p = .p1 then some (.silent true) else some .stopped
    let s := fun (d : DriveState) => withPump base .p1 fun r => { r with drive := .known (report d) past }
    (∀ d, (s d).live = true ∧ (s d).wellOf .p1 = some .a ∧ ((s d).pump .p1).drive = .known (report d) past)
      ∧ names.get .p1 = some (.silent true) ∧ (base.pump .p1).drive = .unknown
      ∧ [DriveState.stopped, .running, .localHand].map (fun d => after (.fallbackExitDc .a names) (s d) fun t =>
          ((t.pump .p1).state, (t.pump .p1).charge))
        = [some (.off, .none), some (.stopping, .external), some (.unavailable .localHand, .none)]
      ∧ after (.fallbackExitDc .a names) base (fun t => ((t.pump .p1).state, (t.pump .p1).charge))
        = some (.unavailable .noStatus, .external) := by
  refine ⟨fun _ => ⟨rfl, rfl, rfl⟩, by decide, by decide, by decide +kernel, by decide +kernel⟩

/-- An adopted pump whose well has its low float ON ends interlocked. -/
theorem wit_FallbackMovesPumps_interlock :
    after (.fallbackExitDc .a (PerPump.make fun _ => some ExitName.adopted)) (withWell base .a fun r => { r with
      lowFloat := .on }) (fun t => ((t.pump .p1).interlock, (t.pump .p1).state)) = some (true, .stopping) := by decide +kernel

theorem wit_FallbackMovesPumps_drives : ∀ q, q ≠ .p1 → driveOf base q ≠ driveOf base .p1 := by
  intro q; cases q <;> decide

/-! ## SB -/

def queued : State :=
  { awake with budget := { awake.budget with queue := [⟨.rake .s2, .rake, 4⟩], supply := .none } }

theorem wit_RequestsAreGranted : queued.live = true ∧ standing queued.budget (.rake .s2) = some ⟨.rake .s2, .rake, 4⟩
    ∧ standing queued.budget (.pump .p1) = none := by decide

theorem wit_MessagesChangeTheAccount : queued.live = true
    ∧ (∀ q ∈ queued.budget.queue, q.requester ≠ .pump .p1) ∧ awake.budget.queue = []
    ∧ base.wellOf .p1 = some .a ∧ base.ssu.well.get .a = .fallback
    ∧ (∀ w, awake.wellOf .p1 = some w → awake.ssu.well.get w ≠ .fallback) := by
  refine ⟨rfl, by decide, rfl, rfl, rfl, fun w _ => ?_⟩
  cases w <;> decide

theorem wit_SupplyChanges : awake.live = true ∧ (30 : Int) = awake.setup.supplyMonitor ∧ awake.budget.supply = .unknown
    ∧ capacityOf awake.setup .none < capacity awake ∧ capacity awake < capacityOf awake.setup .mains
    ∧ capacityOf awake.setup .generator = capacity awake := by decide

/-- Two rakes in a cycle, pump 2 starting and pumps 1 and 5 running, with entries of 4, 4, 6, 12 and 12, on the mains. -/
def loaded : State :=
  let auto := fun (st : PumpState) (r : PumpRecord) => { r with state := st, owner := .auto }
  let t := withScreen (withScreen awake .s2 fun r => { r with state := .cycling }) .s3 fun r => { r with state := .jamPause }
  { withPump (withPump (withPump t .p1 (auto .running)) .p5 (auto .running)) .p2 (auto .starting) with
    budget := { awake.budget with
      supply := .mains, reserve := ⟨0, 0⟩, rakes := ⟨.clear, ⟨.start, 4, false⟩, ⟨.running, 4, false⟩⟩
      pumps := ⟨⟨.running, 12, false⟩, ⟨.start, 6, false⟩, .clear, .clear, ⟨.running, 12, false⟩, .clear⟩ } }

/-- R98's order: rakes 3 and 2, the unconfirmed start, and the running pumps from well B; 38 falls to the generator's 24 with
the first three, and nothing is left for no supply. -/
theorem wit_SupplyChanges_falls : loaded.live = true
    ∧ candidates loaded = [.rake .s3, .rake .s2, .pump .p2, .pump .p5, .pump .p1]
    ∧ capacityOf loaded.setup .generator < capacity loaded
    ∧ after (.supplyStat 30 (some .generator)) loaded (·.raised) = some [.rakeShed .s3, .rakeShed .s2, .pumpShed .p2,
        .recordSubmission (.supplyChange .mains .generator 24 38 2 1)]
    ∧ after (.supplyStat 30 (some .none)) loaded (·.raised) = some [.rakeShed .s3, .rakeShed .s2, .pumpShed .p2,
        .pumpShed .p5, .pumpShed .p1, .recordSubmission (.supplyChange .mains .none 0 38 2 3)] := by decide +kernel

/-! ## SC -/

/-- Screen 1 with a GOOD upstream level, in a state; its home switch reads home. -/
def raking (st : RakeState) (ph : Option RakePhase) : State :=
  withScreen (withChan (withChan mapped .su1 fun r => { r with value := some 2350, quality := .good }) .rh1 fun r =>
      { r with value := some 1, quality := .good }) .s1
    fun r => { r with
      state := st, phase := ph, leaveAt := some past, cycleAt := some past, jamAt := some past, intervalAt := some past
      refreshAt := some past, retryAt := some past, charge := .start, differential := 150, differentialGood := true }

theorem wit_DifferentialQueuesRakes : (raking .parked none).live = true
    ∧ (upd 2350 .good past).value = some 2350 ∧ (upd 2350 .good past).quality = .good
    ∧ (let s := withWell (raking .parked none) .a fun r => { r with level := some 2200, quality := .good }
       (s.well (screenWell .s1)).level = some 2200 ∧ (s.well (screenWell .s1)).quality = .good)
    ∧ ((raking .parked none).chan (upstreamOf .s1)).value = some 2350
    ∧ ((raking .parked none).chan (upstreamOf .s1)).quality = .good ∧ 150 = (2350 - 2200 : Int).toNat
    ∧ (delivery (some 2200) .good).level = some 2200 ∧ (delivery (some 2200) .good).quality = .good
    ∧ ((raking .parked none).screen .s1).differentialGood = true
    ∧ ((raking .parked none).screen .s1).state = .parked ∧ ((raking .parked none).screen .s1).localHold = false
    ∧ ((raking .parked none).chan (homeOf .s1)).quality ≠ .lost
    ∧ (entryFor (raking .parked none) (homeOf .s1)).isSome = true
    ∧ ((raking .parked none).screen .s1).differential = 150
    ∧ (raking .parked none).setup.rakeStartDiff.get .s1 ≤ 150 ∧ (upd 1 .held past).quality ≠ .good := by decide +kernel

/-- A well level or an upstream level that is not GOOD keeps the differential of 150, which starts no rake but still moves a
request down to its class and blinds a jammed rake. -/
theorem wit_DifferentialQueuesRakes_held :
    let s := fun (st : RakeState) => withScreen (raking st none) .s1 fun r => { r with
      requestClass := some .criticalRake, differential := if st = .jammed then 5000 else 150 }
    let dry := fun (st : RakeState) => withChan (s st) .su1 fun r => { r with quality := .held }
    (∀ st, (s st).live = true ∧ (dry st).live = true) ∧ ((dry .parked).chan (upstreamOf .s1)).quality ≠ .good
      ∧ (delivery (some 2200) .held).quality ≠ .good ∧ (delivery none .lost).level = none
      ∧ [after (.wellRecordDeliverySc .a (delivery (some 2200) .held)) (s .parked), after (.wellRecordDeliverySc .a
            (delivery (some 2200) .good)) (dry .parked), after (.wellRecordDeliverySc .a (delivery none .lost)) (s .parked)].map
          (fun f => f fun t => ((t.screen .s1).state, (t.screen .s1).differential, (t.screen .s1).differentialGood, t.raised))
        = List.replicate 3 (some (.parked, 150, false, []))
      ∧ (after (.wellRecordDeliverySc .a (delivery (some 2200) .held)) (s .queued) fun t => (t.screen .s1).requestClass)
        = some (some .rake)
      ∧ (after (.wellRecordDeliverySc .a (delivery (some 2200) .held)) (s .jammed) fun t => (t.screen .s1).blinded)
        = some true := by
  refine ⟨fun st => ⟨rfl, rfl⟩, ?_⟩
  decide +kernel

/-- Triggers that are passed over: the local hold, a LOST home quantity, and one that the map does not name. -/
theorem wit_DifferentialQueuesRakes_passed :
    let held := withScreen (raking .parked none) .s1 fun r => { r with localHold := true }
    let lost := withChan (raking .parked none) .rh1 fun r => { r with quality := .lost }
    let unmapped := { raking .parked none with tables := { mapped.tables with sampleMap := awake.tables.sampleMap } }
    [held, lost, unmapped].all (fun s => s.live && (s.screen .s1).state == .parked
        && after (.homeQualityNotice .s1 (upd 1 .good past)) s (fun t => ((t.screen .s1).state, t.raised)) == some (.parked, [])
        && after (.intervalTimerExpiry .s1) s (fun t => ((t.screen .s1).state, t.raised)) == some (.parked, [])) = true
      ∧ (held.screen .s1).localHold = true ∧ (lost.chan (homeOf .s1)).quality = .lost
      ∧ entryFor unmapped (homeOf .s1) = none := by decide +kernel

theorem wit_RakeCycles : (raking .queued none).live = true ∧ ((raking .queued none).screen .s1).state = .queued
    ∧ ((raking .cycling (some .leaving)).screen .s1).phase = some .leaving
    ∧ ((raking .cycling (some .returning)).screen .s1).phase = some .returning := by decide

/-- A captured cycle of 100 s, or of 60 s, against a baseline of 60 s; the eighth cycle of the baseline; a cycle not captured. -/
theorem wit_RakeCycles_statistics :
    let s := fun (n : Nat) (b : Option Ms) (c : Option Ms) => withScreen (raking .cycling (some .returning)) .s1 fun r =>
      { r with captureStart := c, baseline := b, baselineCount := n, slowRun := 2, consecutive := 7 }
    (∀ n b c, (s n b c).live = true ∧ ((s n b c).screen .s1).state = .cycling
      ∧ ((s n b c).screen .s1).phase = some .returning ∧ ((s n b c).screen .s1).captureStart = c
      ∧ ((s n b c).screen .s1).baseline = b ∧ ((s n b c).screen .s1).baselineCount = n
      ∧ ((s n b c).screen .s1).slowRun = 2)
    ∧ 5 * 60000 < 4 * 100000 ∧ ¬ 5 * 60000 < 4 * 60000 ∧ 3 = satInc 3 2 ∧ 100000 = past + 100000 - past
    ∧ (raking .cycling (some .returning)).setup.stopDiff.get .s1 ≤ 150 ∧ satInc 8 6 < 8 ∧ ¬ satInc 8 7 < 8 := by
  refine ⟨fun _ _ _ => ⟨rfl, rfl, rfl, rfl, rfl, rfl, rfl⟩, ?_⟩
  decide

theorem wit_JamsReverseRakes :
    due ((raking .cycling (some .leaving)).screen .s1).leaveAt (raking .cycling (some .leaving)).now = true
    ∧ due ((raking .cycling (some .returning)).screen .s1).cycleAt (raking .cycling (some .returning)).now = true
    ∧ ((raking .jamReverse none).screen .s1).state = .jamReverse
    ∧ due ((raking .jamReverse none).screen .s1).jamAt (raking .jamReverse none).now = true
    ∧ ((raking .jamPause none).screen .s1).state = .jamPause
    ∧ 1 = satInc 8 ((raking .cycling none).screen .s1).jams := by decide

/-- The drive of rake 1 trips by OVERLOAD, in a cycle and in a reverse; a reverse ends at home; a rake leaves home parked. -/
theorem wit_JamsReverseRakes_edges : screenAtDrive awake 27 = some .s1
    ∧ driveReportOf (payloadOf 3 0 1) = some { report .tripped with cause := .overload }
    ∧ after (.rakeDriveStat 27 (payloadOf 3 0 1)) (raking .cycling (some .returning)) (fun t =>
        ((t.screen .s1).state, (t.screen .s1).jams, (t.screen .s1).lastJam)) = some (.jamReverse, 1, .overload)
    ∧ after (.rakeDriveStat 27 (payloadOf 3 0 1)) (raking .jamReverse none) (fun t =>
        ((t.screen .s1).state, (t.screen .s1).jams)) = some (.jamPause, 0)
    ∧ after (.homeOnEdge .s1 past) (raking .jamReverse none) (fun t => (t.screen .s1).state) = some .jamPause
    ∧ after (.homeOffEdge .s1 past) (raking .parked none) (fun t => ((t.screen .s1).state, t.raised))
        = some (.parked, [.recordSubmission (.uncommandedMotion .s1)])
    ∧ after (.homeOffEdge .s1 past) (raking .cycling (some .returning)) (fun t =>
        ((t.screen .s1).charge, (t.screen .s1).captureStart)) = some (.running, none) := by decide +kernel

theorem wit_RakeReportsAndTimers : screenAtDrive awake 27 = some .s1
    ∧ driveReportOf (payloadOf 2 0 0) = some (report .running)
    ∧ ((raking .cycling none).screen .s1).charge = .start
    ∧ due ((raking .parked none).screen .s1).intervalAt (raking .parked none).now = true
    ∧ due ((raking .parked none).screen .s1).refreshAt (raking .parked none).now = true
    ∧ due ((raking .parked none).screen .s1).retryAt (raking .parked none).now = true
    ∧ base.hourAt = some 3600000 ∧ 3600000 ≤ base.now := by decide +kernel

/-! ## OA and SSU -/

/-- A sample stored 60 s after the previous one, and a level above the dead band of point 1 or at it. -/
def sampled (level : Int) : ChannelUpdate := ⟨some level, .good, some (past + 60000), true⟩

theorem wit_SpillStatesFollowSamples : ∀ st x, (withPoint awake st x).live = true
    ∧ ((withPoint awake st x).point .one).previous = some (3, (past + 60000) - 60000)
    ∧ ((withPoint awake st x).point .one).spill = st ∧ ((withPoint awake st x).point .one).slot = x
    ∧ weirScheduled (withPoint awake st x) = false ∧ (withPoint awake st x).tables.weir.isEmpty = true
    ∧ (withPoint awake st x).setup.deadBand.get .one < 4906 - (withPoint awake st x).setup.crest.get .one
    ∧ ¬ (withPoint awake st x).setup.deadBand.get .one < 4905 - (withPoint awake st x).setup.crest.get .one := by
  intro st x
  refine ⟨rfl, rfl, rfl, rfl, rfl, rfl, ?_, ?_⟩
  · show (5 : Int) < 4906 - 4900
    decide
  · show ¬ (5 : Int) < 4905 - 4900
    decide

theorem wit_LitresAreAccounted : (withPoint awake .closing (some slot)).live = true
    ∧ ((withPoint awake .closing (some slot)).point .one).spill ≠ .dry := by decide

theorem wit_CausesAreKept : (withPoint awake .open_ (some slot)).live = true ∧ ((withPoint awake .open_ (some slot)).point (pointOfWell .a)).slot = some slot := by decide

theorem wit_StormComesAndGoes : awake.live = true ∧ awake.ssu.state = .dry ∧ awake.ssu.tideLock = false
    ∧ (delivery (some 3400) .good).quality ≠ .lost ∧ awake.setup.stormLevel.get .a ≤ 3400
    ∧ (upd 7500 .held past).value = some awake.setup.tideLock ∧ awake.setup.tideLock - 100 = 7400
    ∧ (let s := { awake with ssu := { awake.ssu with state := .storm } }
       s.ssu.state = .storm ∧ s.ssu.forced = false ∧ s.ssu.spillSeen.get .two = .dry ∧ (s.well .a).level = none
         ∧ (s.well .b).level = none ∧ ((s.well .a).smoothedInflow : Int) < s.setup.stormInflow.get .a
         ∧ ((s.well .b).smoothedInflow : Int) < s.setup.stormInflow.get .b)
    ∧ (let s := { awake with ssu := { awake.ssu with state := .storm, holdAt := some past } }
       s.live = true ∧ s.ssu.holdAt = some past ∧ past ≤ s.now ∧ s.ssu.state = .storm) := by decide

/-- In STORM with the hold timer running: a level and an inflow at their limits and a tide lock that comes stop it; the tide
lock that goes, a spill that ends and a delivery below the limits leave it running. -/
theorem wit_StormComesAndGoes_hold :
    let s := { awake with ssu := { awake.ssu with state := .storm, holdAt := some 100000001 } }
    let locked := { s with ssu := { s.ssu with tideLock := true } }
    let level := s.setup.stormLevel.get .a
    let flow : Nat := (s.setup.stormInflow.get .a).toNat
    let d := fun (x : Int) (q : Nat) => { delivery (some x) .good with smoothedInflow := q }
    s.setup.stormInflow.get .a = (flow : Int) ∧ 0 < flow ∧ s.ssu.forced = false ∧ (∀ w, (s.well w).level = none)
      ∧ [after (.wellRecordDeliverySsu .a (d level 0)) s (·.ssu.holdAt),
          after (.wellRecordDeliverySsu .a (d (level - 1) flow)) s (·.ssu.holdAt),
          after (.rivUpdateSsu (upd 7500 .good past)) s (·.ssu.holdAt)] = [some none, some none, some none]
      ∧ [after (.wellRecordDeliverySsu .a (d (level - 1) (flow - 1))) s (·.ssu.holdAt),
          after (.spillStateDelivery .one .dry) s (·.ssu.holdAt),
          after (.rivUpdateSsu (upd 7399 .good past)) locked (·.ssu.holdAt)]
        = [some (some 100000001), some (some 100000001), some (some 100000001)] := by
  refine ⟨by decide, by decide, by decide, fun w => by cases w <;> rfl, by decide +kernel, by decide +kernel⟩

/-- Well A in FALLBACK with its recovery timer or its wait due; the drives known. -/
def recovering : State :=
  { base with
    pumps := PerPump.make fun p => { base.pump p with drive := .known (report .running) past }
    ssu := { base.ssu with recoveryAt := ⟨some past, none⟩, statusWait := ⟨some past, none⟩ } }

theorem wit_FallbackComesAndGoes : awake.live = true ∧ awake.ssu.well.get .a ≠ .fallback
    ∧ (delivery none .lost).quality = .lost ∧ recovering.ssu.well.get .a = .fallback
    ∧ due (recovering.ssu.recoveryAt.get .a) recovering.now = true
    ∧ due (recovering.ssu.statusWait.get .a) recovering.now = true
    ∧ (recovering.ssu.statusWait.get .a).isSome = true ∧ recovering.wellOf .p1 = some .a
    ∧ (base.wellOf .p1 = some .a ∧ (base.pump .p1).drive = .unknown) := by decide

/-- A level that meets the conditions of R145 and one that does not; a silent pump whose last report had it running. -/
theorem wit_FallbackComesAndGoes_level :
    let s := { tabled with
      tables := { tabled.tables with pumpCurves := Machine.Banks.valid (List.replicate 54 500) }
      pumps := tabled.pumps.set .p1 { tabled.pump .p1 with lastReport := some (report .running) } }
    s.live = true ∧ s.ssu.well.get .a = .fallback ∧ LevelMet s .a .good (some 2000) ∧ ¬ LevelMet s .a .held (some 2000)
      ∧ s.ssu.recoveryAt.get .a = none ∧ s.ssu.statusWait.get .a = none
      ∧ (s.pump .p1).drive = .unknown ∧ (s.pump .p1).lastReport = some (report .running)
      ∧ (s.pump .p2).lastReport = none := by
  refine ⟨rfl, rfl, ⟨rfl, rfl, rfl, .inl rfl⟩, fun h => (by cases h.1), rfl, rfl, rfl, rfl, rfl⟩

theorem wit_FallbackComesAndGoes_known : ∀ q, recovering.wellOf q = some .a → (recovering.pump q).drive ≠ .unknown := by
  intro q _; cases q <;> decide

/-! ## ELR -/

/-- A log of three records, two of them sent. -/
def logging : State :=
  { awake with elr := { awake.elr with
      records := [logged 0, logged 1, logged 2], pagesUsed := pagesOf [logged 0, logged 1, logged 2], sequence := 3
      lastSent := some 1, nextToSend := some 2, reportAt := some past, sendRetryAt := some past, statusAt := some past
      partRetryAt := some past, progress := some 4 } }

theorem wit_SubmissionsAreStored : awake.live = true ∧ awake.elr.lostOverflow = 0 ∧ awake.elr.lostAlarm = 0
    ∧ awake.elr.lostNotice = 0 ∧ awake.elr.lostLost = 0
    ∧ awake.elr.pagesUsed + (logged 0).body.pages ≤ 480
    ∧ (let s := { awake with elr := { awake.elr with lostAlarm := 1 } }
       0 < s.elr.lostAlarm ∧ s.elr.pagesUsed + 2 + (logged 0).body.pages ≤ 480 ∧ s.elr.pagesUsed + 2 ≤ 480) := by decide

/-- A log of so many pages, with so many lost ALARM records. -/
def crowded (used lost : Nat) : State := { awake with elr := { awake.elr with pagesUsed := used, lostAlarm := lost } }

/-- The pages used and the lost counts after a submission. -/
def submitted (body : RecordBody) (used lost : Nat) : Option (List Nat) :=
  after (.recordSubmission body) (crowded used lost) fun t =>
    [t.elr.pagesUsed, t.elr.lostNotice, t.elr.lostOverflow, t.elr.lostAlarm, t.elr.lostLost]

def opening : RecordBody := .overflowOpen .one 1 0 0 0 0 ⟨false, false, false, false, false, false, false⟩

/-- The page limits of R151 to R154: the last NOTICE and the last OVERFLOW record that fit, the first of each that do not, and
both with a lost count, with and without room for its LOST record. -/
theorem wit_SubmissionsAreStored_limits : (∀ used lost, (crowded used lost).live = true
      ∧ (crowded used lost).elr.pagesUsed = used ∧ (crowded used lost).elr.lostAlarm = lost) ∧ opening.cls = .overflow
    ∧ [(478, 0), (479, 0), (476, 1), (478, 1), (479, 1)].map (fun x => submitted (.uncommandedMotion .s1) x.1 x.2) =
      [some [480, 0, 0, 0, 0], some [479, 1, 0, 0, 0], some [480, 0, 0, 0, 0], some [480, 1, 0, 0, 0],
        some [479, 1, 0, 1, 1]]
    ∧ [(509, 0), (510, 0), (478, 1), (509, 1), (510, 1)].map (fun x => submitted opening x.1 x.2) =
      [some [512, 0, 0, 0, 0], some [510, 0, 1, 0, 0], some [483, 0, 0, 0, 0], some [512, 0, 0, 1, 1],
        some [510, 0, 1, 1, 1]] :=
  ⟨fun _ _ => ⟨rfl, rfl, rfl⟩, rfl, by decide +kernel, by decide +kernel⟩

theorem logging_law : LogLaw logging.elr := by
  refine ⟨rfl, by decide, by decide, fun i r h => ?_⟩
  have e : logging.elr.records = [logged 0, logged 1, logged 2] := rfl
  rw [e] at h ⊢
  match i with
  | 0 => injection h with h; subst h; decide
  | 1 => injection h with h; subst h; decide
  | 2 => injection h with h; subst h; decide
  | n + 3 => simp at h

/-- The number last sent, one further on, and one before the oldest. -/
theorem wit_AcknowledgementsRemove : logging.live = true ∧ LogLaw logging.elr
    ∧ sourceEntry logging 1 = some ⟨1, 0, true, true, true⟩ ∧ sourceEntry logging 9 = none
    ∧ logging.elr.records.head? = some (logged 0) ∧ logging.elr.records[1]? = some (logged 1)
    ∧ logging.elr.lastSent = some (logged 1).sequence
    ∧ (ackSequence [0, 1] = some 1 ∧ ((1 : BitVec 16) - (logged 0).sequence).toNat = 1)
    ∧ (ackSequence [0, 2] = some 2 ∧ ((2 : BitVec 16) - (logged 0).sequence).toNat = 2)
    ∧ (ackSequence [255, 255] = some 0xFFFF ∧ 32768 ≤ ((0xFFFF : BitVec 16) - (logged 0).sequence).toNat)
    ∧ ackSequence [0, 1, 0] = none :=
  ⟨rfl, logging_law, by decide, by decide, by decide, by decide, by decide, by decide, by decide, by decide, by decide⟩

theorem wit_ReportsAndRounds : logging.live = true ∧ due logging.elr.reportAt logging.now = true
    ∧ logging.elr.records = logged 0 :: [logged 1, logged 2] ∧ due logging.elr.sendRetryAt logging.now = true
    ∧ unsentOf logging.elr = logged 2 :: [] ∧ (windowOf logging.elr).length < 4
    ∧ due logging.elr.statusAt logging.now = true ∧ logging.lp.general.length + 4 ≤ 8
    ∧ due logging.elr.partRetryAt logging.now = true ∧ logging.elr.progress = some 4 := by decide

/-- Two free places for a round: parts 3 and 4 wait. One free place for the waiting parts 2 to 4, and eight for part 4. -/
theorem wit_ReportsAndRounds_waits :
    let s := fun (n part : Nat) => { logging with
      lp := { logging.lp with general := List.replicate n ⟨1, 62, 0, .mgmtRsp 0 .ok .none⟩ }
      elr := { logging.elr with progress := some part } }
    (∀ n part, (s n part).live = true ∧ due (s n part).elr.partRetryAt (s n part).now = true
        ∧ (s n part).elr.progress = some part ∧ due (s n part).elr.statusAt (s n part).now = true)
      ∧ 8 - (s 6 1).lp.general.length = 2
      ∧ [after .statusTimerExpiry (s 6 1) (fun t => (t.lp.general.length, t.elr.progress, t.elr.partRetryAt)),
          after .statusPartRetry (s 7 2) (fun t => (t.lp.general.length, t.elr.progress, t.elr.partRetryAt)),
          after .statusPartRetry (s 0 4) (fun t => (t.lp.general.length, t.elr.progress, t.elr.partRetryAt))]
        = [some (8, some 3, some 100001000), some (8, some 3, some 100001000), some (1, none, none)] := by
  refine ⟨fun _ _ => ⟨rfl, rfl, rfl, rfl⟩, by decide, by decide +kernel⟩

/-! ## MU -/

theorem wit_TablesAreWrittenAndRead : base.live = true ∧ TablesLaw base ∧ Permitted base head
    ∧ writeForm ⟨.pumpCurves, .main, 53, .up, 1, [.flow 7]⟩ = true ∧ commitHolds base .pumpCurves = false
    ∧ entriesInside .pumpCurves .main .up 53 2 = 1 ∧ entriesInside .pumpCurves .main .up 54 1 = 0
    ∧ entriesInside .pumpCurves .main .down 1 3 = 2
    ∧ commitHolds { base with mu := { base.mu with commit := .scheduled .pumpCurves head } } .pumpCurves = true
    ∧ readForm ⟨.stationSetup, .active, .main, 174, .up, 11⟩ = true
    ∧ sourceEntry base 1 = some ⟨1, 0, true, true, true⟩ :=
  ⟨rfl, base_tables, permitted_head, by decide, by decide, by decide +kernel, by decide +kernel, by decide +kernel, by decide,
    by decide, by decide⟩

/-- With a Station Setup waiting: pump 1 leaves the station, pump 2 goes to well B, pump 3 gets another drive. -/
def nextSetup : Setup :=
  { Setup.defaults with
    well := ⟨.name .notFitted, .name (.well .b), .name (.well .a), .name (.well .a), .name (.well .b), .name (.well .b)⟩
    drive := ⟨21, 22, 33, 24, 25, 26⟩ }

def switching (s : State) : State :=
  { s with tables := { s.tables with setup := { s.tables.setup with inactive := nextSetup } } }

/-- Pump 1 runs, where the new setup takes it from its well; or no pump does. -/
theorem wit_CommitsSwitchAndStore : base.live = true ∧ Permitted base head ∧ base.mu.commit = .none
    ∧ failing base.tables .sources = none ∧ failing base.tables (.levelVolume .a) ≠ none
    ∧ failing base.tables .pumpCurves = none ∧ failing base.tables .weir ≠ none
    ∧ failing { base.tables with weir := { base.tables.weir with inactive := ⟨⟨50, 50⟩, List.replicate 34 7⟩ } } .weir = none
    ∧ failing (switching base).tables .stationSetup = none
    ∧ (switching base).tables.setup.inactive.well.get .p1 ≠ base.setup.well.get .p1
    ∧ ((pumping base .running).pump .p1).state = .running ∧ (base.pump .p1).state = .float
    ∧ entryFor base (pointQuantity .one) = none
    ∧ (let s := { base with mu := { base.mu with commit := .scheduled .weir head }
                            points := { base.points with one := { base.points.one with pendingSwitch := true } } }
       s.mu.commit = .scheduled .weir head ∧ (s.point .one).pendingSwitch = true ∧ (s.point .two).pendingSwitch = false)
    ∧ { base with mu := { base.mu with commit := .storing .gates head 7 } }.mu.commit = .storing .gates head 7 :=
  ⟨rfl, permitted_head, rfl, by decide +kernel, by decide +kernel, by decide +kernel, by decide +kernel, by decide +kernel,
    by decide +kernel, by decide, by decide, by decide, by decide, by decide, rfl⟩

theorem wit_TablesAreValidated : base.tables.sources.inactive.length ≤ 16 ∧ failing base.tables .sources = none
    ∧ failing { base.tables with setup := { base.tables.setup with inactive :=
        { Setup.defaults with drive := ⟨21, 21, 23, 24, 25, 26⟩ } } } .stationSetup ≠ none := by decide +kernel

/-- A map to be switched to: LA1 goes to another channel, RH1 stays, FAH leaves and SU1 comes at a new node. -/
def nextMap : SampleMap :=
  [some (mapEntry 1 .rh1 .discrete), some (mapEntry 3 .la1 .analog), some { mapEntry 0 .su1 .analog with node := 6 }]

theorem wit_SwitchesAreTaken : base.live = true ∧ Permitted base head ∧ base.mu.commit = .none
    ∧ failing { mapped.tables with sampleMap := { mapped.tables.sampleMap with
        inactive := [some { mapEntry 0 .la1 .analog with node := 6 }] } } .sampleMap = none
    ∧ failing (switching base).tables .stationSetup = none ∧ setupConflict (switching base) = none
    ∧ nextSetup.wellOf .p1 = none ∧ base.wellOf .p1 = some .a ∧ nextSetup.wellOf .p2 = some .b
    ∧ base.wellOf .p2 = some .a ∧ nextSetup.wellOf .p3 = base.wellOf .p3
    ∧ nextSetup.drive.get .p3 ≠ base.setup.drive.get .p3
    ∧ base.ssu.well.get .b = .fallback ∧ awake.ssu.well.get .b ≠ .fallback ∧ (awake.pump .p2).state = .float
    ∧ setupConflict (switching awake) = none ∧ awake.duty.rotationDue.get .a = false :=
  ⟨rfl, permitted_head, rfl, by decide +kernel, by decide +kernel, by decide +kernel, by decide, by decide, by decide,
    by decide, by decide, by decide, by decide, by decide, by decide, by decide +kernel, by decide⟩

/-- The setup in force with some values of its own, waiting for its commit. -/
def retuning (s : State) (f : Setup → Setup) : State :=
  { s with tables := { s.tables with setup := { s.tables.setup with inactive := f s.setup } } }

/-- With well A at max running 1, its pumps 1 and 2 running, the level at 3,500 mm and the supply the mains. -/
def lowered : State :=
  let run := fun (r : PumpRecord) => { r with state := .running, owner := .auto, interlock := false, charge := .running }
  retuning { withPump (withPump (withWell awake .a fun r => { r with level := some 3500, quality := .good }) .p1 run) .p2 run with
      budget := { awake.budget with supply := .mains } } fun t =>
    { t with maxRunning := t.maxRunning.set .a 1, kind := t.kind.set .p3 (.name .variable), mainsCapacity := t.mainsCapacity - 1 }

theorem lowered_running : RunningLaw lowered where
  owners p := by cases p <;> exact ⟨by decide, by decide, by decide⟩
  lists w p := by cases w <;> cases p <;> decide
  once w := by cases w <;> decide
  limit w := by cases w <;> decide

/-- A switch that lowers max running and the capacity and makes pump 3 VARIABLE, in a well that is not in fallback; a storm
found, and none. A well in fallback with its level conditions met: `wit_FallbackComesAndGoes_level`. -/
theorem wit_SwitchesAreTaken_setup : lowered.live = true ∧ lowered.mu.commit = .none ∧ RunningLaw lowered
    ∧ failing lowered.tables .stationSetup = none ∧ setupConflict lowered = none
    ∧ (let new := lowered.tables.setup.inactive
       new.well = lowered.setup.well ∧ new.drive = lowered.setup.drive
         ∧ new.maxRunning.get .a < lowered.setup.maxRunning.get .a
         ∧ commandedRunning lowered .a - (new.maxRunning.get .a).toNat = 1
         ∧ (lowered.duty.rotation.get .a).reverse.filter (fun p => (lowered.pump p).owner == .auto
             && (lowered.pump p).state == .running) = [.p2, .p1]
         ∧ new.kind.get .p3 ≠ lowered.setup.kind.get .p3 ∧ new.kind.get .p2 = lowered.setup.kind.get .p2
         ∧ new.wellOf .p2 = some .a ∧ (lowered.well .a).level = some 3500
         ∧ capacityOf new .mains < capacity lowered)
    ∧ StormFound lowered ∧ ¬ StormFound awake := by
  refine ⟨rfl, rfl, lowered_running, by decide +kernel, by decide +kernel, by decide +kernel, .inr (.inr (.inr (.inl ⟨.a, 3500, by decide⟩))),
    ?_⟩
  rintro (h | h | ⟨o, h⟩ | ⟨w, level, -, h, -⟩ | ⟨w, h⟩)
  · cases h
  · cases h
  · cases o <;> exact h rfl
  · cases w <;> cases h
  · cases w <;> revert h <;> decide

/-- The same where no evaluation can follow: the level stands, its quality LOST. -/
theorem wit_SwitchesAreTaken_quiet :
    let s := { lowered with wells := ⟨{ lowered.wells.a with quality := .lost }, { lowered.wells.b with quality := .lost }⟩ }
    Quiet s ∧ (s.well .a).lowFloat ≠ .on ∧ (s.well .a).level = some 3500
      ∧ s.tables.setup.inactive.dryLevel.get .p2 < 3500 := by
  refine ⟨fun w => .inr (by cases w <;> rfl), by decide, rfl, by decide⟩

theorem wit_RequestsAreCheckedAndAnswered : base.live = true ∧ sourceEntry base 9 = none
    ∧ sourceEntry base head.source = some ⟨1, 0, true, true, true⟩
    ∧ (let s := { base with tables := { base.tables with sources := Machine.Banks.valid [some ⟨1, 0, false, true, true⟩] } }
       sourceEntry s head.source = some ⟨1, 0, false, true, true⟩)
    ∧ writeForm ⟨.pumpCurves, .main, 53, .up, 2, [.flow 7]⟩ = false ∧ 31 < 32 ∧ 3 < 4
    ∧ base.mu.lockLevel < max { head with authority := 1 }.authority 0
    ∧ 0 < partsOf (imageOf base .loop) ∧ head.authority = 0 :=
  ⟨rfl, by decide, by decide, by decide, by decide, by decide, by decide, by decide, Nat.succ_pos _, rfl⟩

/-- SET_LOCK_LEVEL at authority 0 and above it. -/
theorem wit_RequestsAreCheckedAndAnswered_lock :
    [after (.setLockLevel head (some 3)) base id, after (.setLockLevel { head with authority := 1 } (some 3)) base id]
      = [some (answered { base with mu := { base.mu with lockLevel := 3 } } head .ok .none),
        some (answered base { head with authority := 1 } .denied .none)] := by decide +kernel

theorem wit_ClockAndCounters : dark.powered = false ∧ base.live = true ∧ Permitted base head
    ∧ base.mu.commit = .none ∧ base.mu.clockAt = some 1000 ∧ 1000 ≤ base.now :=
  ⟨rfl, rfl, permitted_head, rfl, rfl, by decide⟩

/-- Gate 0 holds an entry, in some state. -/
def gated (s : State) (g : GateEntry) : State :=
  { s with tables := { s.tables with gates := Machine.Banks.valid [some g] } }

def gate (a : GateAction) (t : GateTarget) : GateEntry := ⟨.name a, t, 3, .name true, none⟩

/-- A precondition on LA1, LOST at reset. -/
def pre : Precondition := ⟨.name .la1, .name .above, 100⟩

theorem unmet : ¬ PreconditionMet base (some pre) := by
  intro h
  obtain ⟨q, c, v, hq, -, hg, -, -⟩ := h pre rfl
  cases hq
  revert hg
  decide

theorem met : PreconditionMet (withChan base .la1 fun r => { r with value := some 101, quality := .good }) (some pre) := by
  intro x h
  cases h
  exact ⟨.la1, .above, 101, rfl, rfl, rfl, rfl, by show (100 : Int) < 101; decide⟩

theorem wit_GatesAct : base.live = true ∧ sourceEntry base head.source = some ⟨1, 0, true, true, true⟩
    ∧ gateAt base 0 = none
    ∧ (∀ a t, gateAt (gated base (gate a t)) 0 = some (gate a t)) ∧ max head.authority 0 ≤ 3
    ∧ ¬ PreconditionMet base (some pre) ∧ PreconditionMet base none
    ∧ ((pumping awake .running).pump .p1).disabled = false ∧ 2 ≤ (base.duty.rotation.get .a).length
    ∧ ((raking .outOfService none).screen .s1).state = .outOfService
    ∧ ((raking .parked none).screen .s1).localHold = false
    ∧ (base.chan .la1).quality ≠ .good ∧ entryFor mapped .la1 = some (mapEntry 0 .la1 .analog)
    ∧ (mapEntry 0 .la1 .analog).expected ≠ none ∧ (mapped.chan .la1).awaiting = none
    ∧ base.ssu.forced = false ∧ base.ssu.state = .dry :=
  ⟨rfl, by decide, by decide, fun _ _ => rfl, by decide, unmet, nofun, by decide, by decide, by decide, by decide, by decide,
    by decide +kernel, by decide, by decide, by decide, by decide⟩

theorem wit_RestartResets : base.live = true ∧ Permitted base head ∧ base.mu.commit = .none
    ∧ { base with mu := { base.mu with restartWaiting := some head } }.mu.restartWaiting = some head
    ∧ (let s := { base with mu := { base.mu with commit := .storing .gates head 7 } }
       s.mu.commit = .storing .gates head 7 ∧ s.mu.restartWaiting = none) :=
  ⟨rfl, permitted_head, rfl, rfl, rfl, rfl⟩

/-! ## One step, against values worked by hand from the rules -/

/-- R8's second row; a LOST channel counts one (R13). -/
theorem test_sample_stores : after (.sampleFrame 5 [0, 8, 0]) mapped (fun t =>
    ((t.chan .la1).value, (t.chan .la1).quality, (t.chan .la1).recovery)) = some (some 2500, .lost, 1) := by
  decide +kernel

/-- Chapter 2's worked example at 6.0 s, its volumes of no matter here: of two readings of one frame, LA1 is selected with LA2 as it
stood (2,300 and 2,350), and LA2 then with LA1 as it has become. -/
theorem test_two_selections :
    let u1 := upd 2350 .good 6000
    let u2 := upd 2350 .good 6000
    [after (.levelSelection .la1 u1 u1 (upd 2300 .good 5000)) tabled (fun t => (t.well .a).level),
      after (.levelSelection .la2 u2 u1 u2) tabled (fun t => (t.well .a).level)] = [some (some 2325), some (some 2350)] := by
  decide +kernel

/-- R7, R188: a raw field of 4,096 is a RANGE reading; the rejection takes the recovery count back to 0. -/
theorem test_range_rejects : after (.sampleFrame 5 [0, 8, 0, 0, 16, 0]) mapped (fun t =>
    ((t.chan .la1).value, (t.chan .la1).rejects, (t.chan .la1).recovery)) = some (some 2500, 1, 0) := by decide +kernel

/-- R13: two stored readings of one frame count as two. -/
theorem test_two_stored_recover : after (.sampleFrame 5 [0, 8, 0, 0, 4, 0]) mapped (fun t =>
    ((t.chan .la1).value, (t.chan .la1).quality)) = some (some 1000, .good) := by decide +kernel

/-- R9: an EDGE with state 0. -/
theorem test_edge_stores : after (.edgeFrame 5 [1, 0, 7]) mapped (fun t =>
    ((t.chan .rh1).value, (t.chan .rh1).edgeCount)) = some (some 0, some 7#8) := by decide +kernel

/-- Chapter 4's worked example, time 20: the generator holds 1C4E and steps to 0E27, odd: 180 + 15 s. -/
theorem test_backoff_wait : after (.startDeadlineExpiry .p1)
    { withPump awake .p1 fun r => { r with state := .starting, owner := .auto, startAt := some past } with
      duty := { awake.duty with backoff := 0x1C4E#16 } }
    (fun t => ((t.pump .p1).state, (t.pump .p1).waitEnd, t.duty.backoff)) =
      some (.backoff, some (100000000 + 195000), 0x0E27#16) := by decide +kernel

/-- The same example, time 221, the second attempt: 4A3E steps to 251F, which is 3 modulo 4: 180 + 3 × 15 s. -/
theorem test_backoff_slots : after (.startDeadlineExpiry .p1)
    { withPump awake .p1 fun r => { r with state := .starting, owner := .auto, startAt := some past, attempts := 1 } with
      duty := { awake.duty with backoff := 0x4A3E#16 } }
    (fun t => (t.pump .p1).waitEnd) = some (some (100000000 + 225000)) := by decide +kernel

/-- R82, R84: a granted VARIABLE pump at its reset speed of 40. -/
theorem test_grant_runs : after (.pumpGrant .p1)
    (withPump awake .p1 fun r => { r with state := .startWait, owner := .auto, interlock := false })
    (fun t => ((t.pump .p1).state, t.lp.control)) =
      some (.starting, [⟨21, 62, 6#6, .driveCmd .run 40 1#8⟩]) := by decide +kernel

/-- R107: a rake at home leaves within 15 s. -/
theorem test_rake_leaves : after (.rakeGrant .s1)
    (withScreen (withChan awake .rh1 fun r => { r with value := some 1, quality := .good }) .s1 fun r =>
      { r with state := .queued })
    (fun t => ((t.screen .s1).state, (t.screen .s1).leaveAt)) = some (.cycling, some 100015000) := by decide +kernel

/-- R3, R11: a channel without a map entry stays LOST at a contradiction report that crosses the switch. -/
theorem test_unmapped_stays_lost : after (.floatContradiction .a true true) awake (fun t =>
    ((t.chan .la1).quality, t.raised)) = some (.lost, []) := by decide +kernel

/-- R54, R147: the RUN of an adopted pump of a well whose low float is ON leaves the CONTROL queue again; its STOP stays. -/
theorem test_adopted_run_is_removed : after (.fallbackExitDc .a (PerPump.make fun _ => some ExitName.adopted))
    (withWell base .a fun r => { r with lowFloat := .on })
    (fun t => (t.lp.control.filter (outIsRunFor 21 ·)).length) = some 0 := by decide +kernel

/-- Chapter 7's worked example, the curve of point 2, here at point 1, with the slot as it stands at time 30. -/
def weired : State :=
  let curve := [0, 40, 120, 240, 400, 600, 840, 1120, 1440, 1800, 2200, 2640, 3120, 3640, 4200, 4800, 5440]
  { awake with
    points := { awake.points with one := { awake.points.one with
      spill := .open_, slot := some { slot with volume := 1656, accumulator := 1000 }, previous := some (56, past) } }
    tables := { awake.tables with weir := Machine.Banks.valid ⟨⟨50, 50⟩, curve ++ curve⟩ } }

/-- Its time 31: 150 mm over the crest is 240 L/s, 297,000 half-millilitres, 148 L with 1,000 left. -/
theorem test_spill_volume : after (.overflowLevelUpdate .one ⟨some 5050, .good, some (past + 1000), true⟩) weired (fun t =>
    ((t.point .one).slot.map fun x => (x.volume, x.accumulator), (t.point .one).cumulative)) =
      some (some (1804, 1000), 148) := by decide +kernel

/-- Its heads of 12 and 60 mm: 9 and 56 L/s. -/
theorem test_weir_flow : (weirFlow 50 [0, 40, 120] 12, weirFlow 50 [0, 40, 120] 60) = ((9, false), (56, false)) := by decide

/-- R122: above the curve the last flow stands, as an estimate. -/
theorem test_weir_beyond : weirFlow 50 ((List.range 17).map (100 * ·)) 801 = (1600, true) := by decide

/-- The flows of the worked examples of chapters 2 and 3. -/
theorem test_flow :
    let q := [620, 590, 545, 480, 395, 290, 170, 60, 0]
    [flowOn q 3750 80, flowOn q 3750 100, flowOn q 3775 80, flowOn q 3775 100, flowOn q 8090 100] =
      [388, 551, 387, 551, 391] := by decide

/-- The volumes of chapter 2's worked example. -/
theorem test_volume : (volumeOn ⟨500, 250, (List.range 33).map (10000 * ·)⟩ 2300, volumeOn ⟨500, 250,
    (List.range 33).map (10000 * ·)⟩ 2350) = ((72000, false), (74000, false)) := by decide

/-- Chapter 2's worked example, the balance at 10.0 s: 9,390 L pumped, 1,139 L/s raw, 1,034 L/s smoothed. -/
theorem test_balance : after (.balanceExpiry .a)
    { withWell awake .a fun r => { r with
        level := some 2350, quality := .good, volume := 74000, established := true, balanceVolume := some 72000
        balanceTime := some 99990000, balanceAt := some 100000000, smoothedInflow := 1000, pumpedLitres := 5634
        integratedAt := some 99996000, flowSet := ⟨388, 551, 0, 0, 0, 0⟩ } with
      tables := { awake.tables with levelVolume :=
        ⟨Machine.Banks.valid blankLevelVolume, awake.tables.levelVolume.b⟩ } }
    (fun t => ((t.well .a).rawInflow, (t.well .a).smoothedInflow, (t.well .a).pumpedLitres)) =
      some (1139, 1034, 0) := by decide +kernel

/-- R88, R95: the generator's 24 after nothing is a rise; six reserves of 3 and a rake's 4 fit it. -/
theorem test_supply : after (.supplyStat 30 (some .generator)) queued (fun t => (t.budget.queue, t.budget.rakes.s2)) =
    some ([], ⟨.start, 4, false⟩) := by decide +kernel

/-- R153 and section 9.1: an OVERFLOW_OPEN takes 3 pages. -/
theorem test_pages : after (.recordSubmission (.overflowOpen .one 1 0 0 0 0 .clear)) awake (fun t =>
    (t.elr.pagesUsed, t.elr.sequence)) = some (3, 1#16) := by decide +kernel

/-- R185: SET_TIME, and its answer to the source. -/
theorem test_set_time : after (.setTime head (some 77#32)) awake (fun t => (t.mu.clock, t.mu.timeUnset, t.lp.general)) =
    some (77#32, false, [⟨1, 62, 3#6, .mgmtRsp 9#8 .ok .none⟩]) := by decide +kernel

/-- R173, and chapter 10's worked example: with four forwarded in a row, an inserted frame goes. -/
theorem test_turn : after (.loopOutFree true)
    { awake with lp := { awake.lp with
        forward := [driveFrame 9], general := [⟨1, 62, 0, .mgmtRsp 0 .ok .none⟩], consecutiveForwards := 4 } }
    (fun t => (t.lp.sending, t.lp.consecutiveForwards)) =
      some (some (.inserted ⟨1, 62, 0, .mgmtRsp 0 .ok .none⟩), 0) := by decide +kernel

end Sys2Proof.Tests
end

section
/-! PROOF. The policing of another node's DRIVE_CMD (R63 to R67, R96): the reasons to refuse it as DC computes them are the first
that apply of `refusalRows`, and what a refusal changes. -/

namespace Sys2Proof.Machine

section Policing

/-! ## The first reason that applies -/

/-- An answer is the first reason of a list that applies, and `none` when no reason applies. -/
inductive FirstReason : List (RefusalReason × Prop) → Option RefusalReason → Prop where
  | nil : FirstReason [] none
  | applies {why : RefusalReason} {holds : Prop} {rows : List (RefusalReason × Prop)} (h : holds) :
      FirstReason ((why, holds) :: rows) (some why)
  | skips {why : RefusalReason} {holds : Prop} {rows : List (RefusalReason × Prop)} {o : Option RefusalReason}
      (h : ¬ holds) (rest : FirstReason rows o) : FirstReason ((why, holds) :: rows) o

namespace FirstReason

variable {rows more : List (RefusalReason × Prop)} {o o' : Option RefusalReason} {why : RefusalReason}

/-- A branch of a computed answer is a row of the list. -/
theorem branch {holds c : Prop} [Decidable c] (agree : c ↔ holds) (rest : FirstReason rows o) :
    FirstReason ((why, holds) :: rows) (if c then some why else o) := by
  split
  · next h => exact applies (agree.1 h)
  · next h => exact skips (mt agree.2 h) rest

/-- The reasons of one list and then those of another. -/
theorem append (first : FirstReason rows o) (second : FirstReason more o') : FirstReason (rows ++ more) (o.or o') := by
  induction first with
  | nil => exact second
  | applies h => exact applies h
  | skips h _ ih => exact skips h ih

theorem of_no_row (h : ∀ row ∈ rows, ¬ row.2) : FirstReason rows none := by
  induction rows with
  | nil => exact nil
  | cons row rows ih =>
    rw [List.forall_mem_cons] at h
    exact skips h.1 (ih h.2)

theorem eq_some {holds : Prop} {before : List (RefusalReason × Prop)}
    (first : FirstReason (before ++ (why, holds) :: more) o) (h : holds) (earlier : ∀ row ∈ before, ¬ row.2) :
    o = some why := by
  induction before with
  | nil =>
    cases first with
    | applies => rfl
    | skips no => exact absurd h no
  | cons row before ih =>
    rw [List.forall_mem_cons] at earlier
    cases first with
    | applies yes => exact absurd yes earlier.1
    | skips _ rest => exact ih rest earlier.2

end FirstReason

/-! ## The reasons as DC computes them -/

variable (s : State) (p : Pump) (src : Addr) (claimed : Nat) (act : DriveAction)

/-- The reason of R96, SB's no to the immediate charge; a pump that starts or runs is charged already (R65). -/
def budgetRefusal : Option RefusalReason :=
  if startingOrRunning (s.pump p).state = false ∧ immediateCharge s p = none then some .budget else none

/-- The reason for which DC refuses a command: the checks of R63, and for a RUN or REVERSE the rows of R64. -/
def refusalReason : Option RefusalReason :=
  (sourceRefusal s src claimed).or
    (match act with
      | .stop | .float => none
      | .run | .reverse => (runRefusal s p).or (budgetRefusal s p))

theorem police_of_refusalReason {s : State} {p : Pump} {src : Addr} {claimed : Nat} {act : DriveAction} {why : RefusalReason}
    (seq : BitVec 6) (speed : Nat) (h : refusalReason s p src claimed act = some why) :
    police s p src claimed seq act speed = (refuse s p src seq act why, false) := by
  unfold refusalReason at h
  unfold police
  cases hs : sourceRefusal s src claimed with
  | some _ =>
    rw [hs] at h
    cases h
    rfl
  | none =>
    rw [hs] at h
    cases act with
    | stop | float => cases h
    | run | reverse =>
      cases hr : runRefusal s p with
      | some _ =>
        rw [hr] at h
        cases h
        rfl
      | none =>
        rw [hr] at h
        obtain ⟨⟨idle, denied⟩, rfl⟩ : (startingOrRunning (s.pump p).state = false ∧ immediateCharge s p = none)
            ∧ .budget = why := by simpa [budgetRefusal] using h
        simp [idle, denied]

/-! ## What each check means -/

variable {s p}

theorem startingOrRunning_eq_false {st : PumpState} : startingOrRunning st = false ↔ st ≠ .starting ∧ st ≠ .running := by
  simp [startingOrRunning]

theorem inFallback_iff : inFallback s p = true ↔ ∃ w, s.wellOf p = some w ∧ s.ssu.well.get w = .fallback := by
  unfold inFallback
  cases s.wellOf p <;> simp

theorem immediateCharge_eq_none : immediateCharge s p = none ↔
    (∃ q ∈ s.budget.queue, q.requester ≠ .pump p) ∨ (s.budget.pumps.get p).kind = .start
      ∨ capacity s < committed s.budget - (s.budget.pumps.get p).weight + startWeight s (.pump p) := by
  have others : withoutRequester (.pump p) s.budget.queue = [] ↔ ¬ ∃ q ∈ s.budget.queue, q.requester ≠ .pump p := by
    simp [withoutRequester]
  simp [immediateCharge, others, or_iff_not_imp_left]

variable (s p)

theorem sourceRefusal_firstReason :
    FirstReason ((refusalRows s p src claimed act).take 2) (sourceRefusal s src claimed) := by
  unfold sourceRefusal
  split
  · next e entry =>
    split
    · next manual =>
      refine .skips ?_ (.branch ?_ .nil)
      · simp [entry, manual]
      · simp [entry, effective]
    · next manual =>
      refine .applies ?_
      simpa [entry] using manual
  · next entry =>
    refine .applies ?_
    simp [entry]

section
variable {act s p} (run : act = .run ∨ act = .reverse) (float : (s.pump p).state = .float → inFallback s p = true)
include run float

theorem runRefusal_firstReason :
    FirstReason (((refusalRows s p src claimed act).drop 2).take 5) (runRefusal s p) := by
  refine .branch ?fallback (.branch ?locked (.branch ?dry (.branch ?starts (.branch ?limit .nil))))
  case fallback =>
    simp only [run, true_and, ← inFallback_iff, Bool.or_eq_true, beq_iff_eq]
    exact ⟨fun h => h.elim id float, .inl⟩
  case locked => cases h : (s.pump p).state <;> simp [run]
  case dry => simp [run]
  case starts => simp [run, historyFull, startingOrRunning]
  case limit => cases hw : s.wellOf p <;> simp [run, startingOrRunning, maxRunning]

theorem driveRefusal_firstReason :
    FirstReason ((refusalRows s p src claimed act).drop 2) ((runRefusal s p).or (budgetRefusal s p)) := by
  refine (runRefusal_firstReason src claimed run float).append (more := [_]) (.branch ?_ .nil)
  simp only [run, startingOrRunning_eq_false, immediateCharge_eq_none, true_and]

end

/-- R63, R64 and R96 as DC computes them give the first row that applies. A pump is in FLOAT only while its well is in FALLBACK
(R44): where it is not, log entry 64 adds a reason that the rows do not have. -/
theorem refusalReason_firstReason (float : (s.pump p).state = .float → inFallback s p = true) :
    FirstReason (refusalRows s p src claimed act) (refusalReason s p src claimed act) := by
  refine (sourceRefusal_firstReason s p src claimed act).append (more := (refusalRows s p src claimed act).drop 2) ?_
  cases act with
  | run => exact driveRefusal_firstReason src claimed (.inl rfl) float
  | reverse => exact driveRefusal_firstReason src claimed (.inr rfl) float
  | stop | float => exact .of_no_row (by simp [refusalRows])

/-! ## What a refusal changes (R67) -/

variable (seq : BitVec 6) (why : RefusalReason)

/-- A refusal changes the CONTROL queue and the events on their way, and nothing else. -/
theorem refuse_frame : refuse s p src seq act why = { s with
    lp := { s.lp with
      control := if s.lp.control.length < 8 then
          s.lp.control ++ [⟨src, s.lp.ownAddress, seq, .refusal (driveOf s p) act why⟩]
        else s.lp.control }
    raised := (refuse s p src seq act why).raised } := by
  unfold refuse offerControl
  split
  · unfold State.raiseIf
    split <;> rfl
  · rfl

theorem manual_mem_refuse_raised :
    .recordSubmission (.manual src p act why) ∈ (refuse s p src seq act why).raised :=
  List.mem_append_right _ (List.mem_singleton_self _)

/-! ## The arrival of a policed command -/

variable {s p} {f : RawFrame}

theorem exec_frameArrival (live : s.live = true) : exec (.frameArrival f) s = .next (arriveFrame s f) :=
  congrArg Host.Outcome.next (if_pos live)

theorem arriveFrame_eq_disposeFrame (check : goodCheck f = true) (usable : addressesUnusable f = false) :
    arriveFrame s f = disposeFrame (noteGood s) f := by
  simp [arriveFrame, check, usable]

/-- A DRIVE_CMD that policing holds back leaves the state as policing leaves it, whether it is for the part itself or for
another node. -/
theorem disposeFrame_of_held (other : rawSource f ≠ s.lp.ownAddress) (single : rawDestination f ≠ 63)
    (kind : frameKind f.kind = .driveCmd) (pump : pumpAtDrive s (rawDestination f) = some p)
    (held : (policeFrame s p f).2 = false) : disposeFrame s f = (policeFrame s p f).1 := by
  unfold disposeFrame
  rw [if_neg other]
  by_cases own : rawDestination f = s.lp.ownAddress
  · rw [if_pos own]
    simp [consumeFrame, kind, pump]
  · rw [if_neg own, if_neg single]
    simp [passFrame, kind, pump, held]

end Policing

/-! ## The refused command -/

/-- Settles O15: the reason of the rows is the one that DC computes, so that policing answers with `refuse`. A good frame's
restart of the silence timer and step of the generator (R74, R174) bear on nothing that policing reads. -/
theorem refusedDriveDoesNotPass : Obligations.RefusedDriveDoesNotPass := by
  intro f p act speed why s live check usable other single kind pump command float
    ⟨before, applies, after, rows, holds, earlier⟩
  have first : FirstReason (refusalRows s p (rawSource f) (rawAuthority f) act)
      (refusalReason (noteGood s) p (rawSource f) (rawAuthority f) act) :=
    refusalReason_firstReason (noteGood s) p (rawSource f) (rawAuthority f) act float
  have reason : refusalReason (noteGood s) p (rawSource f) (rawAuthority f) act = some why :=
    (rows ▸ first).eq_some holds earlier
  have policed : policeFrame (noteGood s) p f =
      (refuse (noteGood s) p (rawSource f) (rawSequence f) act why, false) := by
    simpa [policeFrame, command] using police_of_refusalReason (rawSequence f) speed reason
  have arrived : arriveFrame s f = refuse (noteGood s) p (rawSource f) (rawSequence f) act why := by
    rw [arriveFrame_eq_disposeFrame check usable,
      disposeFrame_of_held (s := noteGood s) other single kind pump (by rw [policed]), policed]
  refine ⟨_, exec_frameArrival live, ?_⟩
  rw [arrived]
  refine ⟨?forward, ?pumps, ?budget, manual_mem_refuse_raised .., ?control, fun unlisted => ?unlisted⟩
  case unlisted =>
    have unpermitted : refusalReason (noteGood s) p (rawSource f) (rawAuthority f) act = some .noPermission := by
      have entry : sourceEntry (noteGood s) (rawSource f) = none := unlisted
      simp [refusalReason, sourceRefusal, entry]
    exact Option.some.inj (reason.symm.trans unpermitted)
  all_goals
    rw [refuse_frame]
    rfl

end Sys2Proof.Machine
end

section
/-! PROOF. The silence timer and LOOP_SILENT (R174). Besides a reset, a good frame and the expiry, nothing that an arrival, a reset
or an answer brings in any block touches them: the rules for that come first, in the order of the model's definitions. -/

namespace Sys2Proof.Machine

section Silence

/-- The time, with the silence timer and the LOOP_SILENT flag. -/
def silence (s : State) : Ms × Option Ms × Bool := (s.now, s.lp.silenceAt, s.lp.loopSilent)

theorem silence_eq {s : State} {now : Ms} {timer : Option Ms} {flag : Bool} :
    silence s = (now, timer, flag) ↔ s.now = now ∧ s.lp.silenceAt = timer ∧ s.lp.loopSilent = flag := by
  simp [silence]

variable (s : State) (p : Pump) (f : RawFrame)

/-! ## Records and events -/

@[simp] theorem State.setPump_silence (r : PumpRecord) : silence (s.setPump p r) = silence s := rfl
@[simp] theorem State.raise_silence (e : Instr) : silence (s.raise e) = silence s := rfl
@[simp] theorem State.raiseAll_silence (es : List Instr) : silence (s.raiseAll es) = silence s := rfl
@[simp] theorem State.submit_silence (b : RecordBody) : silence (s.submit b) = silence s := rfl
@[simp] theorem State.raiseIf_silence (b : Bool) (e : Instr) : silence (s.raiseIf b e) = silence s := by
  simp [silence]

theorem each_silence {α : Type} (g : State → α → State) (h : ∀ s x, silence (g s x) = silence s) (xs : List α) :
    silence (State.each g xs s) = silence s := by
  induction xs generalizing s with
  | nil => rfl
  | cons x xs ih => exact (ih (g s x)).trans (h s x)

/-! ## LP: the queues (R170, R171, R176) -/

@[simp] theorem joinForward_silence : silence (joinForward s f) = silence s := by
  unfold joinForward
  split
  · exact State.raiseIf_silence ..
  · rfl

variable {s} in
theorem offerControl_silence {t : State} {d : Addr} {a : Option (BitVec 6)} {x : OutPayload}
    (h : offerControl s d a x = some t) : silence t = silence s := by
  unfold offerControl at h
  split at h
  · cases h
    exact State.raiseIf_silence ..
  · cases h

@[simp] theorem respond_silence (h : ReqHead) (result : ResultCode) (data : RspData) :
    silence (respond s h result data) = silence s := by
  rw [respond_eq]
  unfold answered
  split <;> rfl

/-! ## DC: commands, stops and what follows a change -/

@[simp] theorem enter_silence (st : PumpState) : silence (enter s p st) = silence s := rfl
@[simp] theorem enterOff_silence : silence (enterOff s p) = silence s := rfl
@[simp] theorem withdraw_silence : silence (withdraw s p) = silence s := rfl

@[simp] theorem returnCharge_silence : silence (returnCharge s p) = silence s := by
  simp [returnCharge, apply_ite silence]

@[simp] theorem buildCommand_silence (b : Bool) : silence (buildCommand s p b) = silence s := by
  unfold buildCommand offerCommand
  split
  · split
    · next placed => simpa using offerControl_silence placed
    · simp [apply_ite silence]
  · rfl

@[simp] theorem stopPump_silence (send : Bool) : silence (stopPump s p send) = silence s := by
  simp [stopPump, apply_ite silence]

@[simp] theorem treat_silence (chosen : List Pump) : silence (treat chosen s p) = silence s := by
  unfold treat
  dsimp only
  split
  · rfl
  · split <;> simp [apply_ite silence]

@[simp] theorem judgeDeadHead_silence : silence (judgeDeadHead s p) = silence s := by
  unfold judgeDeadHead
  split <;> simp [apply_ite silence]

theorem silence_settles : Settles fun s t => silence t = silence s where
  refl _ := rfl
  trans h k := k.trans h
  duty _ _ := rfl
  treat l s p := treat_silence s p l
  judge := judgeDeadHead_silence
  tick _ _ _ := rfl
  raise _ _ := rfl

@[simp] theorem settle_silence (before : State) : silence (settle before s) = silence s :=
  silence_settles.settle before s

/-! ## DC: policing (R63 to R67) -/

@[simp] theorem evaluateWithin_silence (w : Well) : silence (evaluateWithin s w) = silence s :=
  (each_silence _ _ (fun s p => by simp [withdrawExcess, apply_ite silence]) _).trans (silence_settles.evaluateLive s w)

@[simp] theorem recordManual_silence (src : Addr) (act : DriveAction) (speed : Nat) :
    silence (recordManual s p src act speed) = silence s := rfl
@[simp] theorem startManual_silence : silence (startManual s p) = silence s := rfl

@[simp] theorem passRun_silence (src : Addr) (act : DriveAction) (speed : Nat) :
    silence (passRun s p src act speed) = silence s := by
  unfold passRun
  dsimp only
  split <;> simp [apply_ite silence]

@[simp] theorem passStop_silence : silence (passStop s p) = silence s := by
  unfold passStop
  split <;> simp

@[simp] theorem refuse_silence (src : Addr) (seq : BitVec 6) (act : DriveAction) (why : RefusalReason) :
    silence (refuse s p src seq act why) = silence s := by
  unfold refuse
  cases offered : offerControl s src (some seq) (.refusal (driveOf s p) act why) with
  | none => rfl
  | some t => simpa using offerControl_silence offered

variable {s p} in
theorem immediateCharge_silence {t : State} (h : immediateCharge s p = some t) : silence t = silence s := by
  unfold immediateCharge at h
  dsimp only at h
  split at h
  · cases h
    rfl
  · cases h

@[simp] theorem police_silence (src : Addr) (claimed : Nat) (seq : BitVec 6) (act : DriveAction) (speed : Nat) :
    silence (police s p src claimed seq act speed).1 = silence s := by
  unfold police
  split
  · simp
  · cases act with
    | stop | float => simp [dcStep]
    | run | reverse =>
      dsimp only
      split
      · simp
      · split
        · simp [dcStep]
        · split
          · next charged => simpa using immediateCharge_silence charged
          · simp

/-! ## LP: the disposal of a frame (R166 to R169) -/

@[simp] theorem handFrame_silence : silence (handFrame s f) = silence s := by
  unfold handFrame
  split <;> simp [handDriveStat]

@[simp] theorem handRequest_silence : silence (handRequest s f) = silence s := by
  unfold handRequest
  split <;> rfl

@[simp] theorem policeFrame_silence : silence (policeFrame s p f).1 = silence s := by
  unfold policeFrame
  split
  · exact police_silence ..
  · rfl

@[simp] theorem consumeFrame_silence : silence (consumeFrame s f) = silence s := by
  unfold consumeFrame
  split <;> simp

@[simp] theorem passFrame_silence : silence (passFrame s f) = silence s := by
  unfold passFrame
  split <;> simp [apply_ite silence]

@[simp] theorem broadcastFrame_silence : silence (broadcastFrame s f) = silence s := by
  unfold broadcastFrame
  split
  · rfl
  · simp

@[simp] theorem disposeFrame_silence : silence (disposeFrame s f) = silence s := by
  simp [disposeFrame, apply_ite silence]

/-- A good frame restarts the timer and clears the flag, whatever its disposition. -/
theorem arriveFrame_silence_of_good (good : goodCheck f = true) :
    silence (arriveFrame s f) = (s.now, some (s.now + 2000), false) := by
  have noted : silence (noteGood s) = (s.now, some (s.now + 2000), false) := rfl
  have counted : silence (countHeader (noteGood s)) = silence (noteGood s) := rfl
  simp [arriveFrame, good, apply_ite silence, counted, noted]

theorem arriveFrame_silence_of_bad (bad : goodCheck f = false) : silence (arriveFrame s f) = silence s := by
  simp only [arriveFrame, bad]
  rfl

/-! ## The reset of every block (R164, R165, R186) -/

@[simp] theorem resetBlocks_silence (l : Loop) : silence (resetBlocks s l) = (0, l.silenceAt, l.loopSilent) := rfl

@[simp] theorem resetStale_silence (node : Nat) (cls : StationState) : silence (resetStale s node cls) = silence s :=
  each_silence _ _ (fun _ _ => by split <;> rfl) _

@[simp] theorem updateNode_silence (node : Nat) (g : CadenceState → CadenceState) :
    silence (updateNode s node g) = silence s := rfl

@[simp] theorem offerCadence_silence (node : Nat) : silence (offerCadence s node) = silence s := by
  unfold offerCadence placeCadence
  cases offered : offerControl s node none (.cadence s.ssu.state none) with
  | none => rfl
  | some t => simpa [cadencePlaced, apply_ite silence] using offerControl_silence offered

/-- What the blocks originate at a reset leaves the timer and the flag as the reset set them. -/
@[simp] theorem bootFrames_silence : silence (bootFrames s) = silence s := by
  have cadences : ∀ t, silence (offerCadenceAll t) = silence t :=
    fun t => each_silence t _ (fun _ _ => offerCadence_silence ..) t.nodes
  have floats : ∀ t, silence (offerFloats t) = silence t :=
    fun t => each_silence t _ (fun s p => by simp [apply_ite silence]) Pump.all
  simp [bootFrames, reportFaults, cadences, floats]

theorem bootPart_silence {strap : BitVec 6} (own : strapAddresses strap = true) :
    silence (bootPart s strap) = (0, some 2000, false) := by
  rw [bootPart, if_pos own, bootFrames_silence]
  rfl

theorem restartNow_silence (h : ReqHead) : silence (restartNow s h) = (0, some 2000, false) := by
  have restarted : silence (restartBlocks s) = (0, some 2000, false) := rfl
  simp [restartNow, restartPart, restarted]

variable {s} {h : ReqHead}

/-! ## The commands -/

theorem storing_eq_false (idle : ∀ id x d, s.mu.commit ≠ .storing id x d) : storing s = false := by
  unfold storing
  split
  · next storing => exact (idle _ _ _ storing).elim
  · rfl

theorem onRequest_of_permitted {α : Type} {args : α} {form : α → Bool} (g : State → Nat → α → State)
    (permitted : Permitted s h) (formed : form args = true) :
    ∃ authority, onRequest s h (some args) form .trusted g = g s authority args := by
  obtain ⟨e, entry, manage, level⟩ := permitted
  exact ⟨effective e h.authority, by simp [onRequest, checkRequest, needMet, effective, entry, manage, formed, level]⟩

/-- A permitted RESTART, and a RESTART that waited, restart the part when no store write is under way. -/
theorem exec_restart_or_deferredRestart {c : Instr} (live : s.live = true)
    (restart : c = .restart h (some ()) ∧ Permitted s h ∨ c = .deferredRestart ∧ s.mu.restartWaiting = some h)
    (idle : storing s = false) : exec c s = .next (restartNow s h) := by
  obtain ⟨rfl, permitted⟩ | ⟨rfl, waiting⟩ := restart
  · obtain ⟨_, taken⟩ := onRequest_of_permitted (args := ()) (form := anyForm) (fun s _ _ =>
      if storing s then { s with mu := { s.mu with restartWaiting := some (s.mu.restartWaiting.getD h) } }
      else restartNow s h) permitted rfl
    rw [idle] at taken
    exact congrArg Host.Outcome.next ((if_pos live).trans taken)
  · refine congrArg Host.Outcome.next ((if_pos live).trans ?_)
    simp [waiting, idle]

theorem exec_silenceTimerExpiry (live : s.live = true) : exec .silenceTimerExpiry s = .next
    (if due s.lp.silenceAt s.now then s.setLp { s.lp with loopSilent := true, silenceAt := none } else s) :=
  congrArg Host.Outcome.next (if_pos live)

/-- With a frame to forward, the choice at LOOP OUT sends one, its own or that. -/
theorem chooseFrame_sends {l : Loop} {g : RawFrame} {gs : List RawFrame} (waits : l.forward = g :: gs) :
    (chooseFrame l).sending ≠ none := by
  unfold chooseFrame
  rw [waits]
  dsimp only
  split
  · next inserted =>
    split
    · simp
    · unfold sendInserted
      split
      · simp
      · simp
      · next control general => simp [insertedWaits, control, general] at inserted
  · simp

theorem chooseFrame_loopSilent (l : Loop) : (chooseFrame l).loopSilent = l.loopSilent := by
  unfold chooseFrame sendInserted
  repeat' split
  all_goals rfl

end Silence

/-! ## The statement -/

/-- Settles O18: a reset and an arrival set `silence` once, and all that they bring in other blocks keeps it; the choice at LOOP OUT
does not read the flag. -/
theorem silenceTimer : Obligations.SilenceTimer := by
  intro s
  refine ⟨fun strap off low high => ?powerOn, fun live => ⟨fun h c restart idle => ?restart, fun f good => ?good,
    fun f bad => ?bad, fun d running passed => ?expiry, fun stopped => ?stopped, ⟨_, _, _, _, _, rfl⟩,
    fun g gs silent idle waits => ?sends⟩⟩
  case powerOn =>
    obtain ⟨now, timer, flag⟩ := silence_eq.1 (bootPart_silence s (strap := strap) (decide_eq_true ⟨low, high⟩))
    have booted : exec (.powerOn strap) s = .next (bootPart s strap) := by
      show execPowerOn strap s = _
      simp [execPowerOn, off]
    exact ⟨_, booted, by rw [timer, now], flag⟩
  case restart =>
    obtain ⟨now, timer, flag⟩ := silence_eq.1 (restartNow_silence s h)
    exact ⟨_, exec_restart_or_deferredRestart live restart (storing_eq_false idle), by rw [timer, now], flag⟩
  case good =>
    obtain ⟨_, timer, flag⟩ := silence_eq.1 (arriveFrame_silence_of_good s f good)
    exact ⟨_, exec_frameArrival live, timer, flag⟩
  case bad =>
    obtain ⟨_, timer, flag⟩ := silence_eq.1 (arriveFrame_silence_of_bad s f bad)
    exact ⟨_, exec_frameArrival live, timer, flag⟩
  case expiry =>
    have expired : due s.lp.silenceAt s.now = true := by
      rw [running]
      exact decide_eq_true passed
    rw [exec_silenceTimerExpiry live, if_pos expired]
    rfl
  case stopped =>
    rw [exec_silenceTimerExpiry live, stopped]
    rfl
  case sends =>
    have powered : s.powered = true := (Bool.and_eq_true_iff.1 live).1
    have chosen : exec (.loopOutFree false) s = .next (s.setLp (chooseFrame s.lp)) := by
      show execLoopOutFree false s = _
      simp [execLoopOutFree, powered, idle]
    exact ⟨_, chosen, chooseFrame_sends waits, (chooseFrame_loopSilent s.lp).trans silent⟩

end Sys2Proof.Machine
end


section
/-! PROOF. What a command of each block leaves of the rest of the part, and what follows at once from it: every command answers a
next state, and the setup and the store change rarely. -/

namespace Sys2Proof.Machine

section Commands

/-! ## A command and the relation its effect keeps -/

/-- An outcome is a next state in a relation to the state before. -/
def Yields (R : State → State → Prop) (s : State) (o : Host.Outcome State Fault Refusal) : Prop :=
  ∃ t, o = .next t ∧ R s t

variable {R : State → State → Prop} {s : State} {f : State → State}

theorem Yields.mono {R' : State → State → Prop} {o : Host.Outcome State Fault Refusal} (h : Yields R s o)
    (imp : ∀ t, R s t → R' s t) : Yields R' s o := by
  obtain ⟨t, out, kept⟩ := h
  exact ⟨t, out, imp t kept⟩

theorem Yields.of_next {o : Host.Outcome State Fault Refusal} {t : State} (h : Yields R s o) (out : o = .next t) : R s t := by
  obtain ⟨u, out', kept⟩ := h
  cases out.symm.trans out'
  exact kept

section

variable (refl : R s s)
include refl

theorem yields_ite {b : Prop} [Decidable b] {u : State} (h : R s u) : Yields R s (.next (if b then u else s)) := by
  refine ⟨_, rfl, ?_⟩
  split
  · exact h
  · exact refl

theorem whenLive_yields (h : R s (f s)) : Yields R s (whenLive s f) := yields_ite refl h

theorem whenDue_yields {t : Option Ms} (h : R s (f s)) : Yields R s (whenDue s t f) := by
  refine whenLive_yields refl ?_
  split
  · exact h
  · exact refl


end

/-- Two states agree in what a mask leaves. -/
def Agree (mask : State → State) (s t : State) : Prop := mask t = mask s

variable {mask : State → State}

theorem whenLive_agree (h : mask (f s) = mask s) : Yields (Agree mask) s (whenLive s f) :=
  whenLive_yields (R := Agree mask) rfl h
theorem whenDue_agree {t : Option Ms} (h : mask (f s) = mask s) : Yields (Agree mask) s (whenDue s t f) :=
  whenDue_yields (R := Agree mask) rfl h

/-! ## The commands of each block -/

theorem exec_cu {c : Instr} (s : State) (block : blockOf c = .cu) : Yields (Agree cuMask) s (exec c s) := by
  cases c <;> try cases block
  case sampleFrame src payload =>
    apply whenLive_agree
    split
    · exact each_cu _ (fun s rd => takeReading_cu src s rd) _ _
    · rfl
  case edgeFrame src payload =>
    apply whenLive_agree
    repeat' split
    all_goals simp
  case stalenessDeadline q | holdDeadline q => 
    apply whenDue_agree
    split
    · simp
    · rfl
  case floatContradiction w first second =>
    have one : ∀ t q b, cuMask (contradict t q b) = cuMask t := by
      intro t q b
      simp [contradict, apply_ite cuMask]
    apply whenLive_agree
    exact ((one _ _ _).trans (one _ _ _))
  case surgeNotice w =>
    apply whenLive_agree
    exact rfl
  case referenceIntervalExpiry q =>
    apply whenDue_agree
    repeat' split
    all_goals simp
  case referenceRetry q =>
    apply whenDue_agree
    split
    all_goals simp
  case referenceTimeout q =>
    apply whenDue_agree
    exact rfl
  case cadenceRepeatExpiry node | cadenceRetry node =>
    apply whenDue_agree
    simp
  case stationStateToCu st =>
    apply whenLive_agree
    exact (offerCadenceAll_cu s)

theorem exec_wmu {c : Instr} (s : State) (block : blockOf c = .wmu) : Yields (Agree wmuMask) s (exec c s) := by
  cases c <;> try cases block
  case levelSelection q u first second =>
    apply whenLive_agree
    split
    · exact selectionEvent_wmu ..
    · rfl
  case disagreeTimeout w =>
    apply whenDue_agree
    exact rfl
  case pumpFlowNotice p left =>
    apply whenLive_agree
    dsimp only
    repeat' split
    all_goals simp
  case balanceExpiry w =>
    apply whenDue_agree
    exact (balanceEvent_wmu s w)

theorem exec_sb {c : Instr} (s : State) (block : blockOf c = .sb) : Yields (Agree sbMask) s (exec c s) := by
  have examined : ∀ b, sbMask (examine { s with budget := b }) = sbMask s := fun b => examine_sb _
  have changed : ∀ b, sbMask (changeBudget s b) = sbMask s := fun b => changeBudget_sb s b
  cases c <;> try cases block
  case startRequest r cls =>
    apply whenLive_agree
    repeat' split
    · rfl
    · exact examined _
    · exact examined _
  case requestWithdrawal r =>
    apply whenLive_agree
    exact (removeRequests_sb s _)
  case chargeTransfer r =>
    apply whenLive_agree
    dsimp only
    split
    · exact changed _
    · rfl
  case grantReturn r =>
    apply whenLive_agree
    split
    · exact changed _
    · rfl
  case chargeRelease r =>
    apply whenLive_agree
    split
    · rfl
    · exact changed _
  case externalCharge p convert =>
    apply whenLive_agree
    dsimp only
    repeat' split
    all_goals rfl
  case stopNotice p =>
    apply whenLive_agree
    dsimp only
    split <;> rfl
  case shedDecline r =>
    apply whenLive_agree
    exact (sweep_sb _)
  case supplyStat src value =>
    apply whenLive_agree
    repeat' split
    all_goals first | rfl | exact supplyChange_sb s _
  case fallbackEntrySb w =>
    apply whenLive_agree
    dsimp only
    split
    · exact examined _
    · rfl
  case fallbackExitSb w names =>
    apply whenLive_agree
    exact (changed _)

theorem exec_sc_of_ne_hour {c : Instr} (s : State) (block : blockOf c = .sc) (hour : c ≠ .hourTimerExpiry) :
    Yields (Agree scMask) s (exec c s) := by
  have blinded : ∀ {t : State} {k : Screen}, scMask t = scMask s → scMask (reblind t k) = scMask s :=
    fun h => (reblind_sc _ _).trans h
  cases c <;> try cases block
  case hourTimerExpiry => exact absurd rfl hour
  case wellRecordDeliverySc w d =>
    apply whenLive_agree
    exact each_sc _ (screenDelivery_sc d) _ _
  case upstreamLevelUpdate k u | homeOffEdge k at_ | homeOnEdge k at_ =>
    apply whenLive_agree
    refine blinded ?_
    dsimp only
    repeat' split
    all_goals simp
  case homeQualityNotice k u | rakeGrant k | rakeShed k =>
    apply whenLive_agree
    refine blinded ?_
    dsimp only
    split <;> simp
  case rakeDriveStat src payload =>
    apply whenLive_agree
    split
    · exact scStep_sc s _ _ fun t => by simp
    · rfl
  case leaveDeadlineExpiry k | cycleDeadlineExpiry k | reverseEnd k | pauseEnd k =>
    apply whenDue_agree
    refine blinded ?_
    dsimp only
    split <;> simp
  case intervalTimerExpiry k =>
    apply whenDue_agree
    refine blinded ?_
    dsimp only
    split <;> simp
  case rakeRefreshExpiry k | rakeCommandRetry k =>
    apply whenDue_agree
    refine blinded ?_
    simp
  case stationStateToSc st =>
    apply whenLive_agree
    split
    · exact each_sc _ shortenInterval_sc _ _
    · rfl

/-- The state without what SC changes, the hour timer included. -/
def scHourMask (s : State) : State := { scMask s with hourAt := none }

theorem scHourMask_congr {s t : State} (h : scMask t = scMask s) : scHourMask t = scHourMask s := by
  unfold scHourMask
  rw [h]

theorem exec_sc {c : Instr} (s : State) (block : blockOf c = .sc) : Yields (Agree scHourMask) s (exec c s) := by
  by_cases hour : c = .hourTimerExpiry
  · subst hour
    apply whenDue_agree
    have cleared : ∀ t, scHourMask (State.each (fun s k => s.setScreen k { s.screen k with cyclesThisHour := 0 })
        Screen.all t) = scHourMask t := fun t => scHourMask_congr (by exact each_sc _ (by intros; rfl) _ _)
    exact (cleared _).trans rfl
  · exact (exec_sc_of_ne_hour s block hour).mono fun _ => scHourMask_congr

theorem exec_oa {c : Instr} (s : State) (block : blockOf c = .oa) : Yields (Agree oaMask) s (exec c s) := by
  cases c <;> try cases block
  case wellRecordDeliveryOa w d | wellStateToOa w st =>
    apply whenLive_agree
    exact (evaluateCauses_oa s _)
  case overflowLevelUpdate o u =>
    apply whenLive_agree
    split
    · exact takeSample_oa ..
    · exact takeNotice_oa ..

theorem exec_ssu {c : Instr} (s : State) (block : blockOf c = .ssu) : Yields (Agree ssuMask) s (exec c s) := by
  cases c <;> try cases block
  case wellRecordDeliverySsu w d =>
    apply whenLive_agree
    dsimp only
    split <;> simp
  case rivUpdateSsu u =>
    apply whenLive_agree
    dsimp only
    split <;> simp
  case spillStateDelivery o st =>
    apply whenLive_agree
    exact (evaluateStormLive_su _)
  case holdTimerExpiry =>
    apply whenDue_agree
    split <;> simp
  case blindedChange k flag =>
    apply whenLive_agree
    exact (decideWell_su _ _)
  case recoveryTimerExpiry w | statusWaitEnd w =>
    apply whenDue_agree
    repeat' split
    all_goals simp
  case driveStatusReport p known =>
    apply whenLive_agree
    repeat' split
    all_goals simp

theorem exec_elr {c : Instr} (s : State) (block : blockOf c = .elr) : Yields (Agree elrMask) s (exec c s) := by
  cases c <;> try cases block
  case recordSubmission body =>
    apply whenLive_agree
    simp
  case reportRetry =>
    apply whenDue_agree
    exact (trySend_el s)
  case reportAck src payload =>
    apply whenLive_agree
    split <;> simp
  case reportTimerExpiry | statusTimerExpiry =>
    apply whenDue_agree
    simp
  case statusPartRetry =>
    apply whenDue_agree
    split
    · exact offerParts_el ..
    · rfl
  case stationStateToElr st =>
    apply whenLive_agree
    simp

theorem exec_dc {c : Instr} (s : State) (block : blockOf c = .dc) : Yields (Agree dcMask) s (exec c s) := by
  have settled : ∀ {t : State}, dcMask t = dcMask s → dcMask (settle s t) = dcMask s :=
    fun h => (settle_dc s _).trans h
  cases c <;> try cases block
  case curveSwitchNotice w =>
    apply whenLive_agree
    rfl
  case runSecondsTick p =>
    apply whenDue_agree
    rfl
  case wellRecordDeliveryDc w d | stationStateToDc st | wellStateToDc w st | fallbackEntryDc w | fallbackExitDc w names =>
    apply whenLive_agree
    refine settled ?_
    simp [each_dc] <;> exact each_dc _ toFloat_dc _ _
  case driveStat src payload | pumpGrant p | pumpShed p =>
    apply whenLive_agree
    refine settled ?_
    dsimp only
    repeat' split
    all_goals simp
  case startDeadlineExpiry p | stopDeadlineExpiry p | backoffEnd p | restEnd p | skipEnd p | statusDeadlineExpiry p
      | minRunExpiry p | startHistoryAging p =>
    apply whenDue_agree
    refine settled ?_
    dsimp only
    split <;> simp
  case refreshExpiry p | commandRetry p | deadHeadExpiry p =>
    apply whenDue_agree
    refine settled ?_
    simp

/-! ## LP -/

/-- The state without what an arrival changes. -/
def lpMask (s : State) : State := { dcMask s with budget := State.reset.budget }

theorem lpMask_of_dc {s t : State} (h : dcMask t = dcMask s) : lpMask t = lpMask s := by
  unfold lpMask
  rw [h]

@[simp] theorem joinForward_lp (s : State) (f : RawFrame) : lpMask (joinForward s f) = lpMask s :=
  lpMask_of_dc (joinForward_dc s f)
@[simp] theorem refuse_lp (s : State) (p : Pump) (src : Addr) (seq : BitVec 6) (act : DriveAction) (why : RefusalReason) :
    lpMask (refuse s p src seq act why) = lpMask s := lpMask_of_dc (refuse_dc ..)

theorem immediateCharge_lp {s t : State} {p : Pump} (h : immediateCharge s p = some t) : lpMask t = lpMask s := by
  unfold immediateCharge at h
  dsimp only at h
  split at h
  · cases h
    rfl
  · cases h

@[simp] theorem police_lp (s : State) (p : Pump) (src : Addr) (claimed : Nat) (seq : BitVec 6) (act : DriveAction)
    (speed : Nat) : lpMask (police s p src claimed seq act speed).1 = lpMask s := by
  have stopped : lpMask (settle s (passStop s p)) = lpMask s := lpMask_of_dc ((settle_dc ..).trans (passStop_dc ..))
  have ran : ∀ t, lpMask (settle s (passRun t p src act speed)) = lpMask t :=
    fun t => lpMask_of_dc ((settle_dc ..).trans (passRun_dc ..))
  unfold police
  split
  · simp
  · cases act with
    | stop | float => exact stopped
    | run | reverse =>
      dsimp only
      split
      · simp
      · split
        · exact ran s
        · split
          · next charged => exact (ran _).trans (immediateCharge_lp charged)
          · simp

@[simp] theorem handFrame_lp (s : State) (f : RawFrame) : lpMask (handFrame s f) = lpMask s := by
  have raised : ∀ t b e, lpMask (t.raiseIf b e) = lpMask t := fun t b e => lpMask_of_dc (State.raiseIf_dc ..)
  unfold handFrame
  split <;> first | rfl | simp [handDriveStat, raised]

@[simp] theorem policeFrame_lp (s : State) (p : Pump) (f : RawFrame) : lpMask (policeFrame s p f).1 = lpMask s := by
  unfold policeFrame
  split
  · exact police_lp ..
  · rfl

@[simp] theorem consumeFrame_lp (s : State) (f : RawFrame) : lpMask (consumeFrame s f) = lpMask s := by
  unfold consumeFrame handRequest
  split
  · split <;> rfl
  · rfl
  · simp
  · simp

@[simp] theorem passFrame_lp (s : State) (f : RawFrame) : lpMask (passFrame s f) = lpMask s := by
  unfold passFrame
  split
  · dsimp only
    split <;> simp
  · simp

@[simp] theorem broadcastFrame_lp (s : State) (f : RawFrame) : lpMask (broadcastFrame s f) = lpMask s := by
  unfold broadcastFrame
  split
  · rfl
  · simp

@[simp] theorem arriveFrame_lp (s : State) (f : RawFrame) : lpMask (arriveFrame s f) = lpMask s := by
  have disposed : lpMask (disposeFrame (noteGood s) f) = lpMask (noteGood s) := by
    unfold disposeFrame
    repeat' split
    all_goals simp
  unfold arriveFrame
  split
  · dsimp only
    split
    · rfl
    · exact disposed
  · rfl

/-- The supply of the part comes or goes. -/
def powers (c : Instr) : Prop := (∃ strap, c = .powerOn strap) ∨ c = .powerLoss

theorem exec_lp {c : Instr} (s : State) (block : blockOf c = .lp) (steady : ¬ powers c) :
    Yields (Agree lpMask) s (exec c s) := by
  cases c <;> try cases block
  case powerOn strap => exact absurd (.inl ⟨strap, rfl⟩) steady
  case powerLoss => exact absurd (.inr rfl) steady
  case frameArrival f =>
    apply whenLive_agree
    exact arriveFrame_lp s f
  case forwardOnlyArrival f => exact yields_ite (R := Agree lpMask) rfl (joinForward_lp s f)
  case loopOutFree finished =>
    refine yields_ite (R := Agree lpMask) rfl ?_
    repeat' split
    all_goals rfl
  case silenceTimerExpiry =>
    apply whenDue_agree
    rfl

/-! ## MU -/

theorem onRequest_of {α : Type} {P : State → Prop} {s : State} {h : ReqHead} {args : Option α} {form : α → Bool} {need : Need}
    {f : State → Nat → α → State} (same : P s) (refused : ∀ r, P (respond s h r .none)) (taken : ∀ n a, P (f s n a)) :
    P (onRequest s h args form need f) := by
  unfold onRequest
  split
  · exact taken _ _
  · exact refused _
  · exact same

/-- The state without what a command of MU but a restart and a completed store write changes; of ELR such a command clears counts
alone. -/
def muMask (s : State) : State :=
  { s with
    lp := State.reset.lp, channels := State.reset.channels, nodes := State.reset.nodes, wells := State.reset.wells
    pumps := State.reset.pumps, duty := State.reset.duty, budget := State.reset.budget, screens := State.reset.screens
    points := State.reset.points, ssu := State.reset.ssu, mu := State.reset.mu, tables := State.reset.tables
    raised := State.reset.raised, free := State.reset.free, blanking := State.reset.blanking
    elr := { clearLost s.elr with badAcks := 0 } }

theorem muMask_of (mask : State → State) (within : ∀ u, muMask (mask u) = muMask u) {s t : State} (h : mask t = mask s) :
    muMask t = muMask s := by
  rw [← within t, h, within s]

@[simp] theorem respond_mu (s : State) (h : ReqHead) (result : ResultCode) (data : RspData) :
    muMask (respond s h result data) = muMask s := by
  rw [respond_eq]
  unfold answered
  split <;> rfl

@[simp] theorem completeCommit_mu (s : State) (t : TableId) : muMask (completeCommit s t) = muMask s :=
  muMask_of oaMask (fun _ => rfl) (completeCommit_oa s t)

@[simp] theorem applyGate_mu (s : State) (a : GateAction) (g : GateTarget) : muMask (applyGate s a g).1 = muMask s := by
  have dc : ∀ {t u : State}, dcMask t = dcMask u → muMask t = muMask u :=
    muMask_of dcMask fun _ => rfl
  have sc : ∀ {t u : State}, scMask t = scMask u → muMask t = muMask u :=
    muMask_of scMask fun _ => rfl
  have cu : ∀ {t u : State}, cuMask t = cuMask u → muMask t = muMask u :=
    muMask_of cuMask fun _ => rfl
  have su : ∀ {t u : State}, ssuMask t = ssuMask u → muMask t = muMask u :=
    muMask_of ssuMask fun _ => rfl
  have gate : ∀ x : State × Bool, dcMask x.1 = dcMask s → muMask (dutyGate s x).1 = muMask s := by
    intro x h
    unfold dutyGate
    split
    · exact dc ((settle_dc ..).trans h)
    · rfl
  unfold applyGate
  split
  · exact gate _ (pumpEnable_dc ..)
  · exact gate _ (pumpDisable_dc ..)
  · exact gate _ (pumpClear_dc ..)
  · exact gate _ (pumpRelease_dc ..)
  · exact gate _ (rotateGate_dc ..)
  · exact sc (rakeRun_sc ..)
  · exact sc (rakeEnable_sc ..)
  · exact sc (rakeDisable_sc ..)
  · exact sc (screenClear_sc ..)
  · exact cu (channelClear_cu ..)
  · exact cu (refCheck_cu ..)
  · exact su (forceStorm_su ..)
  · exact su (allowDry_su ..)
  · rfl

theorem moveWell_dc (s : State) (p : Pump) : dcMask (moveWell s p) = dcMask s := by
  unfold moveWell switchSilent
  dsimp only
  repeat' split
  all_goals simp

theorem moveDrive_dc (s : State) (p : Pump) : dcMask (moveDrive s p) = dcMask s := by
  unfold moveDrive switchSilent
  dsimp only
  split <;> simp

theorem switchPump_dc (old : Setup) (s : State) (p : Pump) : dcMask (switchPump old s p) = dcMask s := by
  simp [switchPump, moveKind, apply_ite dcMask, moveWell_dc, moveDrive_dc]

@[simp] theorem takeSetup_mu (before s : State) : muMask (takeSetup before s) = muMask s := by
  have wells : ∀ old t, muMask (State.each (switchWell old) Well.all t) = muMask t := by
    intro old t
    refine muMask_of wmuMask (fun _ => rfl) (each_wmu _ (fun s w => ?_) _ _)
    unfold switchWell
    dsimp only
    repeat' split
    all_goals simp
  have duty : ∀ old t, muMask (switchDuty old t) = muMask t := by
    intro old t
    have lower : ∀ u w, dcMask (lowerMaximum old u w) = dcMask u := by
      intro u w
      unfold lowerMaximum
      split
      · exact each_dc _ (fun u p => by unfold stopOver; split <;> simp) _ _
      · rfl
    have refit : ∀ u w, dcMask (refitWell old u w) = dcMask u := by
      intro u w
      unfold refitWell
      dsimp only
      split
      · exact each_dc _ (fun u p => by simp) _ _
      · exact (each_dc _ (fun u p => by unfold restageKept; split <;> simp) _ _).trans (each_dc _ (fun u p => by simp) _ _)
    refine muMask_of dcMask (fun _ => rfl) (?_ : dcMask _ = dcMask t)
    unfold switchDuty
    exact (each_dc _ evaluateWithin_dc _ _).trans ((each_dc _ refit _ _).trans ((each_dc _ lower _ _).trans
      (each_dc _ (switchPump_dc old) _ _)))
  have budget : ∀ old t, muMask (switchBudget old t) = muMask t := by
    intro old t
    refine muMask_of sbMask (fun _ => rfl) (?_ : sbMask _ = sbMask t)
    exact (examine_sb _).trans (capacityChange_sb _ _)
  have settled : ∀ b t, muMask (settle b t) = muMask t := fun b t => muMask_of dcMask (fun _ => rfl) (settle_dc b t)
  have screens : ∀ old t, muMask (switchScreens old t) = muMask t :=
    fun old t => muMask_of scMask (fun _ => rfl) (switchScreens_sc old t)
  have station : ∀ t, muMask (switchStation t) = muMask t := fun t => muMask_of ssuMask (fun _ => rfl) (switchStation_su t)
  unfold takeSetup
  rw [station, screens, budget, settled, duty, wells]

@[simp] theorem arrange_mu (s : State) (id : TableId) : muMask (arrange s id) = muMask s := by
  cases id with
  | sampleMap =>
    have taken : ∀ old t, muMask (takeSampleMap old t) = muMask t :=
      fun old t => muMask_of cuMask (fun _ => rfl) (takeSampleMap_cu old t)
    simp [arrange, taken]
  | stationSetup => simp [arrange]
  | gates | sources => simp [arrange]
  | levelVolume w => rfl
  | pumpCurves => rfl
  | weir =>
    refine muMask_of oaMask (fun _ => rfl) (?_ : oaMask _ = oaMask s)
    exact each_oa _ (fun s o => by split <;> simp) _ _

@[simp] theorem commitTable_mu (s : State) (h : ReqHead) (id : TableId) : muMask (commitTable s h id) = muMask s := by
  have scheduled : muMask (scheduleCommit s h id) = muMask s := (arrange_mu _ _).trans rfl
  unfold commitTable
  repeat' split
  all_goals first | exact respond_mu .. | exact scheduled

/-- A command that may restart the part. -/
def restarts (c : Instr) : Prop := (∃ h args, c = .restart h args) ∨ c = .deferredRestart

theorem exec_mu {c : Instr} (s : State) (block : blockOf c = .mu) (stays : ¬ restarts c) (store : c ≠ .storeWriteComplete) :
    Yields (Agree muMask) s (exec c s) := by
  have request : ∀ {α : Type} {h : ReqHead} {args : Option α} {form : α → Bool} {need : Need}
      {f : State → Nat → α → State}, (∀ n a, muMask (f s n a) = muMask s) →
      muMask (onRequest s h args form need f) = muMask s :=
    fun taken => onRequest_of (P := fun t => muMask t = muMask s) rfl (fun r => respond_mu ..) taken
  cases c <;> try cases block
  case restart h args => exact absurd (.inl ⟨h, args, rfl⟩) stays
  case deferredRestart => exact absurd (.inr rfl) stays
  case storeWriteComplete => exact absurd rfl store
  case tableWrite h args =>
    apply whenLive_agree
    refine request fun n a => ?_
    unfold writeTable
    split
    · simp
    · exact (respond_mu ..).trans rfl
  case tableRead h args | readRecord h args =>
    apply whenLive_agree
    exact request fun n a => respond_mu ..
  case tableDiscard h args =>
    apply whenLive_agree
    refine request fun n a => ?_
    split
    · simp
    · exact (respond_mu ..).trans rfl
  case tableCommit h args =>
    apply whenLive_agree
    exact request fun n a => commitTable_mu ..
  case invokeGate h args =>
    apply whenLive_agree
    refine request fun n a => ?_
    have run : ∀ g, muMask (runGate s h g) = muMask s := by
      intro g
      unfold runGate
      split <;> simp
    unfold invoke
    repeat' split
    all_goals first | exact respond_mu .. | exact run _
  case setLockLevel h args | setTime h args | clearCounters h args =>
    apply whenLive_agree
    exact request fun n a => (respond_mu ..).trans rfl
  case clockAdvance =>
    apply whenDue_agree
    rfl

/-! ## A reset of every block, and the store -/

/-- The state without all but its power, mode, store and pending commands. -/
def bootMask (s : State) : State :=
  { State.reset with powered := s.powered, mode := s.mode, store := s.store, pending := s.pending }

@[simp] theorem bootFrames_boot (s : State) : bootMask (bootFrames s) = bootMask s := by
  have cadences : ∀ t, cuMask (offerCadenceAll t) = cuMask t := offerCadenceAll_cu
  have floats : ∀ t, dcMask (offerFloats t) = dcMask t :=
    fun t => each_dc _ (fun s p => by split <;> simp) _ _
  have wide_dc : ∀ t, bootMask (dcMask t) = bootMask t := fun _ => rfl
  have wide_cu : ∀ t, bootMask (cuMask t) = bootMask t := fun _ => rfl
  unfold bootFrames
  rw [← wide_dc, floats, wide_dc, ← wide_cu, cadences, wide_cu]
  rfl

@[simp] theorem respond_boot (s : State) (h : ReqHead) (result : ResultCode) (data : RspData) :
    bootMask (respond s h result data) = bootMask s := by
  rw [respond_eq]
  unfold answered
  split <;> rfl

@[simp] theorem restartNow_boot (s : State) (h : ReqHead) : bootMask (restartNow s h) = bootMask s := by
  have raised : ∀ t b e, bootMask (State.raiseIf t b e) = bootMask t := by
    intro t b e
    cases b <;> rfl
  unfold restartNow restartPart
  dsimp only
  rw [respond_boot, bootFrames_boot, raised]
  rfl

theorem exec_restarts {c : Instr} (s : State) (restart : restarts c) : Yields (Agree bootMask) s (exec c s) := by
  obtain ⟨h, args, rfl⟩ | rfl := restart
  · apply whenLive_agree
    refine onRequest_of (P := fun t => bootMask t = bootMask s) rfl (fun r => respond_boot ..) fun n a => ?_
    dsimp only
    split
    · rfl
    · exact restartNow_boot s h
  · apply whenLive_agree
    repeat' split
    all_goals simp

/-- The state without what a completed store write changes. -/
def storeMask (s : State) : State :=
  { s with lp := State.reset.lp, mu := State.reset.mu, store := State.reset.store, raised := State.reset.raised }

theorem exec_storeWriteComplete (s : State) : Yields (Agree storeMask) s (exec .storeWriteComplete s) := by
  apply whenLive_agree
  have answered : ∀ t h r d, storeMask (respond t h r d) = storeMask t := by
    intro t h r d
    rw [respond_eq]
    unfold Machine.answered
    split <;> rfl
  split
  · unfold finishStore
    dsimp only
    split
    · rfl
    · exact (answered _ _ _ _).trans rfl
  · rfl

/-! ## A command's effect on every record but those its block owns -/

theorem frame_of_cu {s t : State} (h : cuMask t = cuMask s) : t = { s with
    lp := t.lp, channels := t.channels, nodes := t.nodes, blanking := t.blanking, raised := t.raised } := by
  cases s; cases t; simp_all [cuMask]
theorem frame_of_wmu {s t : State} (h : wmuMask t = wmuMask s) : t = { s with
    wells := t.wells, raised := t.raised, tables := t.tables, mu := t.mu, free := t.free } := by
  cases s; cases t; simp_all [wmuMask]
theorem frame_of_dc {s t : State} (h : dcMask t = dcMask s) : t = { s with
    lp := t.lp, pumps := t.pumps, duty := t.duty, raised := t.raised } := by
  cases s; cases t; simp_all [dcMask]
theorem frame_of_sb {s t : State} (h : sbMask t = sbMask s) : t = { s with
    budget := t.budget, raised := t.raised } := by
  cases s; cases t; simp_all [sbMask]
theorem frame_of_sc {s t : State} (h : scHourMask t = scHourMask s) : t = { s with
    lp := t.lp, screens := t.screens, hourAt := t.hourAt, raised := t.raised } := by
  cases s; cases t; simp_all [scHourMask, scMask]
theorem frame_of_oa {s t : State} (h : oaMask t = oaMask s) : t = { s with
    points := t.points, raised := t.raised, tables := t.tables, mu := t.mu, free := t.free } := by
  cases s; cases t; simp_all [oaMask]
theorem frame_of_su {s t : State} (h : ssuMask t = ssuMask s) : t = { s with ssu := t.ssu, raised := t.raised } := by
  cases s; cases t; simp_all [ssuMask]
theorem frame_of_el {s t : State} (h : elrMask t = elrMask s) : t = { s with
    lp := t.lp, elr := t.elr, raised := t.raised } := by
  cases s; cases t; simp_all [elrMask]
theorem frame_of_lp {s t : State} (h : lpMask t = lpMask s) : t = { s with
    lp := t.lp, pumps := t.pumps, duty := t.duty, budget := t.budget, raised := t.raised } := by
  cases s; cases t; simp_all [lpMask, dcMask]

/-- Settles O11: each block's operations keep what its mask leaves. -/
theorem commandsKeepTheRest : Obligations.CommandsKeepTheRest := by
  intro c s
  refine ⟨fun h => ?_, fun h => ?_, fun h => ?_, fun h => ?_, fun h => ?_, fun h => ?_, fun h => ?_, fun h => ?_⟩
  · obtain ⟨t, out, kept⟩ := exec_cu s h
    exact ⟨t, out, frame_of_cu kept⟩
  · obtain ⟨t, out, kept⟩ := exec_wmu s h
    exact ⟨t, out, frame_of_wmu kept⟩
  · obtain ⟨t, out, kept⟩ := exec_dc s h
    exact ⟨t, out, frame_of_dc kept⟩
  · obtain ⟨t, out, kept⟩ := exec_sb s h
    exact ⟨t, out, frame_of_sb kept⟩
  · obtain ⟨t, out, kept⟩ := exec_sc s h
    exact ⟨t, out, frame_of_sc kept⟩
  · obtain ⟨t, out, kept⟩ := exec_oa s h
    exact ⟨t, out, frame_of_oa kept⟩
  · obtain ⟨t, out, kept⟩ := exec_ssu s h
    exact ⟨t, out, frame_of_su kept⟩
  · obtain ⟨t, out, kept⟩ := exec_elr s h
    exact ⟨t, out, frame_of_el kept⟩

/-! ## What every command keeps -/

theorem eq_of_mask (mask : State → State) {α : Type} (g : State → α) (seen : ∀ u, g (mask u) = g u) {s t : State}
    (h : mask t = mask s) : g t = g s := by
  rw [← seen t, h, seen s]

theorem losePower_pending (s : State) : (losePower s).pending = s.pending := by
  have torn : (tearStore s).pending = s.pending := by
    unfold tearStore
    split <;> rfl
  exact torn

theorem bootFrames_keeps (s : State) :
    (bootFrames s).store = s.store ∧ (bootFrames s).pending = s.pending :=
  ⟨eq_of_mask bootMask State.store (fun _ => rfl) (bootFrames_boot s),
    eq_of_mask bootMask State.pending (fun _ => rfl) (bootFrames_boot s)⟩

theorem bootPart_keeps (s : State) (strap : BitVec 6) :
    (bootPart s strap).store = s.store ∧ (bootPart s strap).pending = s.pending := by
  unfold bootPart
  split
  · exact bootFrames_keeps _
  · exact ⟨rfl, rfl⟩

/-- A power-on of a powered part is a loss of power first. -/
theorem exec_powerOn (s : State) (strap : BitVec 6) :
    exec (.powerOn strap) s = .next (bootPart (if s.powered then losePower s else s) strap) := rfl
theorem exec_powerLoss (s : State) : exec .powerLoss s = .next (if s.powered then losePower s else s) := rfl

theorem exec_powers {c : Instr} (s : State) (power : powers c) : Yields (fun s t => t.pending = s.pending) s (exec c s) := by
  have lost : (if s.powered then losePower s else s).pending = s.pending := by
    split
    · exact losePower_pending s
    · rfl
  obtain ⟨strap, rfl⟩ | rfl := power
  · exact ⟨_, exec_powerOn s strap, (bootPart_keeps _ strap).2.trans lost⟩
  · exact ⟨_, exec_powerLoss s, lost⟩

/-- The ways in which a command can change the part. -/
theorem exec_yields {c : Instr} (s : State) {R : State → State → Prop}
    (cu : ∀ t, blockOf c = .cu → cuMask t = cuMask s → exec c s = .next t → R s t)
    (wmu : ∀ t, blockOf c = .wmu → wmuMask t = wmuMask s → exec c s = .next t → R s t)
    (dc : ∀ t, blockOf c = .dc → dcMask t = dcMask s → exec c s = .next t → R s t)
    (sb : ∀ t, blockOf c = .sb → sbMask t = sbMask s → exec c s = .next t → R s t)
    (sc : ∀ t, blockOf c = .sc → scHourMask t = scHourMask s → exec c s = .next t → R s t)
    (oa : ∀ t, blockOf c = .oa → oaMask t = oaMask s → exec c s = .next t → R s t)
    (su : ∀ t, blockOf c = .ssu → ssuMask t = ssuMask s → exec c s = .next t → R s t)
    (el : ∀ t, blockOf c = .elr → elrMask t = elrMask s → exec c s = .next t → R s t)
    (lp : ∀ t, ¬ powers c → lpMask t = lpMask s → exec c s = .next t → R s t)
    (mu : ∀ t, blockOf c = .mu → ¬ restarts c → c ≠ .storeWriteComplete → muMask t = muMask s → exec c s = .next t → R s t)
    (power : powers c → Yields R s (exec c s)) (restart : restarts c → Yields R s (exec c s))
    (store : c = .storeWriteComplete → Yields R s (exec c s)) : Yields R s (exec c s) := by
  have lift : ∀ {mask : State → State}, Yields (Agree mask) s (exec c s) →
      (∀ t, mask t = mask s → exec c s = .next t → R s t) → Yields R s (exec c s) := by
    intro mask ⟨t, out, kept⟩ imp
    exact ⟨t, out, imp t kept out⟩
  cases h : blockOf c with
  | cu => exact lift (exec_cu s h) fun t => cu t h
  | wmu => exact lift (exec_wmu s h) fun t => wmu t h
  | dc => exact lift (exec_dc s h) fun t => dc t h
  | sb => exact lift (exec_sb s h) fun t => sb t h
  | sc => exact lift (exec_sc s h) fun t => sc t h
  | oa => exact lift (exec_oa s h) fun t => oa t h
  | ssu => exact lift (exec_ssu s h) fun t => su t h
  | elr => exact lift (exec_elr s h) fun t => el t h
  | lp =>
    by_cases p : powers c
    · exact power p
    · exact lift (exec_lp s h p) fun t => lp t p
  | mu =>
    by_cases r : restarts c
    · exact restart r
    · by_cases w : c = .storeWriteComplete
      · exact store w
      · exact lift (exec_mu s h r w) fun t => mu t h r w

/-- Settles O3: what a command changes leaves the pending commands out, whatever its block. -/
theorem everyCommandCompletes : Obligations.EveryCommandCompletes := by
  intro c s
  have kept : ∀ (mask : State → State), (∀ u : State, (mask u).pending = u.pending) →
      ∀ {t : State}, mask t = mask s → t.pending = s.pending := fun mask seen _ => eq_of_mask mask State.pending seen
  refine exec_yields s (R := fun s t => t.pending = s.pending)
    (fun t _ h _ => kept cuMask (fun _ => rfl) h) (fun t _ h _ => kept wmuMask (fun _ => rfl) h)
    (fun t _ h _ => kept dcMask (fun _ => rfl) h) (fun t _ h _ => kept sbMask (fun _ => rfl) h)
    (fun t _ h _ => kept scHourMask (fun _ => rfl) h) (fun t _ h _ => kept oaMask (fun _ => rfl) h)
    (fun t _ h _ => kept ssuMask (fun _ => rfl) h) (fun t _ h _ => kept elrMask (fun _ => rfl) h)
    (fun t _ h _ => kept lpMask (fun _ => rfl) h) (fun t _ _ _ h _ => kept muMask (fun _ => rfl) h)
    (exec_powers s) ?_ ?_
  · exact fun r => (exec_restarts s r).mono fun t h => kept bootMask (fun _ => rfl) h
  · rintro rfl
    exact (exec_storeWriteComplete s).mono fun t h => kept storeMask (fun _ => rfl) h

/-! ## The tables (R181): but for MU, only an exchange of banks other than the Station Setup's changes them -/

theorem integrate_tables (s : State) (w : Well) : (integrate s w).tables = s.tables := by
  unfold integrate
  split <;> rfl

section Exchanges

variable {P : Tables → Prop} (exchanged : ∀ t id, id ≠ .stationSetup → P t → P (exchangeTable t id))
include exchanged

theorem completeCommit_tables {s : State} {id : TableId} (other : id ≠ .stationSetup) (h : P s.tables) :
    P (completeCommit s id).tables := by
  unfold completeCommit
  split
  · exact exchanged _ _ other h
  · exact h

theorem takeWeir_tables {s : State} {o : Point} (h : P s.tables) : P (takeWeir s o).tables := by
  unfold takeWeir
  dsimp only
  split
  · split
    · exact completeCommit_tables exchanged (by simp) h
    · exact h
  · exact h

theorem takeLevelVolume_tables {s : State} {w : Well} (h : P s.tables) : P (takeLevelVolume s w).tables := by
  have volume : ∀ t, (recomputeVolume t w).tables = t.tables := by
    intro t
    unfold recomputeVolume
    split <;> rfl
  have balance : ∀ t, (recomputeBalance t w).tables = t.tables := by
    intro t
    unfold recomputeBalance
    split <;> rfl
  unfold takeLevelVolume
  dsimp only
  split
  · rw [volume, balance]
    exact completeCommit_tables exchanged (by simp) h
  · exact h

theorem takeCurves_tables {s : State} {w : Well} (h : P s.tables) : P (takeCurves s w).tables := by
  unfold takeCurves
  dsimp only
  split
  · split
    · exact completeCommit_tables exchanged (by simp) h
    · exact h
  · exact h

theorem balanceEvent_tables {s : State} {w : Well} (h : P s.tables) : P (balanceEvent s w).tables := by
  have step : ∀ t, (balanceStep t w).tables = t.tables := by
    intro t
    unfold balanceStep
    dsimp only
    split
    · rfl
    · split <;> rfl
  show P (balanceStep (takeCurves (integrate (takeLevelVolume s w) w) w) w).tables
  rw [step]
  refine takeCurves_tables exchanged ?_
  rw [integrate_tables]
  exact takeLevelVolume_tables exchanged h

theorem takeSample_tables {s : State} {o : Point} {level : Int} {time : Ms} (h : P s.tables) :
    P (takeSample s o level time).tables := by
  have causes : ∀ t, (evaluateCauses t o).tables = t.tables := fun _ => rfl
  have state : ∀ t v, (sampleByState t o v).tables = t.tables := by
    intro t v
    unfold sampleByState sampleTentative sampleOpen sampleClosing sampleDry
    dsimp only
    repeat' split
    all_goals rfl
  show P (sampleByState (evaluateCauses _ o) o _).tables
  rw [state, causes]
  exact takeWeir_tables exchanged h

theorem takeNotice_tables {s : State} {o : Point} {q : Quality} (h : P s.tables) : P (takeNotice s o q).tables := by
  unfold takeNotice
  dsimp only
  split
  · exact h
  · show P (if q = .lost ∨ q = .suspect then takeWeir s o else s).tables
    split
    · exact takeWeir_tables exchanged h
    · exact h

theorem exec_oa_tables {c : Instr} {s t : State} (block : blockOf c = .oa) (out : exec c s = .next t) (h : P s.tables) :
    P t.tables := by
  refine Yields.of_next (R := fun s t => P t.tables) (s := s) ?_ out
  cases c <;> try cases block
  case wellRecordDeliveryOa w d | wellStateToOa w st =>
    apply whenLive_yields (R := fun s t => P t.tables)
    · exact h
    · exact h
  case overflowLevelUpdate o u =>
    apply whenLive_yields (R := fun s t => P t.tables)
    · exact h
    · split
      · exact takeSample_tables exchanged h
      · exact takeNotice_tables exchanged h

theorem exec_wmu_tables {c : Instr} {s t : State} (block : blockOf c = .wmu) (out : exec c s = .next t) (h : P s.tables) :
    P t.tables := by
  refine Yields.of_next (R := fun s t => P t.tables) (s := s) ?_ out
  cases c <;> try cases block
  case levelSelection q u first second =>
    apply whenLive_yields (R := fun s t => P t.tables)
    · exact h
    · split
      · show P (integrate _ _).tables
        rw [integrate_tables, State.raiseIf_tables]
        exact h
      · exact h
  case disagreeTimeout w =>
    apply whenDue_yields (R := fun s t => P t.tables)
    · exact h
    · exact h
  case pumpFlowNotice p left =>
    apply whenLive_yields (R := fun s t => P t.tables)
    · exact h
    · dsimp only
      repeat' split
      all_goals simpa only [integrate_tables] using h
  case balanceExpiry w =>
    apply whenDue_yields (R := fun s t => P t.tables)
    · exact h
    · exact balanceEvent_tables exchanged h

end Exchanges

/-! ## The Station Setup and the store change rarely -/

theorem exchangeTable_setup (t : Tables) {id : TableId} (other : id ≠ .stationSetup) :
    (exchangeTable t id).setup = t.setup := by
  cases id <;> first | rfl | exact absurd rfl other

theorem putEntry_setup (t : Tables) (id : TableId) (sect : Section) (i : Nat) (e : TableEntry) :
    (putEntry t id sect i e).setup.active = t.setup.active := by
  unfold putEntry
  split <;> rfl

theorem writeEntries_setup (id : TableId) (sect : Section) (dir : Direction) (es : List TableEntry) :
    ∀ (start : Option Nat) (t : Tables), (writeEntries id sect dir start es t).1.setup.active = t.setup.active := by
  induction es with
  | nil => intro start t; cases start <;> rfl
  | cons e es ih =>
    intro start t
    cases start with
    | none => rfl
    | some i =>
      unfold writeEntries
      split
      · exact (ih _ _).trans (putEntry_setup ..)
      · rfl

theorem respond_tables (s : State) (h : ReqHead) (result : ResultCode) (data : RspData) :
    (respond s h result data).tables = s.tables := by
  rw [respond_eq]
  unfold answered
  split <;> rfl

theorem applyGate_tables (s : State) (a : GateAction) (g : GateTarget) : (applyGate s a g).1.tables = s.tables := by
  have gate : ∀ x : State × Bool, dcMask x.1 = dcMask s → (dutyGate s x).1.tables = s.tables := by
    intro x h
    unfold dutyGate
    split
    · exact eq_of_mask dcMask State.tables (fun _ => rfl) ((settle_dc ..).trans h)
    · rfl
  unfold applyGate
  split
  · exact gate _ (pumpEnable_dc ..)
  · exact gate _ (pumpDisable_dc ..)
  · exact gate _ (pumpClear_dc ..)
  · exact gate _ (pumpRelease_dc ..)
  · exact gate _ (rotateGate_dc ..)
  · exact eq_of_mask scMask State.tables (fun _ => rfl) (rakeRun_sc ..)
  · exact eq_of_mask scMask State.tables (fun _ => rfl) (rakeEnable_sc ..)
  · exact eq_of_mask scMask State.tables (fun _ => rfl) (rakeDisable_sc ..)
  · exact eq_of_mask scMask State.tables (fun _ => rfl) (screenClear_sc ..)
  · exact eq_of_mask cuMask State.tables (fun _ => rfl) (channelClear_cu ..)
  · exact eq_of_mask cuMask State.tables (fun _ => rfl) (refCheck_cu ..)
  · exact eq_of_mask ssuMask State.tables (fun _ => rfl) (forceStorm_su ..)
  · exact eq_of_mask ssuMask State.tables (fun _ => rfl) (allowDry_su ..)
  · rfl

/-- What a command of MU that neither commits nor restarts can do to the tables: a write or a discard of an inactive bank. -/
theorem exec_mu_tables {P : Tables → Prop} {c : Instr} {s t : State} (block : blockOf c = .mu) (stays : ¬ restarts c)
    (out : exec c s = .next t) (commits : (∃ h id, c = .tableCommit h (some id)) → P t.tables) (h : P s.tables)
    (discarded : ∀ id, P (discardTable s.tables id))
    (written : ∀ a : WriteArgs, P (writeEntries a.table a.sect a.direction (some a.start) a.entries s.tables).1) :
    P t.tables := by
  have same : ∀ {u : State} {g r d}, P u.tables → P (respond u g r d).tables := by
    intro u g r d k
    rwa [respond_tables]
  have request : ∀ {α : Type} {g : ReqHead} {args : Option α} {form : α → Bool} {need : Need}
      {f : State → Nat → α → State}, (∀ n a, P (f s n a).tables) →
      P (onRequest s g args form need f).tables :=
    fun taken => onRequest_of (P := fun t => P t.tables) h (fun r => same h) taken
  have live : ∀ {f : State → State}, P (f s).tables → Yields (fun s t => P t.tables) s (whenLive s f) :=
    fun k => whenLive_yields (R := fun s t => P t.tables) h k
  cases c <;> try cases block
  case restart g args => exact absurd (.inl ⟨g, args, rfl⟩) stays
  case deferredRestart => exact absurd (.inr rfl) stays
  case tableCommit g args =>
    cases args with
    | none =>
      refine Yields.of_next (R := fun s t => P t.tables) (s := s) ?_ out
      apply live
      unfold onRequest
      split
      · next absent => cases absent
      · exact same h
      · exact h
    | some id => exact commits ⟨g, id, rfl⟩
  all_goals refine Yields.of_next (R := fun s t => P t.tables) (s := s) ?_ out
  case tableWrite g args =>
    apply live
    refine request fun n a => ?_
    unfold writeTable
    split
    · exact same h
    · exact same (written a)
  case tableRead g args | readRecord g args =>
    apply live
    exact request fun n a => same h
  case tableDiscard g args =>
    apply live
    refine request fun n a => ?_
    split
    · exact same h
    · exact same (discarded a)
  case invokeGate g args =>
    apply live
    refine request fun n a => ?_
    have run : ∀ x, P (runGate s g x).tables := by
      intro x
      unfold runGate
      split
      · exact same (by rwa [applyGate_tables])
      · exact same h
    unfold invoke
    repeat' split
    all_goals first | exact same h | exact run _
  case setLockLevel g args | setTime g args | clearCounters g args =>
    apply live
    exact request fun n a => same h
  case storeWriteComplete =>
    apply live
    split
    · unfold finishStore
      dsimp only
      split
      · exact h
      · exact same h
    · exact h
  case clockAdvance =>
    apply whenDue_yields (R := fun s t => P t.tables)
    · exact h
    · exact h

theorem exec_keeps_setup {c : Instr} {s : State} (commit : ∀ h args, c ≠ .tableCommit h args) (restart : ¬ restarts c)
    (power : ¬ powers c) : Yields (fun s t => t.setup = s.setup) s (exec c s) := by
  have kept : ∀ (mask : State → State), (∀ u : State, (mask u).setup = u.setup) →
      ∀ {s t : State}, mask t = mask s → t.setup = s.setup := fun mask seen _ _ => eq_of_mask mask State.setup seen
  have exchanged : ∀ (t : Tables) (id : TableId), id ≠ .stationSetup → t.setup = s.tables.setup →
      (exchangeTable t id).setup = s.tables.setup := fun t id other h => (exchangeTable_setup t other).trans h
  have same : ∀ {t : State}, t.tables.setup = s.tables.setup → t.setup = s.setup := fun h => congrArg Banks.active h
  refine exec_yields s (R := fun s t => t.setup = s.setup)
    (fun t _ h _ => kept cuMask (fun _ => rfl) h) (fun t b _ out => ?wmu) (fun t _ h _ => kept dcMask (fun _ => rfl) h)
    (fun t _ h _ => kept sbMask (fun _ => rfl) h) (fun t _ h _ => kept scHourMask (fun _ => rfl) h)
    (fun t b _ out => ?oa) (fun t _ h _ => kept ssuMask (fun _ => rfl) h) (fun t _ h _ => kept elrMask (fun _ => rfl) h)
    (fun t _ h _ => kept lpMask (fun _ => rfl) h) (fun t b r w h out => ?mu) (fun p => absurd p power)
    (fun r => absurd r restart) ?store
  case wmu => exact same (exec_wmu_tables (P := fun t => t.setup = s.tables.setup) exchanged b out rfl)
  case oa => exact same (exec_oa_tables (P := fun t => t.setup = s.tables.setup) exchanged b out rfl)
  case mu =>
    refine exec_mu_tables (P := fun t => t.setup.active = s.tables.setup.active) b r out ?_ rfl ?_ ?_
    · exact fun ⟨h, id, e⟩ => absurd e (commit h _)
    · intro id
      cases id <;> rfl
    · exact fun a => writeEntries_setup ..
  case store =>
    rintro rfl
    exact (exec_storeWriteComplete s).mono fun t h => kept storeMask (fun _ => rfl) h

theorem exec_keeps_store {c : Instr} {s : State} (write : c ≠ .storeWriteComplete) (power : ¬ powers c) :
    Yields (fun s t => t.store = s.store) s (exec c s) := by
  have kept : ∀ (mask : State → State), (∀ u : State, (mask u).store = u.store) →
      ∀ {s t : State}, mask t = mask s → t.store = s.store := fun mask seen _ _ => eq_of_mask mask State.store seen
  refine exec_yields s (R := fun s t => t.store = s.store)
    (fun t _ h _ => kept cuMask (fun _ => rfl) h) (fun t _ h _ => kept wmuMask (fun _ => rfl) h)
    (fun t _ h _ => kept dcMask (fun _ => rfl) h) (fun t _ h _ => kept sbMask (fun _ => rfl) h)
    (fun t _ h _ => kept scHourMask (fun _ => rfl) h) (fun t _ h _ => kept oaMask (fun _ => rfl) h)
    (fun t _ h _ => kept ssuMask (fun _ => rfl) h) (fun t _ h _ => kept elrMask (fun _ => rfl) h)
    (fun t _ h _ => kept lpMask (fun _ => rfl) h) (fun t _ _ _ h _ => kept muMask (fun _ => rfl) h)
    (fun p => absurd p power) ?_ (fun w => absurd w write)
  exact fun r => (exec_restarts s r).mono fun t h => kept bootMask (fun _ => rfl) h

/-- Settles O10. -/
theorem setupAndStoreChangeRarely : Obligations.SetupAndStoreChangeRarely := by
  have notPower : ∀ {c : Instr}, (∀ strap, c ≠ .powerOn strap) → c ≠ .powerLoss → ¬ powers c := by
    rintro c on off (⟨strap, rfl⟩ | rfl)
    · exact on strap rfl
    · exact off rfl
  have notRestart : ∀ {c : Instr}, (∀ h args, c ≠ .restart h args) → c ≠ .deferredRestart → ¬ restarts c := by
    rintro c restart deferred (⟨h, args, rfl⟩ | rfl)
    · exact restart h args rfl
    · exact deferred rfl
  exact fun c s t out =>
    ⟨fun commit restart deferred on off =>
      (exec_keeps_setup commit (notRestart restart deferred) (notPower on off)).of_next out,
    fun write off on => (exec_keeps_store write (notPower on off)).of_next out⟩

end Commands

end Sys2Proof.Machine
end


section
/-! PROOF. The step: the command at the front, the timers that a millisecond makes due, and the choice at LOOP OUT. -/

namespace Sys2Proof.Machine

section Step

/-- Settles O1. -/
theorem stepRunsFrontCommand : Obligations.StepRunsFrontCommand := by
  intro c rest s waits
  unfold step
  rw [waits]

/-! ## The timers that are due -/

@[simp] theorem mem_eventIf {b : Bool} {e x : Instr} : x ∈ eventIf b e ↔ b = true ∧ x = e := by
  cases b <;> simp [eventIf]

@[simp] theorem Quantity.mem_all (q : Quantity) : q ∈ Quantity.all := by cases q <;> decide
@[simp] theorem Well.mem_all (w : Well) : w ∈ Well.all := by cases w <;> decide
@[simp] theorem Pump.mem_all (p : Pump) : p ∈ Pump.all := by cases p <;> decide
@[simp] theorem Screen.mem_all (k : Screen) : k ∈ Screen.all := by cases k <;> decide
@[simp] theorem Point.mem_all (o : Point) : o ∈ Point.all := by cases o <;> decide

variable (s : State) (e : Instr)

@[simp] theorem mem_dueWait (p : Pump) : e ∈ dueWait s p ↔ due (s.pump p).waitEnd s.now = true
    ∧ ((s.pump p).state = .backoff ∧ e = .backoffEnd p ∨ (s.pump p).state = .resting ∧ e = .restEnd p
      ∨ (s.pump p).state = .unavailable .skipped ∧ e = .skipEnd p) := by
  unfold dueWait
  split
  · split <;> simp_all
  · simp_all

@[simp] theorem mem_dueJam (k : Screen) : e ∈ dueJam s k ↔ due (s.screen k).jamAt s.now = true
    ∧ ((s.screen k).state = .jamReverse ∧ e = .reverseEnd k ∨ (s.screen k).state = .jamPause ∧ e = .pauseEnd k) := by
  unfold dueJam
  split
  · split <;> simp_all
  · simp_all

@[simp] theorem mem_dueStore :
    e ∈ dueStore s ↔ (∃ id h d, s.mu.commit = .storing id h d ∧ d ≤ s.now) ∧ e = .storeWriteComplete := by
  unfold dueStore
  split
  · next id h d storing => simp [storing]
  · next idle => simpa using fun id h d storing => (idle id h d storing).elim

theorem due_referenceTimeoutAt (r : ChannelRecord) (now : Ms) :
    due (referenceTimeoutAt r) now = true ↔ ∃ x, r.awaiting = some x ∧ x + 60000 ≤ now := by
  cases h : r.awaiting <;> simp [referenceTimeoutAt, due, h]

theorem due_disagreeAt (r : WellRecord) (now : Ms) :
    due (disagreeAt r) now = true ↔ ∃ x, r.episode = .timing x ∧ x + 60000 ≤ now := by
  cases h : r.episode <;> simp [disagreeAt, due, h]

theorem due_agingAt (r : PumpRecord) (now : Ms) :
    due (agingAt r) now = true ↔ ∃ x, r.history.head? = some x ∧ x + 3600000 ≤ now := by
  cases h : r.history.head? <;> simp [agingAt, due, h]

theorem minRunAt_eq_some (p : Pump) (now : Ms) : minRunAt s p = some now ↔
    ∃ x, (s.pump p).runStart = some x ∧ x + (s.setup.minRun.get p).toNat * 1000 = now := by
  simp [minRunAt]

/-- A timer is among those raised exactly when its rule makes it due. -/
theorem mem_dueEvents : e ∈ dueEvents s ↔ timerDue s e := by
  have members : e ∈ dueEvents s ↔
      e ∈ eventIf (due s.mu.clockAt s.now) .clockAdvance ∨ e ∈ eventIf (due s.lp.silenceAt s.now) .silenceTimerExpiry
      ∨ (∃ q, e ∈ dueChannel s q) ∨ (∃ c ∈ s.nodes, e ∈ dueNode s c) ∨ (∃ w, e ∈ dueWell s w) ∨ (∃ p, e ∈ duePump s p)
      ∨ (∃ k, e ∈ dueScreen s k) ∨ e ∈ eventIf (due s.hourAt s.now) .hourTimerExpiry
      ∨ e ∈ eventIf (due s.ssu.holdAt s.now) .holdTimerExpiry ∨ e ∈ eventIf (due s.elr.sendRetryAt s.now) .reportRetry
      ∨ e ∈ eventIf (due s.elr.reportAt s.now) .reportTimerExpiry
      ∨ e ∈ eventIf (due s.elr.statusAt s.now) .statusTimerExpiry
      ∨ e ∈ eventIf (due s.elr.partRetryAt s.now) .statusPartRetry ∨ e ∈ dueStore s := by
    simp [dueEvents]
  rw [members]
  simp only [dueChannel, dueNode, dueWell, duePump, dueScreen, List.mem_flatten, List.mem_cons, List.not_mem_nil, or_false,
    exists_eq_or_imp, exists_eq_left, mem_eventIf, mem_dueWait, mem_dueJam, mem_dueStore, Bool.and_eq_true, beq_iff_eq,
    due_referenceTimeoutAt, due_disagreeAt, due_agingAt, minRunAt_eq_some]
  have node : ∀ (P : CadenceState → Prop) n, (∃ c ∈ s.nodes, P c ∧ n = c.node) ↔ ∃ c ∈ s.nodes, c.node = n ∧ P c :=
    fun P n => exists_congr fun c => and_congr_right fun _ => and_comm.trans (and_congr_left fun _ => eq_comm)
  cases e <;> simp [timerDue, node]

theorem timerDue_raised (es : List Instr) : timerDue { s with raised := es } e ↔ timerDue s e := by
  cases e <;> exact Iff.rfl

theorem tick_of_live (live : s.live = true) : tick s = { s with
    now := s.now + 1, raised := s.raised ++ dueEvents { s with now := s.now + 1 } } := if_pos live
theorem tick_of_not_live (off : ¬ s.live = true) : tick s = { s with now := s.now + 1 } := if_neg off

/-- Settles O2: a millisecond raises the timers in `dueEvents`, which are those that are due. -/
theorem idleStep : Obligations.IdleStep := by
  intro s idle
  have stepped : step s = .next (Machine.idle s) := by
    unfold step
    rw [idle]
  refine ⟨fun e es raised => ?_, fun raised off => ?_, fun raised on => ?_⟩
  · rw [stepped, Machine.idle, raised]
  · simp [stepped, Machine.idle, raised, off]
  · have ticked : Machine.idle s = tick s := by simp [Machine.idle, raised, on]
    refine ⟨tick s, by rw [stepped, ticked], ?_⟩
    by_cases live : s.live = true
    · rw [tick_of_live s live, raised]
      refine ⟨rfl, by simp [live], fun _ e => ?_⟩
      exact (mem_dueEvents _ e).trans (timerDue_raised { s with now := s.now + 1 } e _).symm
    · rw [tick_of_not_live s live]
      exact ⟨rfl, by simp [raised, live], fun on => absurd on live⟩

end Step

/-! ## The choice at LOOP OUT (R173) -/

section LoopOut

variable {s : State} {finished : Bool}

theorem exec_loopOutFree (powered : s.powered = true) (free : finished = true ∨ s.lp.sending = none) :
    exec (.loopOutFree finished) s = .next (s.setLp (chooseFrame { s.lp with sending := none })) := by
  show execLoopOutFree finished s = _
  cases finished with
  | true => simp [execLoopOutFree, powered]
  | false =>
    have idle : s.lp.sending = none := by simpa using free
    have same : ({ s.lp with sending := none } : Loop) = s.lp := by rw [← idle]
    simp [execLoopOutFree, powered, idle, same]

variable (l : Loop)

theorem sendInserted_of_control {g : OutFrame} {gs : List OutFrame} (h : l.control = g :: gs) :
    sendInserted l = { l with control := gs, sending := some (.inserted g), consecutiveForwards := 0 } := by
  simp [sendInserted, h]

theorem sendInserted_of_general {g : OutFrame} {gs : List OutFrame} (none : l.control = []) (h : l.general = g :: gs) :
    sendInserted l = { l with general := gs, sending := some (.inserted g), consecutiveForwards := 0 } := by
  simp [sendInserted, none, h]

theorem insertedWaits_iff : insertedWaits l = true ↔ l.control ≠ [] ∨ l.general ≠ [] := by
  simp [insertedWaits, ← not_and_or]

theorem chooseFrame_forward {f : RawFrame} {fs : List RawFrame} (forward : l.forward = f :: fs)
    (waits : l.control ≠ [] ∨ l.general ≠ []) (few : l.consecutiveForwards < 4) : chooseFrame l =
      { l with forward := fs, sending := some (.forwarded f), consecutiveForwards := l.consecutiveForwards + 1 } := by
  unfold chooseFrame
  rw [forward]
  dsimp only
  rw [if_pos ((insertedWaits_iff l).2 waits), if_pos few]

/-- With nothing to forward, or after four forwards in a row, a waiting frame of the part itself leaves. -/
theorem chooseFrame_own (waits : l.control ≠ [] ∨ l.general ≠ []) (turn : l.forward = [] ∨ 4 ≤ l.consecutiveForwards) :
    chooseFrame l = sendInserted l := by
  unfold chooseFrame
  split
  · next f rest forward =>
    have four : ¬ l.consecutiveForwards < 4 := by
      have := turn.resolve_left (by simp [forward])
      omega
    rw [if_pos ((insertedWaits_iff l).2 waits), if_neg four]
  · rfl

/-- Settles O17. -/
theorem loopOutChooses : Obligations.LoopOutChooses := by
  intro finished s powered
  refine ⟨fun joined busy => ?busy, fun free => ?_⟩
  case busy =>
    show execLoopOutFree finished s = _
    simp [execLoopOutFree, powered, joined, busy]
  have sent : ∀ {l : Loop}, chooseFrame { s.lp with sending := none } = l →
      (.next (s.setLp (chooseFrame { s.lp with sending := none })) : Host.Outcome State Fault Refusal)
        = .next { s with lp := l } :=
    fun h => congrArg (fun l => (.next (s.setLp l) : Host.Outcome State Fault Refusal)) h
  rw [exec_loopOutFree powered free]
  refine ⟨fun forward control general => ?_, fun f fs forward control general => ?_, fun f fs forward waits few => ?_,
    fun g gs control turn => ?_, fun g gs control general turn => ?_⟩
  · simp [State.setLp, chooseFrame, sendInserted, forward, control, general]
  · simp [State.setLp, chooseFrame, insertedWaits, forward, control, general]
  · exact sent (chooseFrame_forward _ forward waits few)
  · exact sent ((chooseFrame_own { s.lp with sending := none } (.inl (by simp [control])) turn).trans (sendInserted_of_control _ control))
  · exact sent ((chooseFrame_own { s.lp with sending := none } (.inr (by simp [general])) turn).trans (sendInserted_of_general _ control general))

/-! ## Forward-only mode and a part whose blocks do not work (R164) -/

theorem joinForward_of_room {s : State} {f : RawFrame} (room : s.lp.forward.length < 8) : joinForward s f =
    State.raiseIf { s with lp := { s.lp with forward := s.lp.forward ++ [f] } } (choiceOnJoin s.lp) (.loopOutFree false) :=
  if_pos room

theorem State.raiseIf_eq (s : State) (b : Bool) (e : Instr) :
    s.raiseIf b e = { s with raised := (s.raiseIf b e).raised } := by
  cases b <;> rfl

/-- While the blocks do not work, a command of a block, an arrival for the blocks and the silence timer change nothing. -/
theorem exec_of_not_live {c : Instr} {f : RawFrame} {s : State} (off : s.live = false)
    (block : blockOf c ≠ .lp ∨ c = .frameArrival f ∨ c = .silenceTimerExpiry) : exec c s = .next s := by
  have live : ∀ g, whenLive s g = .next s := fun g => by simp [whenLive, off]
  obtain block | rfl | rfl := block
  · cases c <;> first | apply live | exact absurd rfl block
  · apply live
  · apply live

/-- Settles O12. -/
theorem forwardOnlyForwards : Obligations.ForwardOnlyForwards := by
  intro f c s
  refine ⟨fun powered mode => ⟨fun room => ?_, fun full => ?_⟩, exec_of_not_live⟩
  · have joined : exec (.forwardOnlyArrival f) s = .next (joinForward s f) := by
      show execForwardOnlyArrival f s = _
      simp [execForwardOnlyArrival, powered, mode, room]
    refine ⟨_, joined, ?_, fun sending forward control general => ?_⟩
    · rw [joinForward_of_room room]
      exact State.raiseIf_eq ..
    · simp [joinForward_of_room room, choiceOnJoin, sending, forward, control, general]
  · show execForwardOnlyArrival f s = _
    simp [execForwardOnlyArrival, Nat.not_lt.2 full]

end LoopOut

end Sys2Proof.Machine
end


section
/-! PROOF. What every step keeps: the account of the Event Log, the overflow points and the tables. -/

namespace Sys2Proof.Machine

section Steps

/-! ## A law that every step keeps -/

/-- With no command waiting, only the counter, the events on their way and the queue of commands change. -/
theorem idle_eq (s : State) :
    idle s = { s with now := (idle s).now, raised := (idle s).raised, pending := (idle s).pending } := by
  unfold idle
  split
  · rfl
  · split
    · unfold tick
      dsimp only
      split <;> rfl
    · rfl

/-- A law that no queue bears on is kept by every step when every command keeps it. -/
theorem step_keeps {law : State → Prop}
    (free : ∀ {s : State} (now : Ms) (raised pending : List Instr), law s →
      law { s with now := now, raised := raised, pending := pending })
    (command : ∀ (c : Instr) (s : State), law s → Yields (fun _ t => law t) s (exec c s))
    {s t : State} (h : law s) (out : step s = .next t) : law t := by
  unfold step at out
  split at out
  · exact (command _ _ (free s.now s.raised _ h)).of_next out
  · cases out
    rw [idle_eq]
    exact free _ _ _ h

end Steps

/-! ## The Event Log (R151, R152) -/

section Log

theorem pagesOf_eq_sum (rs : List LogRecord) : pagesOf rs = (rs.map fun r => r.body.pages).sum :=
  List.sum_eq_foldl.symm

theorem pagesOf_append (xs ys : List LogRecord) : pagesOf (xs ++ ys) = pagesOf xs + pagesOf ys := by
  simp [pagesOf_eq_sum]

theorem pagesOf_filter_le (f : LogRecord → Bool) (rs : List LogRecord) : pagesOf (rs.filter f) ≤ pagesOf rs := by
  induction rs with
  | nil => rfl
  | cons r rs ih =>
    rw [List.filter_cons]
    split <;> simp only [pagesOf_eq_sum, List.map_cons, List.sum_cons] at * <;> omega

theorem quietPages_append (rs : List LogRecord) (r : LogRecord) :
    quietPages (rs ++ [r]) = quietPages rs + if r.body.cls = .overflow then 0 else r.body.pages := by
  unfold quietPages
  rw [List.filter_append, pagesOf_append]
  by_cases h : r.body.cls = .overflow <;> simp [h, pagesOf]

/-- The law of the log speaks of its records, its pages and its counter alone. -/
theorem LogLaw.congr {l l' : EventLog} (h : LogLaw l) (records : l'.records = l.records)
    (pages : l'.pagesUsed = l.pagesUsed) (sequence : l'.sequence = l.sequence) : LogLaw l' := by
  obtain ⟨total, room, reserve, order⟩ := h
  exact ⟨by rw [records, pages, total], by rw [pages]; exact room, by rw [records]; exact reserve,
    by rw [records, sequence]; exact order⟩

theorem quietPages_le (rs : List LogRecord) : quietPages rs ≤ pagesOf rs := pagesOf_filter_le _ rs

/-- What a record that fits leaves (R152, R153). -/
theorem pages_of_fits {l : EventLog} {body : RecordBody} (h : fits l body = true) :
    l.pagesUsed + body.pages ≤ 512 ∧ (body.cls ≠ .overflow → l.pagesUsed + body.pages ≤ 480) := by
  unfold fits at h
  split at h <;> simp_all <;> omega

theorem LogLaw.store {l : EventLog} {r : LogRecord} (h : LogLaw l) (fit : fits l r.body = true)
    (stamped : r.sequence = l.sequence) : LogLaw (storeRecord l r) := by
  obtain ⟨total, room, reserve, order⟩ := h
  obtain ⟨all, quiet⟩ := pages_of_fits fit
  refine ⟨?_, all, ?_, fun i x hx => ?_⟩
  · exact (pagesOf_append ..).trans (by rw [total]; simp [storeRecord, pagesOf])
  · show quietPages (l.records ++ [r]) ≤ 480
    rw [quietPages_append]
    have := quietPages_le l.records
    split
    · omega
    · next other =>
      have := quiet other
      omega
  · have hx : (l.records ++ [r])[i]? = some x := hx
    show x.sequence + BitVec.ofNat 16 ((l.records ++ [r]).length - i) = l.sequence + 1
    rw [List.length_append, List.length_singleton]
    rcases Nat.lt_trichotomy i l.records.length with before | last | beyond
    · rw [List.getElem?_append_left before] at hx
      rw [show l.records.length + 1 - i = l.records.length - i + 1 by omega, ← order i x hx, BitVec.ofNat_add,
        ← BitVec.add_assoc]
      rfl
    · subst last
      obtain rfl : r = x := by simpa using hx
      rw [stamped, Nat.add_sub_cancel_left]
      rfl
    · have := (List.getElem?_eq_some_iff.1 hx).1
      simp only [List.length_append, List.length_singleton] at this
      omega

theorem LogLaw.remove {l : EventLog} (h : LogLaw l) (k : Nat) : LogLaw (removeOldest l k) := by
  obtain ⟨total, room, reserve, order⟩ := h
  have split : pagesOf (l.records.take k) + pagesOf (l.records.drop k) = l.pagesUsed := by
    rw [← pagesOf_append, List.take_append_drop, total]
  have quiet : quietPages (l.records.drop k) ≤ quietPages l.records := by
    have := pagesOf_append ((l.records.take k).filter fun r => r.body.cls != .overflow)
      ((l.records.drop k).filter fun r => r.body.cls != .overflow)
    rw [← List.filter_append, List.take_append_drop] at this
    unfold quietPages
    omega
  refine ⟨?_, ?_, quiet.trans reserve, fun i x hx => ?_⟩
  · show pagesOf (l.records.drop k) = l.pagesUsed - pagesOf (l.records.take k)
    omega
  · show l.pagesUsed - pagesOf (l.records.take k) ≤ 512
    omega
  · have hx : (l.records.drop k)[i]? = some x := hx
    rw [List.getElem?_drop] at hx
    have := order (k + i) x hx
    rwa [show l.records.length - (k + i) = (l.records.drop k).length - i by rw [List.length_drop]; omega] at this

theorem LogLaw.countLost {l : EventLog} (h : LogLaw l) (c : RecordClass) : LogLaw (countLost l c) := by
  cases c <;> exact h.congr rfl rfl rfl

theorem offerGeneral_elr {s t : State} {d : Addr} {a : Option (BitVec 6)} {p : OutPayload}
    (h : offerGeneral s d a p = some t) : t.elr = s.elr := by
  unfold offerGeneral at h
  split at h
  · cases h
    exact State.raiseIf_elr ..
  · cases h

theorem trySendFuel_logLaw (n : Nat) {s : State} (h : LogLaw s.elr) : LogLaw (trySendFuel n s).elr := by
  induction n generalizing s with
  | zero => exact h
  | succ n ih =>
    unfold trySendFuel
    split
    · exact h.congr rfl rfl rfl
    · split
      · exact h.congr rfl rfl rfl
      · split
        · next t placed =>
          have kept : LogLaw t.elr := by
            rw [offerGeneral_elr placed]
            exact h
          exact ih (kept.congr rfl rfl rfl)
        · exact h.congr rfl rfl rfl

theorem trySend_logLaw {s : State} (h : LogLaw s.elr) : LogLaw (trySend s).elr := trySendFuel_logLaw 5 h

theorem judgeRecord_logLaw {s : State} (h : LogLaw s.elr) (body : RecordBody) : LogLaw (judgeRecord s body).elr := by
  unfold judgeRecord
  split
  · next fit => exact trySend_logLaw (h.store fit rfl)
  · exact h.countLost _

theorem tryLost_logLaw {s : State} (h : LogLaw s.elr) : LogLaw (tryLost s).elr := by
  unfold tryLost
  split
  · dsimp only
    split
    · next fit => exact trySend_logLaw ((h.store (r := stamp s (lostBody s.elr)) fit rfl).congr rfl rfl rfl)
    · exact h.countLost .lost
  · exact h

theorem placeAck_logLaw {s : State} (h : LogLaw s.elr) (n : BitVec 16) : LogLaw (placeAck s n).elr := by
  unfold placeAck
  dsimp only
  split
  · exact trySend_logLaw ((h.remove _).congr rfl rfl rfl)
  · split
    · exact h.congr rfl rfl rfl
    · exact h

theorem offerParts_logLaw (n part : Nat) {s : State} (h : LogLaw s.elr) : LogLaw (offerParts n part s).elr := by
  induction n generalizing part s with
  | zero => exact h.congr rfl rfl rfl
  | succ n ih =>
    unfold offerParts
    split
    · next t placed =>
      refine ih _ ?_
      rw [offerGeneral_elr placed]
      exact h
    · exact h.congr rfl rfl rfl

theorem exec_elr_logLaw {c : Instr} {s : State} (block : blockOf c = .elr) (h : LogLaw s.elr) :
    Yields (fun _ t => LogLaw t.elr) s (exec c s) := by
  have live : ∀ {f : State → State}, LogLaw (f s).elr → Yields (fun _ t => LogLaw t.elr) s (whenLive s f) :=
    fun k => whenLive_yields (R := fun _ t => LogLaw t.elr) h k
  have dueNow : ∀ {f : State → State} {x : Option Ms}, LogLaw (f s).elr →
      Yields (fun _ t => LogLaw t.elr) s (whenDue s x f) :=
    fun k => whenDue_yields (R := fun _ t => LogLaw t.elr) h k
  cases c <;> try cases block
  case recordSubmission body =>
    apply live
    exact judgeRecord_logLaw (tryLost_logLaw h) body
  case reportRetry =>
    apply dueNow
    exact trySend_logLaw h
  case reportAck src payload =>
    apply live
    split
    · exact placeAck_logLaw h _
    · exact h
  case reportTimerExpiry =>
    apply dueNow
    exact trySend_logLaw (h.congr rfl rfl rfl)
  case statusTimerExpiry =>
    apply dueNow
    exact offerParts_logLaw _ _ (h.congr rfl rfl rfl)
  case statusPartRetry =>
    apply dueNow
    split
    · exact offerParts_logLaw _ _ h
    · exact h.congr rfl rfl rfl
  case stationStateToElr st =>
    apply live
    exact offerParts_logLaw _ _ (h.congr rfl rfl rfl)

theorem logLaw_reset (now : Ms) (st : StationState) : LogLaw (EventLog.reset now st) :=
  ⟨rfl, Nat.zero_le _, Nat.zero_le _, by simp [EventLog.reset]⟩

/-- What the blocks originate at a reset leaves ELR and OA alone. -/
theorem bootFrames_rests (s : State) : (bootFrames s).elr = s.elr ∧ (bootFrames s).points = s.points := by
  have floats : ∀ t, dcMask (offerFloats t) = dcMask t :=
    fun t => each_dc _ (fun s p => by split <;> simp) _ _
  exact ⟨(eq_of_mask dcMask State.elr (fun _ => rfl) (floats _)).trans
      (eq_of_mask cuMask State.elr (fun _ => rfl) (offerCadenceAll_cu _)),
    (eq_of_mask dcMask State.points (fun _ => rfl) (floats _)).trans
      (eq_of_mask cuMask State.points (fun _ => rfl) (offerCadenceAll_cu _))⟩

theorem respond_rests (s : State) (h : ReqHead) (result : ResultCode) (data : RspData) :
    (respond s h result data).elr = s.elr ∧ (respond s h result data).points = s.points := by
  rw [respond_eq]
  unfold answered
  split <;> exact ⟨rfl, rfl⟩

theorem restartNow_rests (s : State) (h : ReqHead) : (∃ st, (restartNow s h).elr = EventLog.reset 0 st)
    ∧ (restartNow s h).points = PerPoint.of PointRecord.reset := by
  unfold restartNow restartPart
  dsimp only
  rw [(respond_rests ..).1, (respond_rests ..).2, (bootFrames_rests _).1, (bootFrames_rests _).2, State.raiseIf_elr,
    State.raiseIf_points]
  exact ⟨⟨_, rfl⟩, rfl⟩

theorem bootPart_rests (s : State) (strap : BitVec 6) :
    ((∃ st, (bootPart s strap).elr = EventLog.reset 0 st)
      ∨ ∃ st, (bootPart s strap).elr = { EventLog.reset 0 st with statusAt := none })
    ∧ (bootPart s strap).points = PerPoint.of PointRecord.reset := by
  unfold bootPart
  split
  · rw [(bootFrames_rests _).1, (bootFrames_rests _).2]
    exact ⟨.inl ⟨_, rfl⟩, rfl⟩
  · exact ⟨.inr ⟨_, rfl⟩, rfl⟩

/-- A restart leaves what the reset of a block leaves. -/
theorem exec_restarts_of {c : Instr} {s : State} (restart : restarts c) {P : State → Prop} (same : P s)
    (refused : ∀ h r, P (respond s h r .none))
    (waits : ∀ h, P { s with mu := { s.mu with restartWaiting := some h } }) (now : ∀ h, P (restartNow s h)) :
    Yields (fun _ t => P t) s (exec c s) := by
  obtain ⟨h, args, rfl⟩ | rfl := restart
  · apply whenLive_yields (R := fun _ t => P t) same
    refine onRequest_of same (refused h) fun n a => ?_
    dsimp only
    split
    · exact waits _
    · exact now h
  · apply whenLive_yields (R := fun _ t => P t) same
    repeat' split
    all_goals first | exact same | exact now _

/-- Settles O4. -/
theorem everyStepKeepsLog : Obligations.EveryStepKeepsLog := by
  intro s t law out
  refine step_keeps (law := fun s => LogLaw s.elr) (fun _ _ _ h => h) (fun c s h => ?_) law out
  have kept : ∀ (mask : State → State), (∀ u : State, (mask u).elr = u.elr) →
      ∀ {t : State}, mask t = mask s → LogLaw t.elr := by
    intro mask seen t e
    rw [eq_of_mask mask State.elr seen e]
    exact h
  by_cases block : blockOf c = .elr
  · exact exec_elr_logLaw block h
  refine exec_yields s (R := fun _ t => LogLaw t.elr)
    (fun t _ e _ => kept cuMask (fun _ => rfl) e) (fun t _ e _ => kept wmuMask (fun _ => rfl) e)
    (fun t _ e _ => kept dcMask (fun _ => rfl) e) (fun t _ e _ => kept sbMask (fun _ => rfl) e)
    (fun t _ e _ => kept scHourMask (fun _ => rfl) e) (fun t _ e _ => kept oaMask (fun _ => rfl) e)
    (fun t _ e _ => kept ssuMask (fun _ => rfl) e) (fun t b _ _ => absurd b block)
    (fun t _ e _ => kept lpMask (fun _ => rfl) e) (fun t _ _ _ e _ => ?mu) (fun power => ?power) (fun restart => ?restart) ?store
  case mu =>
    have same : ({ clearLost t.elr with badAcks := 0 } : EventLog) = { clearLost s.elr with badAcks := 0 } :=
      congrArg State.elr e
    exact h.congr (by simpa [clearLost] using congrArg EventLog.records same)
      (by simpa [clearLost] using congrArg EventLog.pagesUsed same)
      (by simpa [clearLost] using congrArg EventLog.sequence same)
  case power =>
    have lost : ∀ u, LogLaw (losePower u).elr :=
      fun u => (logLaw_reset 0 (resetStationState (loadTables (tearStore u).store).setup.active)).congr rfl rfl rfl
    obtain ⟨strap, rfl⟩ | rfl := power
    · refine ⟨_, exec_powerOn s strap, ?_⟩
      obtain ⟨st, e⟩ | ⟨st, e⟩ := (bootPart_rests (if s.powered then losePower s else s) strap).1
      · rw [e]
        exact logLaw_reset 0 st
      · rw [e]
        exact (logLaw_reset 0 st).congr rfl rfl rfl
    · refine ⟨_, exec_powerLoss s, ?_⟩
      split
      · exact lost s
      · exact h
  case restart =>
    refine exec_restarts_of (P := fun t => LogLaw t.elr) restart h (fun g r => ?_) (fun _ => h) fun g => ?_
    · rw [(respond_rests ..).1]
      exact h
    · obtain ⟨st, e⟩ := (restartNow_rests s g).1
      rw [e]
      exact logLaw_reset 0 st
  case store =>
    rintro rfl
    exact (exec_storeWriteComplete s).mono fun t e => kept storeMask (fun _ => rfl) e

end Log

end Sys2Proof.Machine
end


section
/-! PROOF. What every step keeps: the account of the overflow points. -/

namespace Sys2Proof.Machine

section Points

theorem SpillLaw.of_slot {r : PointRecord} {x : Slot} (slot : r.slot = some x) (open_ : r.spill ≠ .dry)
    (number : x.number = none ↔ r.spill = .tentative) (stop : x.stop.isSome ↔ r.spill = .closing)
    (accumulator : x.accumulator ≤ 1999) (litres : x.volume + r.unconfirmed ≤ r.cumulative) : SpillLaw r := by
  have same : ∀ y, r.slot = some y → y = x := fun y h => Option.some.inj (h.symm.trans slot)
  refine ⟨by simp [slot, open_], fun y h => ?_, fun y h => ?_, fun y h => ?_, by simpa [slot] using litres⟩
  · rwa [same y h]
  · rwa [same y h]
  · rwa [same y h]

theorem SpillLaw.of_dry {r : PointRecord} (slot : r.slot = none) (dry : r.spill = .dry) (litres : r.unconfirmed ≤ r.cumulative) :
    SpillLaw r := by
  refine ⟨by simp [slot, dry], ?_, ?_, ?_, by simpa [slot] using litres⟩ <;> simp [slot]

theorem SpillLaw.volume {r : PointRecord} {x : Slot} (h : SpillLaw r) (slot : r.slot = some x) :
    x.volume + r.unconfirmed ≤ r.cumulative := by simpa [slot] using h.litres

/-- The law does not speak of the peaks, the flags, the gap, the causes and the clocks of a slot, nor of a pending switch and the
previous sample. -/
theorem SpillLaw.retouch {r r' : PointRecord} (h : SpillLaw r) {f : Slot → Slot} (slot : r'.slot = r.slot.map f)
    (spill : r'.spill = r.spill) (total : r'.cumulative = r.cumulative) (unconfirmed : r'.unconfirmed = r.unconfirmed)
    (kept : ∀ x, (f x).number = x.number ∧ (f x).stop = x.stop ∧ (f x).accumulator = x.accumulator
      ∧ (f x).volume = x.volume) : SpillLaw r' := by
  cases held : r.slot with
  | none =>
    have dry : r.spill = .dry := by
      have := h.slot
      simpa [held] using this
    exact .of_dry (by simp [slot, held]) (spill.trans dry) (by simpa [total, unconfirmed, held] using h.litres)
  | some x =>
    obtain ⟨number, stop, accumulator, volume⟩ := kept x
    refine .of_slot (x := f x) (by simp [slot, held]) ?_ ?_ ?_ ?_ ?_
    · rw [spill]
      exact h.slot.1 (by simp [held])
    · rw [number, spill]
      exact h.number x held
    · rw [stop, spill]
      exact h.stop x held
    · rw [accumulator]
      exact h.accumulator x held
    · rw [volume, total, unconfirmed]
      exact h.volume held

variable {s : State} {o at_ : Point}

/-- A record written at a point: the other point's is not touched. -/
theorem setPoint_spillLaw {r : PointRecord} (h : SpillLaw (s.point o)) (own : SpillLaw (s.point at_) → SpillLaw r) :
    SpillLaw ((s.setPoint at_ r).point o) := by
  rw [State.point_setPoint]
  split
  · next same =>
    subst same
    exact own h
  · exact h

theorem updateSlot_spillLaw {f : Slot → Slot} (h : SpillLaw (s.point o)) (kept : ∀ x, (f x).number = x.number
    ∧ (f x).stop = x.stop ∧ (f x).accumulator = x.accumulator ∧ (f x).volume = x.volume) :
    SpillLaw ((updateSlot s at_ f).point o) :=
  setPoint_spillLaw h fun own => own.retouch rfl rfl rfl rfl kept

theorem evaluateCauses_spillLaw (h : SpillLaw (s.point o)) : SpillLaw ((evaluateCauses s at_).point o) :=
  updateSlot_spillLaw h fun _ => ⟨rfl, rfl, rfl, rfl⟩

theorem completeCommit_points (s : State) (id : TableId) : (completeCommit s id).points = s.points := by
  unfold completeCommit
  split <;> rfl

theorem takeWeir_spillLaw (h : SpillLaw (s.point o)) : SpillLaw ((takeWeir s at_).point o) := by
  unfold takeWeir
  split
  · have noted : SpillLaw ((updateSlot (s.setPoint at_ { s.point at_ with pendingSwitch := false }) at_
        fun x => { x with flags := { x.flags with tableChanged := true } }).point o) := by
      refine updateSlot_spillLaw (setPoint_spillLaw h fun own => ?_) fun _ => ⟨rfl, rfl, rfl, rfl⟩
      exact own.retouch (f := id) (by simp) rfl rfl rfl fun _ => ⟨rfl, rfl, rfl, rfl⟩
    dsimp only
    split
    · unfold State.point
      rw [completeCommit_points]
      exact noted
    · exact noted
  · exact h

/-- What an interval adds to a slot it adds to the cumulative litres (R126). -/
theorem integratePoint_spillLaw {r : PointRecord} (h : SpillLaw r) (v : SpillSample) : SpillLaw (integratePoint r v) := by
  have peaks : ∀ x : Slot, (notePeaks v x).number = x.number ∧ (notePeaks v x).stop = x.stop
      ∧ (notePeaks v x).accumulator = x.accumulator ∧ (notePeaks v x).volume = x.volume := by
    intro x
    unfold notePeaks
    split <;> exact ⟨rfl, rfl, rfl, rfl⟩
  unfold integratePoint
  split
  · next x slot =>
    split
    · next before t previous =>
      obtain ⟨number, stop, accumulator, volume⟩ :=
        peaks (integrateSlot before (v.time - t) v (noteFlags v x))
      refine .of_slot rfl (h.slot.1 (by simp [slot])) ?_ ?_ ?_ ?_
      · rw [number]
        exact h.number x slot
      · rw [stop]
        exact h.stop x slot
      · rw [accumulator]
        exact Nat.le_of_lt_succ (Nat.mod_lt _ (by decide))
      · rw [volume]
        have := h.volume slot
        show x.volume + litresAdded before (v.time - t) v x + r.unconfirmed
          ≤ r.cumulative + litresAdded before (v.time - t) v x
        omega
    · exact h.retouch (f := fun x => notePeaks v (noteFlags v x)) (by simp [slot]) rfl rfl rfl fun x => peaks _
  · exact h

/-- A record written at a point with a new spill state, told to SSU. -/
theorem setSpill_spillLaw {r : PointRecord} {st : SpillState} (h : SpillLaw (s.point o))
    (own : SpillLaw (s.point at_) → SpillLaw { r with spill := st }) :
    SpillLaw ((setSpill (s.setPoint at_ r) at_ st).point o) := by
  have written : (setSpill (s.setPoint at_ r) at_ st).point o = if o = at_ then { r with spill := st } else s.point o := by
    refine (State.point_setPoint ..).trans ?_
    simp only [State.point_setPoint, if_true]
    split <;> rfl
  rw [written]
  split
  · next same =>
    subst same
    exact own h
  · exact h

theorem removeSlot_spillLaw {x : Slot} {n : Nat} (slot : (s.point at_).slot = some x) (part : n ≤ x.volume)
    (h : SpillLaw (s.point o)) : SpillLaw ((removeSlot s at_ n).point o) := by
  refine setSpill_spillLaw h fun own => .of_dry rfl rfl ?_
  have := own.volume slot
  show (s.point at_).unconfirmed + n ≤ (s.point at_).cumulative
  omega

variable {x : Slot} {v : SpillSample} (slot : (s.point at_).slot = some x)
include slot

/-- A slot whose clock and end time change while its point stays in its state. -/
theorem clocked_spillLaw {y : Slot} (h : SpillLaw (s.point o)) (same : y.number = x.number ∧ y.stop = x.stop
    ∧ y.accumulator = x.accumulator ∧ y.volume = x.volume) :
    SpillLaw ((s.setPoint at_ { s.point at_ with slot := some y }).point o) := by
  obtain ⟨number, stop, accumulator, volume⟩ := same
  refine setPoint_spillLaw h fun own => .of_slot (x := y) rfl (own.slot.1 (by simp [slot])) ?_ ?_ ?_ ?_
  · rw [number]
    exact own.number x slot
  · rw [stop]
    exact own.stop x slot
  · rw [accumulator]
    exact own.accumulator x slot
  · rw [volume]
    exact own.volume slot

/-- A slot that a new spill state comes with. -/
theorem moved_spillLaw {y : Slot} {r : PointRecord} {st : SpillState} (h : SpillLaw (s.point o)) (held : r.slot = some y)
    (open_ : st ≠ .dry) (number : SpillLaw (s.point at_) → (y.number = none ↔ st = .tentative))
    (stop : SpillLaw (s.point at_) → (y.stop.isSome ↔ st = .closing))
    (same : y.accumulator = x.accumulator ∧ y.volume = x.volume)
    (litres : r.cumulative = (s.point at_).cumulative ∧ r.unconfirmed = (s.point at_).unconfirmed) :
    SpillLaw ((setSpill (s.setPoint at_ r) at_ st).point o) := by
  obtain ⟨accumulator, volume⟩ := same
  obtain ⟨total, unconfirmed⟩ := litres
  refine setSpill_spillLaw h fun own => .of_slot (x := y) held open_ (number own) (stop own) ?_ ?_
  · rw [accumulator]
    exact own.accumulator x slot
  · show y.volume + r.unconfirmed ≤ r.cumulative
    rw [volume, unconfirmed, total]
    exact own.volume slot

theorem sampleTentative_spillLaw (spill : (s.point at_).spill = .tentative) (h : SpillLaw (s.point o)) :
    SpillLaw ((sampleTentative s at_ v x).point o) := by
  unfold sampleTentative
  split
  · dsimp only
    split
    · refine moved_spillLaw (s := s) slot h rfl (by simp) (by simp) (fun own => ?_) ⟨rfl, rfl⟩ ⟨rfl, rfl⟩
      have := own.stop x slot
      simpa [spill] using this
    · exact clocked_spillLaw slot h ⟨rfl, rfl, rfl, rfl⟩
  · exact removeSlot_spillLaw slot (Nat.le_refl _) h

theorem sampleOpen_spillLaw (spill : (s.point at_).spill = .open_) (h : SpillLaw (s.point o)) :
    SpillLaw ((sampleOpen s at_ v x).point o) := by
  unfold sampleOpen
  split
  · exact h
  · refine moved_spillLaw slot h rfl (by simp) (fun own => ?_) (by simp) ⟨rfl, rfl⟩ ⟨rfl, rfl⟩
    have := own.number x slot
    simpa [spill] using this

theorem sampleClosing_spillLaw (spill : (s.point at_).spill = .closing) (h : SpillLaw (s.point o)) :
    SpillLaw ((sampleClosing s at_ v x).point o) := by
  unfold sampleClosing
  split
  · refine moved_spillLaw slot h rfl (by simp) (fun own => ?_) (by simp) ⟨rfl, rfl⟩ ⟨rfl, rfl⟩
    have := own.number x slot
    simpa [spill] using this
  · dsimp only
    split
    · exact removeSlot_spillLaw (s := s.submit _) slot (Nat.zero_le _) h
    · exact clocked_spillLaw slot h ⟨rfl, rfl, rfl, rfl⟩

omit slot

theorem sampleDry_spillLaw (none : SpillLaw (s.point at_) → (s.point at_).slot = none) (h : SpillLaw (s.point o)) :
    SpillLaw ((sampleDry s at_ v).point o) := by
  unfold sampleDry
  split
  · refine evaluateCauses_spillLaw (setSpill_spillLaw h fun own => ?_)
    refine .of_slot rfl (by simp) (by simp [newSlot]) (by simp [newSlot]) (by simp [newSlot]) ?_
    have := own.litres
    show 0 + (s.point at_).unconfirmed ≤ (s.point at_).cumulative
    simpa [none own] using this
  · exact h

theorem sampleByState_spillLaw (h : SpillLaw (s.point o)) : SpillLaw ((sampleByState s at_ v).point o) := by
  unfold sampleByState
  split
  · next slot spill => exact sampleTentative_spillLaw slot spill h
  · next slot spill => exact sampleOpen_spillLaw slot spill h
  · next slot spill => exact sampleClosing_spillLaw slot spill h
  · next spill =>
    refine sampleDry_spillLaw (fun own => ?_) h
    have := own.slot
    simpa [spill] using this
  · exact h

theorem takeSample_spillLaw {level : Int} {time : Ms} (h : SpillLaw (s.point o)) :
    SpillLaw ((takeSample s at_ level time).point o) := by
  unfold takeSample
  dsimp only
  refine setPoint_spillLaw (sampleByState_spillLaw (evaluateCauses_spillLaw (setPoint_spillLaw (takeWeir_spillLaw h)
    fun own => integratePoint_spillLaw own _))) fun own => ?_
  exact own.retouch (f := id) (by simp) rfl rfl rfl fun _ => ⟨rfl, rfl, rfl, rfl⟩

theorem takeNotice_spillLaw {q : Quality} (h : SpillLaw (s.point o)) : SpillLaw ((takeNotice s at_ q).point o) := by
  have missed : ∀ u : State, SpillLaw (u.point o) → SpillLaw ((evaluateCauses (updateSlot
      (u.setPoint at_ { u.point at_ with previous := none }) at_
      fun x => { x with gapOpen := true, causes := { x.causes with sensorDegraded := true } }) at_).point o) := by
    intro u law
    refine evaluateCauses_spillLaw (updateSlot_spillLaw (setPoint_spillLaw law fun own => ?_) fun _ => ⟨rfl, rfl, rfl, rfl⟩)
    exact own.retouch (f := id) (by simp) rfl rfl rfl fun _ => ⟨rfl, rfl, rfl, rfl⟩
  unfold takeNotice
  split
  · exact h
  · refine missed _ ?_
    split
    · exact takeWeir_spillLaw h
    · exact h

theorem exec_oa_spillLaw {c : Instr} (block : blockOf c = .oa) (h : SpillLaw (s.point o)) :
    Yields (fun _ t => SpillLaw (t.point o)) s (exec c s) := by
  have live : ∀ {f : State → State}, SpillLaw ((f s).point o) → Yields (fun _ t => SpillLaw (t.point o)) s (whenLive s f) :=
    fun k => whenLive_yields (R := fun _ t => SpillLaw (t.point o)) h k
  cases c <;> try cases block
  case wellRecordDeliveryOa w d | wellStateToOa w st =>
    apply live
    exact evaluateCauses_spillLaw h
  case overflowLevelUpdate at_ u =>
    apply live
    split
    · exact takeSample_spillLaw h
    · exact takeNotice_spillLaw h

/-! ### The commands of MU -/

/-- What a command of MU that neither restarts nor completes a write can do: answer, write tables, change its own record, clear
counts, carry out a gate, and take a commit. -/
theorem exec_mu_of {P : State → Prop} {c : Instr} {s : State} (block : blockOf c = .mu) (stays : ¬ restarts c)
    (store : c ≠ .storeWriteComplete) (same : P s) (answer : ∀ u h r d, P u → P (respond u h r d))
    (tables : ∀ t : Tables, t.setup.active = s.setup → P { s with tables := t }) (own : ∀ m, P { s with mu := m })
    (clear : P (clearCounts s)) (gate : ∀ a g, P (applyGate s a g).1) (commit : ∀ h id, P (commitTable s h id)) :
    Yields (fun _ t => P t) s (exec c s) := by
  have live : ∀ {f : State → State}, P (f s) → Yields (fun _ t => P t) s (whenLive s f) :=
    fun k => whenLive_yields (R := fun _ t => P t) same k
  have request : ∀ {α : Type} {g : ReqHead} {args : Option α} {form : α → Bool} {need : Need}
      {f : State → Nat → α → State}, (∀ n a, P (f s n a)) → P (onRequest s g args form need f) :=
    fun taken => onRequest_of same (fun r => answer _ _ _ _ same) taken
  cases c <;> try cases block
  case restart g args => exact absurd (.inl ⟨g, args, rfl⟩) stays
  case deferredRestart => exact absurd (.inr rfl) stays
  case storeWriteComplete => exact absurd rfl store
  case tableCommit g args =>
    apply live
    exact request fun n a => commit g a
  case tableWrite g args =>
    apply live
    refine request fun n a => ?_
    unfold writeTable
    split
    · exact answer _ _ _ _ same
    · exact answer _ _ _ _ (tables _ (writeEntries_setup ..))
  case tableRead g args | readRecord g args =>
    apply live
    exact request fun n a => answer _ _ _ _ same
  case tableDiscard g args =>
    apply live
    refine request fun n a => ?_
    split
    · exact answer _ _ _ _ same
    · exact answer _ _ _ _ (tables _ (by cases a <;> rfl))
  case invokeGate g args =>
    apply live
    refine request fun n a => ?_
    have run : ∀ x, P (runGate s g x) := by
      intro x
      unfold runGate
      split
      · exact answer _ _ _ _ (gate _ _)
      · exact answer _ _ _ _ same
    unfold invoke
    repeat' split
    all_goals first | exact answer _ _ _ _ same | exact run _
  case setLockLevel g args | setTime g args =>
    apply live
    exact request fun n a => answer _ _ _ _ (own _)
  case clearCounters g args =>
    apply live
    exact request fun n a => answer _ _ _ _ clear
  case clockAdvance =>
    apply whenDue_yields (R := fun _ t => P t) same
    exact own _

/-- What a commit can do: answer, or arrange its switch. -/
theorem commitTable_of {P : State → Prop} {s : State} {h : ReqHead} {id : TableId} (answer : ∀ r d, P (respond s h r d))
    (taken : P (arrange { s with mu := { s.mu with commit := .scheduled id h } } id)) : P (commitTable s h id) := by
  unfold commitTable
  repeat' split
  all_goals first | exact answer _ _ | exact taken

theorem applyGate_keeps {α : Type} (g : State → α) (dc : ∀ s, g (dcMask s) = g s) (sc : ∀ s, g (scMask s) = g s)
    (cu : ∀ s, g (cuMask s) = g s) (su : ∀ s, g (ssuMask s) = g s) (s : State) (a : GateAction) (t : GateTarget) :
    g (applyGate s a t).1 = g s := by
  have gate : ∀ x : State × Bool, dcMask x.1 = dcMask s → g (dutyGate s x).1 = g s := by
    intro x h
    unfold dutyGate
    split
    · exact eq_of_mask dcMask g dc ((settle_dc ..).trans h)
    · rfl
  unfold applyGate
  split
  · exact gate _ (pumpEnable_dc ..)
  · exact gate _ (pumpDisable_dc ..)
  · exact gate _ (pumpClear_dc ..)
  · exact gate _ (pumpRelease_dc ..)
  · exact gate _ (rotateGate_dc ..)
  · exact eq_of_mask scMask g sc (rakeRun_sc ..)
  · exact eq_of_mask scMask g sc (rakeEnable_sc ..)
  · exact eq_of_mask scMask g sc (rakeDisable_sc ..)
  · exact eq_of_mask scMask g sc (screenClear_sc ..)
  · exact eq_of_mask cuMask g cu (channelClear_cu ..)
  · exact eq_of_mask cuMask g cu (refCheck_cu ..)
  · exact eq_of_mask ssuMask g su (forceStorm_su ..)
  · exact eq_of_mask ssuMask g su (allowDry_su ..)
  · rfl

/-! ### A commit arranges a weir switch with both points (R133) -/

theorem each_spillLaw {α : Type} {f : State → α → State}
    (one : ∀ u x, SpillLaw (u.point o) → SpillLaw ((f u x).point o)) (xs : List α) {s : State} (h : SpillLaw (s.point o)) :
    SpillLaw ((State.each f xs s).point o) := by
  induction xs generalizing s with
  | nil => exact h
  | cons x xs ih => exact ih (one s x h)

theorem switchDuty_dc (old : Setup) (s : State) : dcMask (switchDuty old s) = dcMask s := by
  have lower : ∀ u w, dcMask (lowerMaximum old u w) = dcMask u := by
    intro u w
    unfold lowerMaximum
    split
    · exact each_dc _ (fun u p => by unfold stopOver; split <;> simp) _ _
    · rfl
  have refit : ∀ u w, dcMask (refitWell old u w) = dcMask u := by
    intro u w
    unfold refitWell
    dsimp only
    split
    · exact each_dc _ (fun u p => by simp) _ _
    · exact (each_dc _ (fun u p => by unfold restageKept; split <;> simp) _ _).trans (each_dc _ (fun u p => by simp) _ _)
  exact (each_dc _ evaluateWithin_dc _ _).trans ((each_dc _ refit _ _).trans ((each_dc _ lower _ _).trans
    (each_dc _ (switchPump_dc old) _ _)))

theorem switchBudget_sb (old : Setup) (s : State) : sbMask (switchBudget old s) = sbMask s :=
  (examine_sb _).trans (capacityChange_sb _ _)

theorem switchWell_keeps (old : Setup) (s : State) (w : Well) : switchWell old s w =
    { s with wells := (switchWell old s w).wells, raised := (switchWell old s w).raised } := by
  have integrated : ∀ u : State, integrate u w = { u with wells := (integrate u w).wells } := by
    intro u
    unfold integrate
    split <;> rfl
  unfold switchWell
  dsimp only
  repeat' split
  all_goals first | rfl | exact integrated s | (rw [integrated s] <;> rfl)

/-- What the blocks keep in taking a Station Setup switch. -/
theorem takeSetup_keeps {α : Type} (g : State → α) (wm : ∀ s w r, g { s with wells := w, raised := r } = g s)
    (dc : ∀ s, g (dcMask s) = g s) (sb : ∀ s, g (sbMask s) = g s) (sc : ∀ s, g (scMask s) = g s)
    (su : ∀ s, g (ssuMask s) = g s) (before s : State) : g (takeSetup before s) = g s := by
  have wells : ∀ (xs : List Well) old t, g (State.each (switchWell old) xs t) = g t := by
    intro xs old
    induction xs with
    | nil => exact fun t => rfl
    | cons w xs ih =>
      intro t
      refine (ih (switchWell old t w)).trans ?_
      rw [switchWell_keeps]
      exact wm ..
  unfold takeSetup
  dsimp only
  rw [eq_of_mask ssuMask g su (switchStation_su _), eq_of_mask scMask g sc (switchScreens_sc ..),
    eq_of_mask sbMask g sb (switchBudget_sb ..), eq_of_mask dcMask g dc (settle_dc ..),
    eq_of_mask dcMask g dc (switchDuty_dc ..), wells]

theorem arrange_spillLaw {s : State} {id : TableId} (h : SpillLaw (s.point o)) : SpillLaw ((arrange s id).point o) := by
  have kept : ∀ {t : State}, t.points = s.points → SpillLaw (t.point o) := by
    intro t same
    unfold State.point
    rw [same]
    exact h
  cases id with
  | sampleMap =>
    exact kept ((eq_of_mask cuMask State.points (fun _ => rfl) (takeSampleMap_cu _ _)).trans (completeCommit_points ..))
  | stationSetup =>
    exact kept ((takeSetup_keeps State.points (fun _ _ _ => rfl) (fun _ => rfl) (fun _ => rfl) (fun _ => rfl) (fun _ => rfl)
      s _).trans (completeCommit_points ..))
  | gates | sources => exact kept (completeCommit_points ..)
  | levelVolume w | pumpCurves => exact h
  | weir =>
    refine each_spillLaw (fun u x k => ?_) _ ?_
    · split
      · exact takeWeir_spillLaw k
      · exact k
    · cases o
      · exact SpillLaw.retouch (r := s.points.one) h (f := id) (by simp [State.point, PerPoint.get]) rfl rfl rfl
          fun _ => ⟨rfl, rfl, rfl, rfl⟩
      · exact SpillLaw.retouch (r := s.points.two) h (f := id) (by simp [State.point, PerPoint.get]) rfl rfl rfl
          fun _ => ⟨rfl, rfl, rfl, rfl⟩

theorem spillLaw_reset : SpillLaw PointRecord.reset := .of_dry rfl rfl (Nat.le_refl _)

theorem respond_spillLaw {s : State} {h : ReqHead} {r : ResultCode} {d : RspData} (law : SpillLaw (s.point o)) :
    SpillLaw ((respond s h r d).point o) := by
  unfold State.point
  rw [(respond_rests ..).2]
  exact law

/-- Settles O7. -/
theorem everyStepKeepsSpillAccount : Obligations.EveryStepKeepsSpillAccount := by
  intro s t o law out
  refine step_keeps (law := fun s => SpillLaw (s.point o)) (fun _ _ _ h => h) (fun c s h => ?_) law out
  have kept : ∀ (mask : State → State), (∀ u : State, (mask u).points = u.points) →
      ∀ {t : State}, mask t = mask s → SpillLaw (t.point o) := by
    intro mask seen t e
    unfold State.point
    rw [eq_of_mask mask State.points seen e]
    exact h
  have reset : ∀ {t : State}, t.points = PerPoint.of PointRecord.reset → SpillLaw (t.point o) := by
    intro t e
    unfold State.point
    rw [e, PerPoint.get_of]
    exact spillLaw_reset
  by_cases oa : blockOf c = .oa
  · exact exec_oa_spillLaw oa h
  refine exec_yields s (R := fun _ t => SpillLaw (t.point o))
    (fun t _ e _ => kept cuMask (fun _ => rfl) e) (fun t _ e _ => kept wmuMask (fun _ => rfl) e)
    (fun t _ e _ => kept dcMask (fun _ => rfl) e) (fun t _ e _ => kept sbMask (fun _ => rfl) e)
    (fun t _ e _ => kept scHourMask (fun _ => rfl) e) (fun t b _ _ => absurd b oa)
    (fun t _ e _ => kept ssuMask (fun _ => rfl) e) (fun t _ e _ => kept elrMask (fun _ => rfl) e)
    (fun t _ e _ => kept lpMask (fun _ => rfl) e) (fun t block stays store _ out => ?mu) (fun power => ?power)
    (fun restart => ?restart) ?store
  case mu =>
    refine (exec_mu_of (P := fun t => SpillLaw (t.point o)) block stays store h (fun u g r d => respond_spillLaw)
      (fun _ _ => h) (fun _ => h) h (fun a g => ?_) fun g id => ?_).of_next out
    · unfold State.point
      rw [applyGate_keeps State.points (fun _ => rfl) (fun _ => rfl) (fun _ => rfl) (fun _ => rfl)]
      exact h
    · refine commitTable_of (P := fun t => SpillLaw (t.point o)) (fun r d => respond_spillLaw h) (arrange_spillLaw ?_)
      exact h
  case power =>
    obtain ⟨strap, rfl⟩ | rfl := power
    · exact ⟨_, exec_powerOn s strap, reset (bootPart_rests _ strap).2⟩
    · refine ⟨_, exec_powerLoss s, ?_⟩
      split
      · exact reset rfl
      · exact h
  case restart =>
    exact exec_restarts_of (P := fun t => SpillLaw (t.point o)) restart h (fun g r => respond_spillLaw h) (fun _ => h)
      fun g => reset (restartNow_rests s g).2
  case store =>
    rintro rfl
    exact (exec_storeWriteComplete s).mono fun t e => kept storeMask (fun _ => rfl) e

end Points

end Sys2Proof.Machine
end


section
/-! PROOF. What every step keeps: full banks of tables, and full copies in the store. The laws hold after reset. -/

namespace Sys2Proof.Machine

section FullBanks

/-- Both banks of every table are full. -/
def FullTables (t : Tables) : Prop := ∀ id, FullContents (activeContents t id) ∧ FullContents (inactiveContents t id)

/-- What a copy of the store holds is full. -/
def FullCopy (c : Option StoreCopy) : Prop := ∀ x, c = some x → FullContents x.contents

def FullPair (c : CopyPair) : Prop := FullCopy c.first ∧ FullCopy c.second

def FullStore (st : Store) : Prop := ∀ id, FullPair (storePair st id)

theorem tablesLaw_iff (s : State) : TablesLaw s ↔ FullTables s.tables ∧ FullStore s.store :=
  ⟨fun ⟨a, i, f, x⟩ => ⟨fun id => ⟨a id, i id⟩, fun id => ⟨f id, x id⟩⟩,
    fun ⟨t, st⟩ => ⟨fun id => (t id).1, fun id => (t id).2, fun id => (st id).1, fun id => (st id).2⟩⟩

theorem exchangeTable_contents (t : Tables) (id other : TableId) :
    activeContents (exchangeTable t id) other = (if other = id then inactiveContents t id else activeContents t other)
    ∧ inactiveContents (exchangeTable t id) other = inactiveContents t other := by
  cases id <;> cases other <;>
    simp [exchangeTable, activeContents, inactiveContents, exchange] <;> split <;> simp_all

theorem exchangeTable_full {t : Tables} (id : TableId) (h : FullTables t) : FullTables (exchangeTable t id) := by
  intro other
  obtain ⟨active, inactive⟩ := exchangeTable_contents t id other
  rw [active, inactive]
  refine ⟨?_, (h other).2⟩
  split
  · exact (h id).2
  · exact (h other).1

theorem discardTable_contents (t : Tables) (id other : TableId) :
    activeContents (discardTable t id) other = activeContents t other
    ∧ inactiveContents (discardTable t id) other = (if other = id then activeContents t id else inactiveContents t other) := by
  cases id <;> cases other <;>
    simp [discardTable, activeContents, inactiveContents, Banks.discard] <;> split <;> simp_all

theorem discardTable_full {t : Tables} (id : TableId) (h : FullTables t) : FullTables (discardTable t id) := by
  intro other
  obtain ⟨active, inactive⟩ := discardTable_contents t id other
  rw [active, inactive]
  refine ⟨(h other).1, ?_⟩
  split
  · exact (h id).1
  · exact (h other).2

theorem putVolume_full {t : LevelVolume} (sect : Section) (i : Nat) (e : TableEntry) :
    (putVolume t sect i e).volumes.length = t.volumes.length := by
  unfold putVolume
  repeat' split
  all_goals simp

theorem putWeir_full {t : Weir} (sect : Section) (i : Nat) (e : TableEntry) :
    (putWeir t sect i e).flows.length = t.flows.length := by
  unfold putWeir
  repeat' split
  all_goals simp

/-- A write changes no active bank. -/
theorem putEntry_active (t : Tables) (id : TableId) (sect : Section) (i : Nat) (e : TableEntry) (other : TableId) :
    activeContents (putEntry t id sect i e) other = activeContents t other := by
  unfold putEntry
  split <;> cases other <;> simp [activeContents, Banks.write] <;> split <;> simp_all

theorem putEntry_inactive {t : Tables} (id : TableId) (sect : Section) (i : Nat) (e : TableEntry) (other : TableId)
    (h : FullContents (inactiveContents t other)) : FullContents (inactiveContents (putEntry t id sect i e) other) := by
  unfold putEntry
  split <;> cases other <;> simp_all [inactiveContents, Banks.write, FullContents, putWeir_full] <;>
    split <;> simp_all [putVolume_full]

theorem putEntry_full {t : Tables} (id : TableId) (sect : Section) (i : Nat) (e : TableEntry) (h : FullTables t) :
    FullTables (putEntry t id sect i e) := by
  intro other
  rw [putEntry_active]
  exact ⟨(h other).1, putEntry_inactive id sect i e other (h other).2⟩

theorem writeEntries_full (id : TableId) (sect : Section) (dir : Direction) (es : List TableEntry) (start : Option Nat)
    {t : Tables} (h : FullTables t) : FullTables (writeEntries id sect dir start es t).1 := by
  induction es generalizing start t with
  | nil => cases start <;> exact h
  | cons e es ih =>
    cases start with
    | none => exact h
    | some i =>
      unfold writeEntries
      split
      · exact ih _ (putEntry_full id sect i e h)
      · exact h

/-! ### The store -/

theorem storePair_setPair (st : Store) (id other : TableId) (c : CopyPair) :
    storePair (setPair st id c) other = if other = id then c else storePair st other := by
  cases id <;> cases other <;> simp [storePair, setPair]

theorem setPair_full {st : Store} {c : CopyPair} (id : TableId) (h : FullStore st) (pair : FullPair c) :
    FullStore (setPair st id c) := by
  intro other
  rw [storePair_setPair]
  split
  · exact pair
  · exact h other

theorem fullCopy_none : FullCopy none := by simp [FullCopy]

theorem writePair_full {c : CopyPair} {contents : TableContents} (h : FullPair c) (full : FullContents contents) :
    FullPair (writePair c contents) := by
  have copy : FullCopy (some (makeCopy contents (nextGeneration c))) := by
    rintro x ⟨⟩
    exact full
  unfold writePair
  split
  · exact ⟨copy, h.2⟩
  · exact ⟨h.1, copy⟩

theorem tornPair_full {c : CopyPair} {contents : TableContents} (t : TornWrite) (h : FullPair c)
    (full : FullContents contents) : FullPair (tornPair c contents t) := by
  cases t with
  | before => exact h
  | written => exact writePair_full h full
  | torn =>
    unfold tornPair
    dsimp only
    split
    · exact ⟨fullCopy_none, h.2⟩
    · exact ⟨h.1, fullCopy_none⟩

theorem loadCopy_full {c : CopyPair} (h : FullPair c) {x : TableContents} (loaded : loadCopy c = some x) : FullContents x := by
  obtain ⟨first, second⟩ := h
  have of : ∀ {k : Option StoreCopy}, FullCopy k → k.map (·.contents) = some x → FullContents x := by
    intro k full e
    obtain ⟨y, held, rfl⟩ := Option.map_eq_some_iff.1 e
    exact full y held
  unfold loadCopy at loaded
  repeat' split at loaded
  all_goals first | exact of first loaded | exact of second loaded | cases loaded

/-- A loaded bank holds what a copy held, or the blank contents. -/
theorem loadTables_full {st : Store} (h : FullStore st) : FullTables (loadTables st) := by
  have whole : ∀ {α : Type} {P : α → Prop} {blank : α} (x : Option α), P blank → (∀ y, x = some y → P y) →
      (P (loadOr blank x).active ∧ P (loadOr blank x).inactive)
        ∧ P (loadOrValid blank x).active ∧ P (loadOrValid blank x).inactive := by
    intro α P blank x empty full
    cases x with
    | none => exact ⟨⟨empty, empty⟩, empty, empty⟩
    | some y => exact ⟨⟨full y rfl, full y rfl⟩, full y rfl, full y rfl⟩
  have copies : ∀ id x, loadCopy (storePair st id) = some x → FullContents x := fun id x => loadCopy_full (h id)
  have volume : ∀ w y, asLevelVolume (loadCopy (storePair st (.levelVolume w))) = some y → FullContents (.levelVolume y) := by
    intro w y e
    unfold asLevelVolume at e
    split at e
    · next t loaded =>
      cases e
      exact copies (.levelVolume w) _ loaded
    · cases e
  intro id
  cases id with
  | sampleMap =>
    refine (whole (P := fun t => FullContents (.sampleMap t)) (blank := blankSampleMap) _ (by rfl) fun y e => ?_).1
    unfold asSampleMap at e
    split at e
    · next t loaded =>
      cases e
      exact copies .sampleMap _ loaded
    · cases e
  | levelVolume w =>
    cases w with
    | a => exact (whole (P := fun t => FullContents (.levelVolume t)) (blank := blankLevelVolume) _ (by rfl) (volume .a)).1
    | b => exact (whole (P := fun t => FullContents (.levelVolume t)) (blank := blankLevelVolume) _ (by rfl) (volume .b)).1
  | pumpCurves =>
    refine (whole (P := fun t => FullContents (.pumpCurves t)) (blank := blankPumpCurves) _ (by rfl) fun y e => ?_).1
    unfold asPumpCurves at e
    split at e
    · next t loaded =>
      cases e
      exact copies .pumpCurves _ loaded
    · cases e
  | weir =>
    refine (whole (P := fun t => FullContents (.weir t)) (blank := blankWeir) _ (by rfl) fun y e => ?_).1
    unfold asWeir at e
    split at e
    · next t loaded =>
      cases e
      exact copies .weir _ loaded
    · cases e
  | stationSetup => exact ⟨trivial, trivial⟩
  | gates =>
    refine (whole (P := fun t => FullContents (.gates t)) (blank := blankGates) _ (by rfl) fun y e => ?_).2
    unfold asGates at e
    split at e
    · next t loaded =>
      cases e
      exact copies .gates _ loaded
    · cases e
  | sources =>
    refine (whole (P := fun t => FullContents (.sources t)) (blank := defaultSources) _ (by rfl) fun y e => ?_).2
    unfold asSources at e
    split at e
    · next t loaded =>
      cases e
      exact copies .sources _ loaded
    · cases e

/-! ### The tables a reset loads, and those a commit leaves -/

theorem bootFrames_tables (s : State) : (bootFrames s).tables = s.tables := by
  have floats : ∀ t, dcMask (offerFloats t) = dcMask t :=
    fun t => each_dc _ (fun s p => by split <;> simp) _ _
  exact (eq_of_mask dcMask State.tables (fun _ => rfl) (floats _)).trans
    (eq_of_mask cuMask State.tables (fun _ => rfl) (offerCadenceAll_cu _))

theorem bootPart_tables (s : State) (strap : BitVec 6) : (bootPart s strap).tables = loadTables s.store := by
  unfold bootPart
  split
  · exact bootFrames_tables _
  · rfl

theorem restartNow_tables (s : State) (h : ReqHead) : (restartNow s h).tables = loadTables s.store := by
  unfold restartNow restartPart
  dsimp only
  rw [respond_tables, bootFrames_tables, State.raiseIf_tables]
  rfl

theorem arrange_fullTables {s : State} {id : TableId} (h : FullTables s.tables) : FullTables (arrange s id).tables := by
  have commit : ∀ u : State, FullTables u.tables → FullTables (completeCommit u id).tables := by
    intro u full
    unfold completeCommit
    split
    · exact exchangeTable_full id full
    · exact full
  cases id with
  | sampleMap =>
    show FullTables (takeSampleMap _ _).tables
    rw [eq_of_mask cuMask State.tables (fun _ => rfl) (takeSampleMap_cu _ _)]
    exact commit s h
  | stationSetup =>
    show FullTables (takeSetup _ _).tables
    rw [takeSetup_keeps State.tables (fun _ _ _ => rfl) (fun _ => rfl) (fun _ => rfl) (fun _ => rfl) (fun _ => rfl)]
    exact commit s h
  | gates | sources => exact commit s h
  | levelVolume w | pumpCurves => exact h
  | weir =>
    have taken : ∀ (xs : List Point) (u : State), FullTables u.tables →
        FullTables (State.each (fun s o => if pointBlind s o then takeWeir s o else s) xs u).tables := by
      intro xs
      induction xs with
      | nil => exact fun u full => full
      | cons o xs ih =>
        refine fun u full => ih _ ?_
        dsimp only
        split
        · exact takeWeir_tables (P := FullTables) (fun t id _ => exchangeTable_full id) full
        · exact full
    exact taken _ _ h

theorem tearStore_full {s : State} (tables : FullTables s.tables) (h : FullStore s.store) : FullStore (tearStore s).store := by
  unfold tearStore
  split
  · next id _ _ _ => exact setPair_full id h (tornPair_full _ (h id) (tables id).1)
  · exact h

theorem losePower_full {s : State} (tables : FullTables s.tables) (h : FullStore s.store) :
    FullTables (losePower s).tables ∧ FullStore (losePower s).store :=
  ⟨loadTables_full (tearStore_full tables h), tearStore_full tables h⟩

theorem finishStore_full {s : State} (id : TableId) (g : ReqHead) (tables : FullTables s.tables) (h : FullStore s.store) :
    FullTables (finishStore s id g).tables ∧ FullStore (finishStore s id g).store := by
  have kept : (finishStore s id g).tables = s.tables ∧ (finishStore s id g).store = (writeStore s id).store := by
    unfold finishStore
    dsimp only
    split
    · exact ⟨rfl, rfl⟩
    · refine ⟨respond_tables .., ?_⟩
      exact eq_of_mask bootMask State.store (fun _ => rfl) (respond_boot ..)
  rw [kept.1, kept.2]
  exact ⟨tables, setPair_full id h (writePair_full (h id) (tables id).1)⟩

/-- Settles O8. -/
theorem everyStepKeepsTablesFull : Obligations.EveryStepKeepsTablesFull := by
  intro s t law out
  refine step_keeps (law := TablesLaw) (fun _ _ _ h => by rw [tablesLaw_iff] at h ⊢; exact h) (fun c s h => ?_) law out
  rw [tablesLaw_iff] at h
  obtain ⟨tables, store⟩ := h
  refine Yields.mono (R := fun _ t => FullTables t.tables ∧ FullStore t.store) ?_ fun t => (tablesLaw_iff t).2
  have kept : ∀ (mask : State → State), (∀ u : State, (mask u).tables = u.tables ∧ (mask u).store = u.store) →
      ∀ {t : State}, mask t = mask s → FullTables t.tables ∧ FullStore t.store := by
    intro mask seen t e
    rw [eq_of_mask mask State.tables (fun u => (seen u).1) e, eq_of_mask mask State.store (fun u => (seen u).2) e]
    exact ⟨tables, store⟩
  have stored : ∀ (mask : State → State), (∀ u : State, (mask u).store = u.store) → ∀ {t : State}, mask t = mask s →
      FullTables t.tables → FullTables t.tables ∧ FullStore t.store := by
    intro mask seen t e full
    rw [eq_of_mask mask State.store seen e]
    exact ⟨full, store⟩
  have exchanged : ∀ (t : Tables) (id : TableId), id ≠ .stationSetup → FullTables t → FullTables (exchangeTable t id) :=
    fun t id _ => exchangeTable_full id
  have seen : ∀ mask : State → State, (∀ u, mask u = { mask u with tables := u.tables, store := u.store }) →
      ∀ u : State, (mask u).tables = u.tables ∧ (mask u).store = u.store := by
    intro mask same u
    rw [same]
    exact ⟨rfl, rfl⟩
  refine exec_yields s (R := fun _ t => FullTables t.tables ∧ FullStore t.store)
    (fun t _ e _ => kept cuMask (seen _ fun _ => rfl) e)
    (fun t b e out => stored wmuMask (fun _ => rfl) e (exec_wmu_tables exchanged b out tables))
    (fun t _ e _ => kept dcMask (seen _ fun _ => rfl) e) (fun t _ e _ => kept sbMask (seen _ fun _ => rfl) e)
    (fun t _ e _ => kept scHourMask (seen _ fun _ => rfl) e)
    (fun t b e out => stored oaMask (fun _ => rfl) e (exec_oa_tables exchanged b out tables))
    (fun t _ e _ => kept ssuMask (seen _ fun _ => rfl) e) (fun t _ e _ => kept elrMask (seen _ fun _ => rfl) e)
    (fun t _ e _ => kept lpMask (seen _ fun _ => rfl) e)
    (fun t block stays write e out => stored muMask (fun _ => rfl) e ?mu) (fun power => ?power) (fun restart => ?restart)
    ?store
  case mu =>
    refine exec_mu_tables (P := FullTables) block stays out ?_ tables (fun id => discardTable_full id tables)
      fun a => writeEntries_full _ _ _ _ _ tables
    rintro ⟨g, id, rfl⟩
    have committed : Yields (fun _ t => FullTables t.tables) s (exec (.tableCommit g (some id)) s) := by
      apply whenLive_yields (R := fun _ t => FullTables t.tables) tables
      have answer : ∀ r d, FullTables (respond s g r d).tables := by
        intro r d
        rw [respond_tables]
        exact tables
      exact onRequest_of (P := fun t => FullTables t.tables) tables (fun r => answer r _)
        fun n a => commitTable_of (P := fun t => FullTables t.tables) answer (arrange_fullTables tables)
    exact committed.of_next out
  case power =>
    have lost : FullTables (if s.powered then losePower s else s).tables ∧ FullStore (if s.powered then losePower s else s).store := by
      split
      · exact losePower_full tables store
      · exact ⟨tables, store⟩
    obtain ⟨strap, rfl⟩ | rfl := power
    · refine ⟨_, exec_powerOn s strap, ?_⟩
      dsimp only
      rw [bootPart_tables, (bootPart_keeps ..).1]
      exact ⟨loadTables_full lost.2, lost.2⟩
    · exact ⟨_, exec_powerLoss s, lost⟩
  case restart =>
    refine exec_restarts_of (P := fun t => FullTables t.tables ∧ FullStore t.store) restart ⟨tables, store⟩ (fun g r => ?_)
      (fun _ => ⟨tables, store⟩) fun g => ?_
    · rw [respond_tables, eq_of_mask bootMask State.store (fun _ => rfl) (respond_boot ..)]
      exact ⟨tables, store⟩
    · rw [restartNow_tables, eq_of_mask bootMask State.store (fun _ => rfl) (restartNow_boot ..)]
      exact ⟨loadTables_full store, store⟩
  case store =>
    rintro rfl
    apply whenLive_yields (R := fun _ t => FullTables t.tables ∧ FullStore t.store) ⟨tables, store⟩
    split
    · exact finishStore_full _ _ tables store
    · exact ⟨tables, store⟩

end FullBanks

/-! ## Reset -/

section Reset

theorem loopLaw_reset : LoopLaw State.reset.lp := by
  constructor <;> decide

theorem ownerLaw_reset (p : Pump) : OwnerLaw (State.reset.pump p) := by
  cases p <;> constructor <;> decide

theorem runningLaw_reset : RunningLaw State.reset where
  owners := ownerLaw_reset
  lists w p := by cases w <;> cases p <;> decide
  once w := by cases w <;> decide
  limit w := by cases w <;> decide

theorem tablesLaw_reset : TablesLaw State.reset := by
  rw [tablesLaw_iff]
  refine ⟨fun id => ?_, fun id => ?_⟩
  · cases id with
    | levelVolume w => cases w <;> exact ⟨rfl, rfl⟩
    | stationSetup => exact ⟨trivial, trivial⟩
    | sampleMap | pumpCurves | weir | gates | sources => exact ⟨rfl, rfl⟩
  · cases id with
    | levelVolume w => cases w <;> exact ⟨fullCopy_none, fullCopy_none⟩
    | stationSetup | sampleMap | pumpCurves | weir | gates | sources => exact ⟨fullCopy_none, fullCopy_none⟩

/-- Settles O9. -/
theorem resetMeetsLaws : Obligations.ResetMeetsLaws where
  log := logLaw_reset 0 .dry
  loop := loopLaw_reset
  points o := by cases o <;> exact spillLaw_reset
  running := runningLaw_reset
  tables := tablesLaw_reset
  backoff := by decide

end Reset

end Sys2Proof.Machine
end


section
/-! PROOF. Overflow accounting: samples and notices, the litres, and the cause flags. -/

namespace Sys2Proof.Machine

section Overflow

variable {s : State} {o : Point}

/-! ## What OA's operations leave of the records that its conditions read -/

/-- A state that OA's operations lead to: the records it reads of other blocks stand. -/
structure Accounted (s t : State) : Prop where
  frame : oaMask t = oaMask s
  setup : t.setup = s.setup
  clock : t.mu.clock = s.mu.clock

theorem Accounted.refl (s : State) : Accounted s s := ⟨rfl, rfl, rfl⟩
theorem Accounted.trans {s t u : State} (h : Accounted s t) (k : Accounted t u) : Accounted s u :=
  ⟨k.frame.trans h.frame, k.setup.trans h.setup, k.clock.trans h.clock⟩

theorem Accounted.causes {t : State} (h : Accounted s t) : causesNow t o = causesNow s o := by
  have e := frame_of_oa h.frame
  have setup : t.tables.setup.active = s.tables.setup.active := h.setup
  rw [e]
  simp only [causesNow, commandedRunning, maxRunning, State.setup, State.pump, State.chan, setup]

theorem Accounted.seconds {t : State} (h : Accounted s t) (x : Ms) : stationSeconds t x = stationSeconds s x := by
  have now : t.now = s.now := eq_of_mask oaMask State.now (fun _ => rfl) h.frame
  simp only [stationSeconds, now, h.clock]

theorem Accounted.setPoint (s : State) (o : Point) (r : PointRecord) : Accounted s (s.setPoint o r) := ⟨rfl, rfl, rfl⟩

theorem completeCommit_accounted (s : State) {id : TableId} (other : id ≠ .stationSetup) :
    Accounted s (completeCommit s id) := by
  refine ⟨completeCommit_oa s id, ?_, ?_⟩
  · exact completeCommit_tables (P := fun t => t.setup.active = s.setup)
      (fun t i k h => (congrArg Banks.active (exchangeTable_setup t k)).trans h) other rfl
  · unfold completeCommit
    split <;> rfl

theorem takeWeir_accounted (s : State) (o : Point) : Accounted s (takeWeir s o) := by
  unfold takeWeir
  split
  · dsimp only
    split
    · refine Accounted.trans ?_ (completeCommit_accounted _ (id := .weir) (by simp))
      exact ⟨rfl, rfl, rfl⟩
    · exact ⟨rfl, rfl, rfl⟩
  · exact .refl s

/-- What taking a weir switch does to the points (R133). -/
theorem takeWeir_point (s : State) (o p : Point) : (takeWeir s o).point p =
    if p = o then { s.point o with
      pendingSwitch := false
      slot := (s.point o).slot.map fun x =>
        { x with flags := { x.flags with tableChanged := x.flags.tableChanged || (s.point o).pendingSwitch } } }
    else s.point p := by
  have noted : ∀ u : State, (s.point o).pendingSwitch = true → u = updateSlot
      (s.setPoint o { s.point o with pendingSwitch := false }) o
      (fun x => { x with flags := { x.flags with tableChanged := true } }) → u.point p = if p = o then { s.point o with
      pendingSwitch := false
      slot := (s.point o).slot.map fun x =>
        { x with flags := { x.flags with tableChanged := x.flags.tableChanged || (s.point o).pendingSwitch } } }
      else s.point p := by
    rintro u pending rfl
    unfold updateSlot
    simp only [State.point_setPoint, pending, Bool.or_true, if_true]
    split <;> rfl
  unfold takeWeir
  split
  · next pending =>
    dsimp only
    split
    · refine Eq.trans ?_ (noted _ pending rfl)
      exact congrArg (fun ps : PerPoint PointRecord => ps.get p) (completeCommit_points ..)
    · exact noted _ pending rfl
  · next still =>
    have none : (s.point o).pendingSwitch = false := by simpa using still
    split
    · next same =>
      subst same
      have same : (s.point p).slot.map (fun x => { x with flags := { x.flags with
          tableChanged := x.flags.tableChanged || false } }) = (s.point p).slot := by
        cases (s.point p).slot <;> simp
      rw [none, same]
      rw [← none]
    · rfl

/-- The bank that a point reads from the sample on that takes its switch (R133, R134). -/
theorem weirCurve_takeWeir (s : State) (o : Point) : weirCurve (takeWeir s o) o =
    if weirScheduled s then some (s.tables.weir.inactive.steps.get o, weirFlows s.tables.weir.inactive o)
    else if s.tables.weir.isEmpty then none
    else some (s.tables.weir.active.steps.get o, weirFlows s.tables.weir.active o) := by
  have taken : ((takeWeir s o).point o).pendingSwitch = false := by simp [takeWeir_point]
  have scheduled : weirScheduled s = true ↔ ∃ h, scheduledReq s .weir = some h := by
    unfold weirScheduled scheduledReq
    cases s.mu.commit with
    | scheduled id h => cases id <;> simp
    | none | storing => simp
  have cases_ : ((takeWeir s o).tables.weir = s.tables.weir ∧ (takeWeir s o).mu = s.mu)
      ∨ weirScheduled s = true ∧ (takeWeir s o).tables.weir = exchange s.tables.weir
        ∧ weirScheduled (takeWeir s o) = false := by
    have complete : ∀ u : State, u.tables = s.tables → u.mu = s.mu →
        ((completeCommit u .weir).tables.weir = s.tables.weir ∧ (completeCommit u .weir).mu = s.mu)
        ∨ weirScheduled s = true ∧ (completeCommit u .weir).tables.weir = exchange s.tables.weir
          ∧ weirScheduled (completeCommit u .weir) = false := by
      intro u tables mu
      have same : scheduledReq u .weir = scheduledReq s .weir := by simp only [scheduledReq, mu]
      unfold completeCommit
      split
      · next h req =>
        refine .inr ⟨scheduled.2 ⟨h, same ▸ req⟩, ?_, rfl⟩
        show exchange u.tables.weir = _
        rw [tables]
      · exact .inl ⟨by rw [tables], mu⟩
    unfold takeWeir
    split
    · dsimp only
      split
      · exact complete _ rfl rfl
      · exact .inl ⟨rfl, rfl⟩
    · exact .inl ⟨rfl, rfl⟩
  obtain ⟨bank, mu⟩ | ⟨was, bank, done⟩ := cases_
  · have same : weirScheduled (takeWeir s o) = weirScheduled s := by simp only [weirScheduled, mu]
    simp [weirCurve, taken, bank, same]
  · simp [weirCurve, bank, done, was, exchange]

/-! ## The step of the spill state (R125 to R129) -/

/-- A record written at a point with a new spill state: what the points are then. -/
theorem setSpill_setPoint_point (s : State) (o p : Point) (r : PointRecord) (st : SpillState) :
    (setSpill (s.setPoint o r) o st).point p = if p = o then { r with spill := st } else s.point p := by
  refine (State.point_setPoint ..).trans ?_
  simp only [State.point_setPoint, if_true]
  split <;> rfl

theorem updateSlot_point (s : State) (o p : Point) (f : Slot → Slot) :
    (updateSlot s o f).point p = if p = o then { s.point o with slot := (s.point o).slot.map f } else s.point p :=
  State.point_setPoint ..

theorem evaluateCauses_point (s : State) (o p : Point) : (evaluateCauses s o).point p =
    if p = o then { s.point o with slot := (s.point o).slot.map fun x =>
      { x with causes := joinCauses x.causes (causesNow s o) } } else s.point p :=
  updateSlot_point ..

section Moves

variable {x : Slot} {v : SpillSample}

theorem confirmEvent_point (p : Point) : (confirmEvent s o x).point p = if p = o then { s.point o with
      spill := .open_, events := (s.point o).events + 1
      slot := some { x with number := some ((s.point o).events + 1), confirmClock := 0 } } else s.point p :=
  setSpill_setPoint_point ..

theorem removeSlot_point (n : Nat) (p : Point) : (removeSlot s o n).point p = if p = o then { s.point o with
      spill := .dry, slot := none, unconfirmed := (s.point o).unconfirmed + n } else s.point p :=
  setSpill_setPoint_point ..

theorem closeEvent_point (p : Point) : (closeEvent s o x).point p = if p = o then { s.point o with
      spill := .dry, slot := none } else s.point p :=
  (removeSlot_point 0 p).trans rfl

variable (slot : (s.point o).slot = some x)
include slot

theorem sampleByState_tentative (spill : (s.point o).spill = .tentative) :
    sampleByState s o v = sampleTentative s o v x := by simp [sampleByState, slot, spill]
theorem sampleByState_open (spill : (s.point o).spill = .open_) : sampleByState s o v = sampleOpen s o v x := by
  simp [sampleByState, slot, spill]
theorem sampleByState_closing (spill : (s.point o).spill = .closing) : sampleByState s o v = sampleClosing s o v x := by
  simp [sampleByState, slot, spill]

omit slot

theorem sampleByState_dry (slot : (s.point o).slot = none) (spill : (s.point o).spill = .dry) :
    sampleByState s o v = sampleDry s o v := by simp [sampleByState, slot, spill]

/-- What a step of the spill state changes: of its point's record the state, the slot, the unconfirmed litres and the number of
events. -/
def Stepped (o : Point) (s t : State) : Prop := ∀ p, t.point p = if p = o then { s.point o with
    spill := (t.point o).spill, slot := (t.point o).slot, unconfirmed := (t.point o).unconfirmed
    events := (t.point o).events } else s.point p

theorem Stepped.of {t : State} {r : PointRecord} (points : ∀ p, t.point p = if p = o then r else s.point p)
    (own : r = { s.point o with
      spill := r.spill, slot := r.slot, unconfirmed := r.unconfirmed, events := r.events }) : Stepped o s t := by
  intro p
  have held : t.point o = r := by simp [points]
  rw [held, ← own]
  exact points p

theorem sampleByState_stepped : Stepped o s (sampleByState s o v) := by
  have same : Stepped o s s := by
    intro p
    split
    · next h => rw [h]
    · rfl
  have dry : Stepped o s (sampleDry s o v) := by
    unfold sampleDry
    split
    · refine .of (r := ?_) (fun p => ?_) ?_
      rotate_left
      · rw [evaluateCauses_point, setSpill_setPoint_point, setSpill_setPoint_point, if_pos rfl]
        split
        · rfl
        · rfl
      · rfl
    · exact same
  have tentative : ∀ x, Stepped o s (sampleTentative s o v x) := by
    intro x
    unfold sampleTentative
    dsimp only
    split
    · split
      · exact .of confirmEvent_point rfl
      · exact .of (State.point_setPoint _ _ · _) rfl
    · exact .of (removeSlot_point _) rfl
  have opened : ∀ x, Stepped o s (sampleOpen s o v x) := by
    intro x
    unfold sampleOpen
    dsimp only
    split
    · exact same
    · exact .of (setSpill_setPoint_point _ _ · _ _) rfl
  have closing : ∀ x, Stepped o s (sampleClosing s o v x) := by
    intro x
    unfold sampleClosing
    dsimp only
    split
    · exact .of (setSpill_setPoint_point _ _ · _ _) rfl
    · split
      · exact .of closeEvent_point rfl
      · exact .of (State.point_setPoint _ _ · _) rfl
  unfold sampleByState
  split
  · exact tentative _
  · exact opened _
  · exact closing _
  · exact dry
  · exact same

theorem setSpill_accounted (st : SpillState) : Accounted s (setSpill s o st) := ⟨rfl, rfl, rfl⟩

/-- DRY takes a sample (R125). -/
theorem dry_takes {T : State} (none : (s.point o).slot = none) (dry : (s.point o).spill = .dry)
    (moved : T = sampleByState s o v) :
    (T.point o).unconfirmed = (s.point o).unconfirmed
    ∧ (v.spills = true → (T.point o).spill = .tentative ∧ .spillStateDelivery o .tentative ∈ T.raised
      ∧ (T.point o).slot = some { newSlot v with causes := joinCauses .clear (causesNow s o) })
    ∧ (v.spills = false → (T.point o).spill = .dry ∧ (T.point o).slot = .none) := by
  rw [sampleByState_dry none dry] at moved
  unfold sampleDry at moved
  cases spills : v.spills with
  | true =>
    have causes : causesNow (setSpill (s.setPoint o { s.point o with slot := some (newSlot v) }) o .tentative) o
        = causesNow s o := ((Accounted.setPoint s o _).trans (setSpill_accounted _)).causes
    rw [if_pos spills] at moved
    rw [moved, evaluateCauses_point, if_pos rfl, setSpill_setPoint_point, if_pos rfl, causes]
    exact ⟨rfl, fun _ => ⟨rfl, List.mem_append_right _ (List.mem_singleton.2 rfl), rfl⟩, by simp⟩
  | false =>
    rw [if_neg (by simp [spills])] at moved
    rw [moved]
    exact ⟨rfl, by simp, fun _ => ⟨dry, none⟩⟩

/-- TENTATIVE takes a sample (R127): it is confirmed, goes on, or ends without an event. -/
theorem tentative_takes {D : Nat} {T : State} (held : (s.point o).slot = some x) (spill : (s.point o).spill = .tentative)
    (clock : (sinceLast (s.point o) v.time).getD 0 = D) (moved : T = sampleByState s o v) :
    (v.spills = true →
      (T.point o).unconfirmed = (s.point o).unconfirmed
      ∧ if (s.setup.openConfirm.get o).toNat * 1000 ≤ x.confirmClock + D then
          (T.point o).spill = .open_ ∧ (T.point o).events = (s.point o).events + 1
            ∧ (T.point o).slot = some { x with number := some ((s.point o).events + 1), confirmClock := 0 }
            ∧ .spillStateDelivery o .open_ ∈ T.raised
            ∧ .recordSubmission (.overflowOpen o ((s.point o).events + 1) (stationSeconds s x.start) x.peakFlow
                x.peakHead x.volume x.causes) ∈ T.raised
        else (T.point o).spill = .tentative ∧ (T.point o).slot = some { x with confirmClock := x.confirmClock + D })
    ∧ (v.spills = false → (T.point o).unconfirmed = (s.point o).unconfirmed + x.volume
      ∧ (T.point o).spill = .dry ∧ (T.point o).slot = none ∧ .spillStateDelivery o .dry ∈ T.raised) := by
  rw [sampleByState_tentative held spill] at moved
  unfold sampleTentative secondsMs at moved
  rw [clock] at moved
  refine ⟨fun spills => ?_, fun spills => ?_⟩
  · rw [if_pos spills] at moved
    dsimp only at moved
    by_cases confirmed : (s.setup.openConfirm.get o).toNat * 1000 ≤ x.confirmClock + D
    · rw [if_pos confirmed]
      rw [if_pos confirmed] at moved
      rw [moved, confirmEvent_point, if_pos rfl]
      exact ⟨rfl, rfl, rfl, rfl, by simp [confirmEvent, setSpill], List.mem_append_right _ (List.mem_singleton.2 rfl)⟩
    · rw [if_neg confirmed]
      rw [if_neg confirmed] at moved
      rw [moved, State.point_setPoint, if_pos rfl]
      exact ⟨rfl, spill, rfl⟩
  · rw [if_neg (by simp [spills])] at moved
    rw [moved, removeSlot_point, if_pos rfl]
    exact ⟨rfl, rfl, rfl, List.mem_append_right _ (List.mem_singleton.2 rfl)⟩

/-- OPEN takes a sample (R128). -/
theorem open_takes {D : Nat} {T : State} (held : (s.point o).slot = some x) (spill : (s.point o).spill = .open_)
    (clock : (sinceLast (s.point o) v.time).getD 0 = D) (moved : T = sampleByState s o v) :
    (T.point o).unconfirmed = (s.point o).unconfirmed
    ∧ (v.spills = true → (T.point o).spill = .open_ ∧ (T.point o).slot = some x)
    ∧ (v.spills = false → (T.point o).spill = .closing ∧ .spillStateDelivery o .closing ∈ T.raised
      ∧ (T.point o).slot = some { x with stop := some x.lastSpill, confirmClock := D }) := by
  rw [sampleByState_open held spill] at moved
  unfold sampleOpen at moved
  rw [clock] at moved
  cases spills : v.spills with
  | true =>
    rw [if_pos spills] at moved
    rw [moved]
    exact ⟨rfl, fun _ => ⟨spill, held⟩, by simp⟩
  | false =>
    rw [if_neg (by simp [spills])] at moved
    dsimp only at moved
    rw [moved, setSpill_setPoint_point, if_pos rfl]
    exact ⟨rfl, by simp, fun _ => ⟨rfl, List.mem_append_right _ (List.mem_singleton.2 rfl), rfl⟩⟩

/-- CLOSING takes a sample (R129). -/
theorem closing_takes {D : Nat} {T : State} (held : (s.point o).slot = some x) (spill : (s.point o).spill = .closing)
    (clock : (sinceLast (s.point o) v.time).getD 0 = D) (moved : T = sampleByState s o v) :
    (T.point o).unconfirmed = (s.point o).unconfirmed
    ∧ (v.spills = true → (T.point o).spill = .open_ ∧ .spillStateDelivery o .open_ ∈ T.raised
      ∧ (T.point o).slot = some { x with stop := none, confirmClock := 0 })
    ∧ (v.spills = false →
      if (s.setup.closeConfirm.get o).toNat * 1000 ≤ x.confirmClock + D then
        (T.point o).spill = .dry ∧ (T.point o).slot = none ∧ .spillStateDelivery o .dry ∈ T.raised
          ∧ .recordSubmission (.overflowClose o (x.number.getD 0) (stationSeconds s x.start)
              (stationSeconds s (x.stop.getD x.lastSpill)) x.volume x.peakFlow x.peakHead x.causes x.flags) ∈ T.raised
      else (T.point o).spill = .closing ∧ (T.point o).slot = some { x with confirmClock := x.confirmClock + D }) := by
  rw [sampleByState_closing held spill] at moved
  unfold sampleClosing secondsMs at moved
  rw [clock] at moved
  cases spills : v.spills with
  | true =>
    rw [if_pos spills] at moved
    rw [moved, setSpill_setPoint_point, if_pos rfl]
    exact ⟨rfl, fun _ => ⟨rfl, List.mem_append_right _ (List.mem_singleton.2 rfl), rfl⟩, by simp⟩
  | false =>
    rw [if_neg (by simp [spills])] at moved
    dsimp only at moved
    by_cases closed : (s.setup.closeConfirm.get o).toNat * 1000 ≤ x.confirmClock + D
    · rw [if_pos closed] at moved
      rw [if_pos closed, moved, closeEvent_point, if_pos rfl]
      exact ⟨rfl, by simp, fun _ => ⟨rfl, rfl, List.mem_append_right _ (List.mem_singleton.2 rfl),
        List.mem_append_left _ (List.mem_append_right _ (List.mem_singleton.2 rfl))⟩⟩
    · rw [if_neg closed] at moved
      rw [if_neg closed, moved, State.point_setPoint, if_pos rfl]
      exact ⟨rfl, by simp, fun _ => ⟨spill, rfl⟩⟩

/-! ## A sample's flow (R122, R134) -/

/-- What a sample says, by the curve that its point reads. -/
theorem spillSample_eq {level h : Int} {time flow : Nat} {est : Bool} (head : h = level - s.setup.crest.get o)
    (empty : weirCurve s o = none → flow = 0 ∧ est = true)
    (low : ∀ c, weirCurve s o = some c → h ≤ s.setup.deadBand.get o → flow = 0 ∧ est = false)
    (top : ∀ c, weirCurve s o = some c → s.setup.deadBand.get o < h → 16 * (c.1 : Int) ≤ h →
      flow = c.2.getD 16 0 ∧ est = decide (16 * (c.1 : Int) < h))
    (within : ∀ c, weirCurve s o = some c → s.setup.deadBand.get o < h → h < 16 * (c.1 : Int) →
      est = false ∧ ∃ i f : Nat, h = c.1 * i + f ∧ f < c.1
        ∧ flow = c.2.getD i 0 + (c.2.getD (i + 1) 0 - c.2.getD i 0) * f / c.1) :
    spillSample s o level time = ⟨time, h, flow, decide (s.setup.deadBand.get o < h), est⟩ := by
  unfold spillSample
  rw [← head]
  dsimp only
  cases curve : weirCurve s o with
  | none =>
    obtain ⟨rfl, rfl⟩ := empty curve
    rfl
  | some c =>
    obtain ⟨stepSize, flows⟩ := c
    dsimp only
    by_cases spills : s.setup.deadBand.get o < h
    · rw [if_pos (by simpa using spills)]
      unfold weirFlow
      by_cases high : 16 * (stepSize : Int) ≤ h
      · obtain ⟨rfl, rfl⟩ := top _ curve spills high
        rw [if_pos (by omega)]
        simp [pointAt, spills]
      · obtain ⟨rfl, i, f, at_, small, rfl⟩ := within _ curve spills (by omega)
        rw [if_neg (by omega)]
        have nat : h.toNat = f + stepSize * i := by
          dsimp only at at_
          have : ((stepSize * i : Nat) : Int) = (stepSize : Int) * (i : Int) := Nat.cast_mul ..
          omega
        dsimp only at small
        have positive : 0 < stepSize := by omega
        have index : h.toNat / stepSize = i := by
          rw [nat, Nat.add_mul_div_left _ _ positive, Nat.div_eq_of_lt small, Nat.zero_add]
        have rest : h.toNat % stepSize = f := by
          rw [nat, Nat.add_mul_mod_self_left, Nat.mod_eq_of_lt small]
        simp [pointAt, index, rest, spills]
    · obtain ⟨rfl, rfl⟩ := low _ curve (by omega)
      simp [spills]

/-! ## What a sample does to its point before the step of the spill state (R124, R126, R130, R133) -/

/-- The state in which a sample finds the spill state. -/
def observed (s : State) (o : Point) (v : SpillSample) : State :=
  evaluateCauses ((takeWeir s o).setPoint o (integratePoint ((takeWeir s o).point o) v)) o

theorem takeSample_eq (level : Int) (time : Ms) (hv : v = spillSample (takeWeir s o) o level time) :
    takeSample s o level time = (sampleByState (observed s o v) o v).setPoint o
      { (sampleByState (observed s o v) o v).point o with previous := some (v.flow, v.time) } := by
  subst hv
  rfl

theorem observed_accounted : Accounted s (observed s o v) :=
  (takeWeir_accounted s o).trans ⟨rfl, rfl, rfl⟩

theorem observed_elsewhere {p : Point} (other : p ≠ o) : (observed s o v).point p = s.point p := by
  unfold observed
  rw [evaluateCauses_point, if_neg other, State.point_setPoint, if_neg other, takeWeir_point, if_neg other]

theorem observed_dry (slot : (s.point o).slot = none) :
    (observed s o v).point o = { s.point o with pendingSwitch := false } := by
  unfold observed
  rw [evaluateCauses_point, if_pos rfl, State.point_setPoint, if_pos rfl, takeWeir_point, if_pos rfl]
  simp [integratePoint, slot]

theorem observed_pendingSwitch : ((observed s o v).point o).pendingSwitch = false := by
  have kept : ∀ r : PointRecord, (integratePoint r v).pendingSwitch = r.pendingSwitch := by
    intro r
    unfold integratePoint
    repeat' split
    all_goals rfl
  unfold observed
  rw [evaluateCauses_point, if_pos rfl, State.point_setPoint, if_pos rfl]
  simp [kept, takeWeir_point]

theorem notePeaks_eq (v : SpillSample) (x : Slot) : notePeaks v x = { x with
    lastSpill := if v.spills then v.time else x.lastSpill
    peakFlow := if v.spills then max x.peakFlow v.flow else x.peakFlow
    peakHead := if v.spills then max x.peakHead v.head else x.peakHead } := by
  unfold notePeaks
  split <;> rfl

/-- A slot after a sample's volume, peaks, flags and causes. -/
def noted (s : State) (o : Point) (v : SpillSample) (x : Slot) (V A D : Nat) : Slot :=
  { x with
    volume := x.volume + V, accumulator := A, gapOpen := false, causes := joinCauses x.causes (causesNow s o)
    lastSpill := if v.spills then v.time else x.lastSpill
    peakFlow := if v.spills then max x.peakFlow v.flow else x.peakFlow
    peakHead := if v.spills then max x.peakHead v.head else x.peakHead
    flags := { gap := x.flags.gap || x.gapOpen
               estimated := x.flags.estimated || v.estimated || decide (10000 < D)
               tableChanged := x.flags.tableChanged || (s.point o).pendingSwitch } }

theorem observed_slot {V A D : Nat} (slot : (s.point o).slot = some x)
    (timed : ∀ b, (s.point o).previous = some b → D = v.time - b.2
      ∧ V = (x.accumulator + (b.1 + v.flow) * min D 10000) / 2000
      ∧ A = (x.accumulator + (b.1 + v.flow) * min D 10000) % 2000)
    (first : (s.point o).previous = none → D = 0 ∧ V = 0 ∧ A = x.accumulator) :
    (observed s o v).point o = { s.point o with
      pendingSwitch := false, cumulative := (s.point o).cumulative + V, slot := some (noted s o v x V A D) } := by
  have causes : causesNow ((takeWeir s o).setPoint o (integratePoint ((takeWeir s o).point o) v)) o = causesNow s o :=
    ((takeWeir_accounted s o).trans (.setPoint _ _ _)).causes
  unfold observed
  rw [evaluateCauses_point, if_pos rfl, causes, State.point_setPoint, if_pos rfl, takeWeir_point, if_pos rfl]
  cases previous : (s.point o).previous with
  | none =>
    obtain ⟨rfl, rfl, rfl⟩ := first previous
    simp [integratePoint, slot, previous, notePeaks_eq, noteFlags, noted]
  | some b =>
    obtain ⟨rfl, rfl, rfl⟩ := timed b previous
    simp [integratePoint, slot, previous, notePeaks_eq, noteFlags, noted, integrateSlot, intervalVolume, litresAdded]

end Moves

/-! ## The obligations -/

theorem exec_overflowLevelUpdate_sample (live : s.live = true) {u : ChannelUpdate} {level : Int} (stored : u.stored = true)
    (good : u.quality = .good) (value : u.value = some level) :
    exec (.overflowLevelUpdate o u) s = .next (takeSample s o level (u.storedAt.getD s.now)) := by
  show execOverflowLevelUpdate o u s = _
  simp [execOverflowLevelUpdate, whenLive, live, stored, good, value]

theorem exec_overflowLevelUpdate_notice (live : s.live = true) {u : ChannelUpdate}
    (none : u.quality = .good → u.stored = false ∨ u.value = none) :
    exec (.overflowLevelUpdate o u) s = .next (takeNotice s o u.quality) := by
  show execOverflowLevelUpdate o u s = _
  unfold execOverflowLevelUpdate whenLive
  rw [if_pos live]
  split
  · next stored value =>
    simp only [Bool.and_eq_true, beq_iff_eq] at stored
    obtain h | h := none stored.2
    · simp [h] at stored
    · simp [h] at value
  · rfl

theorem takeNotice_good : takeNotice s o .good = s := rfl

theorem takeNotice_point {q : Quality} {took : Bool} (bad : q ≠ .good)
    (taken : took = ((s.point o).pendingSwitch && (q == .lost || q == .suspect))) (p : Point) :
    (takeNotice s o q).point p = if p = o then { s.point o with
      previous := none, pendingSwitch := (s.point o).pendingSwitch && !took
      slot := (s.point o).slot.map fun x => { x with
        gapOpen := true, flags := { x.flags with tableChanged := x.flags.tableChanged || took }
        causes := joinCauses { x.causes with sensorDegraded := true } (causesNow s o) } } else s.point p := by
  have switched : ∀ u : State, Accounted s u → (∀ p, u.point p = if p = o then { s.point o with
        pendingSwitch := (s.point o).pendingSwitch && !took
        slot := (s.point o).slot.map fun x =>
          { x with flags := { x.flags with tableChanged := x.flags.tableChanged || took } } } else s.point p) →
      (evaluateCauses (updateSlot (u.setPoint o { u.point o with previous := none }) o
        fun x => { x with gapOpen := true, causes := { x.causes with sensorDegraded := true } }) o).point p =
      if p = o then { s.point o with
        previous := none, pendingSwitch := (s.point o).pendingSwitch && !took
        slot := (s.point o).slot.map fun x => { x with
          gapOpen := true, flags := { x.flags with tableChanged := x.flags.tableChanged || took }
          causes := joinCauses { x.causes with sensorDegraded := true } (causesNow s o) } } else s.point p := by
    intro u kept points
    rw [evaluateCauses_point]
    have causes : causesNow (updateSlot (u.setPoint o { u.point o with previous := none }) o
        fun x => { x with gapOpen := true, causes := { x.causes with sensorDegraded := true } }) o = causesNow s o :=
      (kept.trans ⟨rfl, rfl, rfl⟩).causes
    rw [causes]
    by_cases same : p = o
    · subst same
      simp [updateSlot_point, points, Function.comp_def]
    · simp [updateSlot_point, points, same]
  unfold takeNotice
  rw [if_neg bad]
  dsimp only
  by_cases blind : q = .lost ∨ q = .suspect
  · have took_eq : took = (s.point o).pendingSwitch := by
      rcases blind with rfl | rfl <;> simpa using taken
    rw [if_pos blind]
    refine switched _ (takeWeir_accounted s o) fun p => ?_
    rw [takeWeir_point, took_eq]
    simp
  · have took_eq : took = false := by
      rw [taken]
      cases q <;> simp_all
    rw [if_neg blind]
    refine switched _ (.refl s) fun p => ?_
    rw [took_eq]
    split
    · next same =>
      subst same
      have slot : (s.point p).slot.map (fun x => { x with flags := { x.flags with
          tableChanged := x.flags.tableChanged || false } }) = (s.point p).slot := by
        cases (s.point p).slot <;> simp
      rw [slot]
      simp
    · rfl

/-- Settles O45. -/
theorem spillStatesFollowSamples : Obligations.SpillStatesFollowSamples := by
  intro o s live
  refine ⟨?sample, fun u good none => ?good, fun u took bad taken => ?bad⟩
  case good =>
    rw [exec_overflowLevelUpdate_notice live fun _ => none, good]
    rfl
  case bad =>
    refine ⟨_, exec_overflowLevelUpdate_notice live fun good => absurd good bad, fun other h => ?_, ?_⟩
    · rw [takeNotice_point bad taken, if_neg h]
    · rw [takeNotice_point bad taken, if_pos rfl]
  intro u level h time flow D est curve stored good value at_ head hcurve hflow hD
  obtain ⟨v, hv⟩ : ∃ v, v = spillSample (takeWeir s o) o level time := ⟨_, rfl⟩
  have setup : (takeWeir s o).setup = s.setup := (takeWeir_accounted s o).setup
  have sampled : v = ⟨time, h, flow, decide (s.setup.deadBand.get o < h), est⟩ := by
    rw [← weirCurve_takeWeir] at hcurve
    rw [hv, ← setup]
    rw [← setup] at hflow
    refine spillSample_eq (by rw [setup]; exact head) (fun e => ?_) (fun c e low => ?_) (fun c e spills high => ?_)
      fun c e spills low => ?_
    all_goals
      rw [e] at hcurve
      subst hcurve
      simp only at hflow
    · exact hflow
    · simpa [low] using hflow
    · simpa [Int.not_le.2 spills, high] using hflow
    · simpa [Int.not_le.2 spills, Int.not_le.2 low] using hflow
  have flowTime : v.flow = flow ∧ v.time = time := by simp [sampled]
  have spillsIff : v.spills = decide (s.setup.deadBand.get o < h) := by simp [sampled]
  refine ⟨_, exec_overflowLevelUpdate_sample live stored good value, ?_⟩
  rw [at_, Option.getD_some]
  obtain ⟨T, hT⟩ : ∃ T, T = sampleByState (observed s o v) o v := ⟨_, rfl⟩
  have stepped : Stepped o (observed s o v) T := hT ▸ sampleByState_stepped
  have points : ∀ p, (takeSample s o level time).point p =
      if p = o then { T.point o with previous := some (flow, time) } else T.point p := by
    intro p
    rw [takeSample_eq level time hv, ← hT, flowTime.1, flowTime.2, State.point_setPoint]
  have raised : (takeSample s o level time).raised = T.raised := by
    rw [takeSample_eq level time hv, ← hT]
    rfl
  have own : (takeSample s o level time).point o = { T.point o with previous := some (flow, time) } := by
    simp [points]
  have seconds : ∀ x, stationSeconds (observed s o v) x = stationSeconds s x := observed_accounted.seconds
  have setup' : (observed s o v).setup = s.setup := observed_accounted.setup
  have since : ∀ r : PointRecord, r.previous = (s.point o).previous → (sinceLast r v.time).getD 0 = D := by
    intro r same
    rw [hD, flowTime.2]
    unfold sinceLast
    rw [same]
    cases (s.point o).previous <;> rfl
  rw [raised, own]
  refine ⟨rfl, ?_, fun other h => ?_, fun dry none => ?dry, fun x y V A wet slot litres hy => ?slot⟩
  · show (T.point o).pendingSwitch = false
    rw [stepped o, if_pos rfl]
    exact observed_pendingSwitch
  · rw [points, if_neg h, stepped, if_neg h, observed_elsewhere h]
  case dry =>
    have found := observed_dry (v := v) none
    obtain ⟨unconfirmed, spilling, still⟩ := dry_takes (by rw [found]; exact none) (by rw [found]; exact dry) hT
    rw [found] at unconfirmed
    rw [spillsIff] at spilling still
    rw [observed_accounted.causes] at spilling
    have total : (T.point o).cumulative = (s.point o).cumulative := by rw [stepped o, if_pos rfl, found]
    refine ⟨total, unconfirmed, ?_⟩
    by_cases spills : s.setup.deadBand.get o < h
    · rw [if_pos spills]
      obtain ⟨state, told, slot⟩ := spilling (by simpa using spills)
      refine ⟨state, told, ?_⟩
      rw [sampled] at slot
      exact slot
    · rw [if_neg spills]
      exact still (by simpa using spills)
  case slot =>
    have noted_eq : noted s o v x V A D = y := by
      rw [hy]
      simp [noted, sampled]
    have found : (observed s o v).point o = { s.point o with
        pendingSwitch := false, cumulative := (s.point o).cumulative + V, slot := some y } := by
      rw [← noted_eq]
      refine observed_slot slot (fun b e => ?_) fun e => ?_
      · rw [e] at litres hD
        rw [flowTime.1, flowTime.2]
        exact ⟨hD, litres⟩
      · rw [e] at litres hD
        exact ⟨hD, litres⟩
    have held : ((observed s o v).point o).slot = some y := by rw [found]
    have clock : (sinceLast ((observed s o v).point o) v.time).getD 0 = D := since _ (by rw [found])
    have fields : y.confirmClock = x.confirmClock ∧ y.start = x.start ∧ y.number = x.number ∧ y.stop = x.stop
        ∧ y.volume = x.volume + V := by
      subst hy
      exact ⟨rfl, rfl, rfl, rfl, rfl⟩
    obtain ⟨confirmed, start, number, stop, volume⟩ := fields
    have total : (T.point o).cumulative = (s.point o).cumulative + V := by rw [stepped o, if_pos rfl, found]
    refine ⟨total, ?_⟩
    cases spill : (s.point o).spill with
    | dry => exact absurd spill wet
    | tentative =>
      have takes := tentative_takes held (by rw [found]; exact spill) clock hT
      have begun : stationSeconds s y.start = stationSeconds s x.start := by rw [start]
      rw [setup', seconds, found, confirmed, begun, spillsIff] at takes
      by_cases spills : s.setup.deadBand.get o < h
      · obtain ⟨unconfirmed, confirms⟩ := takes.1 (by simpa using spills)
        rw [if_pos spills]
        refine ⟨?_, fun _ => confirms, by simp, by simp⟩
        simpa [Int.not_le.2 spills] using unconfirmed
      · obtain ⟨unconfirmed, ends⟩ := takes.2 (by simpa using spills)
        rw [if_neg spills]
        refine ⟨?_, fun _ => ends, by simp, by simp⟩
        simpa [Int.not_lt.1 spills, volume] using unconfirmed
    | open_ =>
      obtain ⟨unconfirmed, spilling, still⟩ := open_takes held (by rw [found]; exact spill) clock hT
      rw [found] at unconfirmed
      rw [spillsIff] at spilling still
      by_cases spills : s.setup.deadBand.get o < h
      · rw [if_pos spills]
        exact ⟨unconfirmed, by simp, fun _ => spilling (by simpa using spills), by simp⟩
      · have last : y.lastSpill = x.lastSpill := by simp [hy, spills]
        obtain ⟨state, told, slot⟩ := still (by simpa using spills)
        rw [if_neg spills]
        exact ⟨unconfirmed, by simp, fun _ => ⟨state, told, slot.trans (by rw [last])⟩, by simp⟩
    | closing =>
      obtain ⟨unconfirmed, spilling, still⟩ := closing_takes held (by rw [found]; exact spill) clock hT
      rw [found] at unconfirmed
      rw [spillsIff] at spilling still
      rw [setup', seconds, seconds, confirmed] at still
      by_cases spills : s.setup.deadBand.get o < h
      · rw [if_pos spills]
        exact ⟨unconfirmed, by simp, by simp, fun _ => spilling (by simpa using spills)⟩
      · have ends := still (by simpa using spills)
        rw [if_neg spills]
        refine ⟨unconfirmed, by simp, by simp, fun _ => ?_⟩
        split
        · next long =>
          rw [if_pos long] at ends
          obtain ⟨dry, none, told, recorded⟩ := ends
          refine ⟨dry, none, told, fun n e hn he => ?_⟩
          simpa [number, stop, start, hn, he] using recorded
        · next short =>
          rw [if_neg short] at ends
          exact ends

/-! ## The litres (R126, R127, R129, R132) -/

/-- The litres of a point that no record of an event holds yet. -/
def held (r : PointRecord) : Nat := ((r.slot.map (·.volume)).getD 0) + r.unconfirmed

/-- What a step of the spill state does with the litres: what leaves the point is recorded as an event's. -/
theorem sampleByState_litres {v : SpillSample} {T : State} (shut : (s.point o).spill = .dry → (s.point o).slot = none)
    (moved : T = sampleByState s o v) :
    ∃ closed, held (s.point o) = held (T.point o) + closed ∧ (s.point o).unconfirmed ≤ (T.point o).unconfirmed
      ∧ (closed = 0 ∨ ∃ n start stop peak head causes flags,
          .recordSubmission (.overflowClose o n start stop closed peak head causes flags) ∈ T.raised) := by
  cases slot : (s.point o).slot with
  | none =>
    refine ⟨0, ?_⟩
    by_cases dry : (s.point o).spill = .dry
    · obtain ⟨unconfirmed, spilling, still⟩ := dry_takes slot dry moved
      refine ⟨?_, unconfirmed.ge, .inl rfl⟩
      cases spills : v.spills with
      | true => simp [held, slot, (spilling spills).2.2, unconfirmed, newSlot]
      | false => simp [held, slot, (still spills).2, unconfirmed]
    · have same : T = s := by
        rw [moved]
        simp only [sampleByState, slot]
      rw [same]
      exact ⟨rfl, Nat.le_refl _, .inl rfl⟩
  | some x =>
    cases spill : (s.point o).spill with
    | dry =>
      rw [shut spill] at slot
      cases slot
    | tentative =>
      obtain ⟨spilling, still⟩ := tentative_takes slot spill rfl moved
      refine ⟨0, ?_⟩
      cases spills : v.spills with
      | true =>
        obtain ⟨unconfirmed, state⟩ := spilling spills
        refine ⟨?_, unconfirmed.ge, .inl rfl⟩
        split at state <;> simp_all [held]
      | false =>
        obtain ⟨unconfirmed, _, none, _⟩ := still spills
        refine ⟨?_, by omega, .inl rfl⟩
        simp [held, slot, none, unconfirmed, Nat.add_comm]
    | open_ =>
      obtain ⟨unconfirmed, spilling, still⟩ := open_takes slot spill rfl moved
      refine ⟨0, ?_, unconfirmed.ge, .inl rfl⟩
      cases spills : v.spills with
      | true => simp [held, slot, (spilling spills).2, unconfirmed]
      | false => simp [held, slot, (still spills).2.2, unconfirmed]
    | closing =>
      obtain ⟨unconfirmed, spilling, still⟩ := closing_takes slot spill rfl moved
      cases spills : v.spills with
      | true =>
        refine ⟨0, ?_, unconfirmed.ge, .inl rfl⟩
        simp [held, slot, (spilling spills).2.2, unconfirmed]
      | false =>
        have ends := still spills
        split at ends
        · obtain ⟨_, none, _, recorded⟩ := ends
          refine ⟨x.volume, ?_, unconfirmed.ge, .inr ⟨_, _, _, _, _, _, _, recorded⟩⟩
          simp [held, slot, none, unconfirmed, Nat.add_comm]
        · refine ⟨0, ?_, unconfirmed.ge, .inl rfl⟩
          simp [held, slot, ends.2, unconfirmed]

/-- What a sample adds to a slot it adds to the cumulative litres. -/
theorem observed_litres (v : SpillSample) :
    ((observed s o v).point o).cumulative + held (s.point o) = (s.point o).cumulative + held ((observed s o v).point o)
    ∧ (s.point o).cumulative ≤ ((observed s o v).point o).cumulative
    ∧ ((observed s o v).point o).unconfirmed = (s.point o).unconfirmed
    ∧ ((observed s o v).point o).spill = (s.point o).spill
    ∧ ((s.point o).slot = none → ((observed s o v).point o).slot = none) := by
  cases slot : (s.point o).slot with
  | none =>
    rw [observed_dry slot]
    exact ⟨by simp [held, slot], Nat.le_refl _, rfl, rfl, fun _ => slot⟩
  | some x =>
    obtain ⟨V, A, D, found⟩ : ∃ V A D, (observed s o v).point o = { s.point o with
        pendingSwitch := false, cumulative := (s.point o).cumulative + V, slot := some (noted s o v x V A D) } := by
      cases previous : (s.point o).previous with
      | none => exact ⟨0, x.accumulator, 0, observed_slot slot (by simp [previous]) fun _ => ⟨rfl, rfl, rfl⟩⟩
      | some b =>
        refine ⟨(x.accumulator + (b.1 + v.flow) * min (v.time - b.2) 10000) / 2000,
          (x.accumulator + (b.1 + v.flow) * min (v.time - b.2) 10000) % 2000, v.time - b.2, observed_slot slot (fun c e => ?_) (by simp [previous])⟩
        obtain rfl : b = c := Option.some.inj (previous.symm.trans e)
        exact ⟨rfl, rfl, rfl⟩
    rw [found]
    refine ⟨?_, Nat.le_add_right _ _, rfl, rfl, by simp⟩
    simp [held, slot, noted]
    omega

/-- Settles O46. -/
theorem litresAreAccounted : Obligations.LitresAreAccounted := by
  intro o u s live shut
  by_cases sample : u.quality = .good ∧ u.stored = true ∧ ∃ level, u.value = some level
  · obtain ⟨good, stored, level, value⟩ := sample
    have out := exec_overflowLevelUpdate_sample (o := o) live stored good value
    obtain ⟨v, hv⟩ : ∃ v, v = spillSample (takeWeir s o) o level (u.storedAt.getD s.now) := ⟨_, rfl⟩
    have eq := takeSample_eq level (u.storedAt.getD s.now) hv
    obtain ⟨balance, grows, unconfirmed, spill, empty⟩ := observed_litres (s := s) (o := o) v
    obtain ⟨closed, moved, more, recorded⟩ := sampleByState_litres (s := observed s o v) (v := v)
      (fun dry => empty (shut (spill ▸ dry))) rfl
    have stepped : Stepped o (observed s o v) (sampleByState (observed s o v) o v) := sampleByState_stepped
    have total : ((sampleByState (observed s o v) o v).point o).cumulative = ((observed s o v).point o).cumulative := by
      rw [stepped o, if_pos rfl]
    refine ⟨_, closed, out, ?_⟩
    rw [eq]
    refine ⟨?_, ?_, ?_, recorded, fun other h => ?_⟩
    · rw [State.point_setPoint, if_pos rfl]
      show ((sampleByState (observed s o v) o v).point o).cumulative + held (s.point o)
        = (s.point o).cumulative + held ((sampleByState (observed s o v) o v).point o) + closed
      omega
    · rw [State.point_setPoint, if_pos rfl]
      show _ ≤ ((sampleByState (observed s o v) o v).point o).cumulative
      omega
    · rw [State.point_setPoint, if_pos rfl]
      show _ ≤ ((sampleByState (observed s o v) o v).point o).unconfirmed
      omega
    · rw [State.point_setPoint, if_neg h, stepped, if_neg h, observed_elsewhere h]
      exact ⟨rfl, rfl, rfl⟩
  · have out := exec_overflowLevelUpdate_notice (o := o) live (u := u) fun good => by
      cases stored : u.stored with
      | false => exact .inl rfl
      | true =>
        cases value : u.value with
        | none => exact .inr rfl
        | some level => exact absurd ⟨good, stored, level, value⟩ sample
    refine ⟨_, 0, out, ?_⟩
    by_cases good : u.quality = .good
    · rw [good, takeNotice_good]
      refine ⟨?_, Nat.le_refl _, Nat.le_refl _, .inl rfl, fun _ _ => ⟨rfl, rfl, rfl⟩⟩
      rw [Nat.add_zero]
    · have points := takeNotice_point (s := s) (o := o) good rfl
      refine ⟨?_, ?_, ?_, .inl rfl, fun other h => ?_⟩
      · rw [points, if_pos rfl]
        cases (s.point o).slot <;> simp
      · rw [points, if_pos rfl]
      · rw [points, if_pos rfl]
      · rw [points, if_neg h]
        exact ⟨rfl, rfl, rfl⟩

/-! ## The cause flags (R131) -/

/-- Settles O47: the flags are joined with the conditions that hold now, each in the words of its rule. -/
theorem causesAreKept : Obligations.CausesAreKept := by
  intro w c x s live slot delivery
  have out : exec c s = .next (evaluateCauses s (pointOfWell w)) := by
    obtain ⟨d, rfl⟩ | ⟨st, rfl⟩ := delivery
    · show execWellRecordDeliveryOa w d s = _
      simp [execWellRecordDeliveryOa, whenLive, live]
    · show execWellStateToOa w st s = _
      simp [execWellStateToOa, whenLive, live]
  have well : pointWell (pointOfWell w) = w := by cases w <;> rfl
  have out_iff : ∀ st : PumpState, pumpOut st = true ↔
      st = .lockedOut ∨ st = .backoff ∨ ∃ why, why ≠ .notFitted ∧ st = .unavailable why := by
    intro st
    cases st with
    | unavailable why => cases why <;> simp [pumpOut]
    | _ => simp [pumpOut]
  have head_iff : pumpAtHead s.budget = true ↔ ∃ p q, s.budget.queue.head? = some q ∧ q.requester = .pump p := by
    unfold pumpAtHead
    split
    · next p cls n rest queue => exact ⟨fun _ => ⟨p, _, by rw [queue]; rfl, rfl⟩, fun _ => rfl⟩
    · next other =>
      refine ⟨by simp, fun ⟨p, q, head, req⟩ => ?_⟩
      obtain ⟨rest, queue⟩ := List.head?_eq_some_iff.1 head
      obtain ⟨r, cls, n⟩ := q
      dsimp only at req
      subst req
      exact absurd queue (other _ _ _ _)
  refine ⟨_, joinCauses x.causes (causesNow s (pointOfWell w)), out, ?_, ?_, ?_, ?_, ?_, ?_, ?_, ?_, ?_⟩
  · simp [evaluateCauses_point, slot]
  · simp [joinCauses, causesNow, well, maxRunning]
  · simp [joinCauses, causesNow, well, out_iff, Setup.pumpsOf, State.wellOf, Pump.mem_all]
  · simp [joinCauses, causesNow]
  · simp [joinCauses, causesNow, well]
  · simp [joinCauses, causesNow, head_iff]
  · simp [joinCauses, causesNow, well]
  · simp [joinCauses, causesNow]
  · simp [evaluateCauses, updateSlot, slot]

end Overflow

end Sys2Proof.Machine
end


section
/-! PROOF. The Event Log and town reporting: submissions, acknowledgements, reports and rounds. -/

namespace Sys2Proof.Machine

section Reporting

variable {s t : State}

theorem whenLive_next {f : State → State} (live : s.live = true) (h : f s = t) : whenLive s f = .next t := by
  simp [whenLive, live, h]
theorem whenDue_next {x : Option Ms} {f : State → State} (live : s.live = true) (now : due x s.now = true) (h : f s = t) :
    whenDue s x f = .next t := by
  simp [whenDue, whenLive, live, now, h]

/-! ## Trying to send (R155, R156) -/

/-- What trying to send changes of ELR: what is next, what was sent last, and two timers; the GENERAL queue only grows. -/
structure Sending (s t : State) : Prop where
  log : t.elr = { s.elr with
    nextToSend := t.elr.nextToSend, lastSent := t.elr.lastSent, sendRetryAt := t.elr.sendRetryAt
    reportAt := t.elr.reportAt }
  frame : elrMask t = elrMask s
  grows : s.lp.general <+: t.lp.general
  timer : t.elr.reportAt = s.elr.reportAt ∨ t.elr.reportAt = some (s.now + s.elr.timeout * 1000)

theorem Sending.now (h : Sending s t) : t.now = s.now := eq_of_mask elrMask State.now (fun _ => rfl) h.frame
theorem Sending.mu (h : Sending s t) : t.mu = s.mu := eq_of_mask elrMask State.mu (fun _ => rfl) h.frame

theorem Sending.trans {u : State} (h : Sending s t) (k : Sending t u) : Sending s u where
  log := by
    rw [k.log, h.log]
  frame := k.frame.trans h.frame
  grows := h.grows.trans k.grows
  timer := by
    have timeout : t.elr.timeout = s.elr.timeout := by rw [h.log]
    rw [← h.now, ← timeout]
    refine k.timer.elim (fun same => ?_) .inr
    rw [same, h.now, timeout]
    exact h.timer

theorem Sending.retry (x : Option Ms) : Sending s (s.setElr { s.elr with sendRetryAt := x }) :=
  ⟨rfl, rfl, List.prefix_rfl, .inl rfl⟩

theorem offerGeneral_of_room {d : Addr} {a : Option (BitVec 6)} {p : OutPayload} (room : s.lp.general.length < 8) :
    offerGeneral s d a p = some (State.raiseIf { s with lp := { s.lp with
      general := s.lp.general ++ [completeFrame s d a p], ownSequence := sequenceAfter s a } }
      (choiceOnJoin s.lp) (.loopOutFree false)) := if_pos room
theorem offerGeneral_of_full {d : Addr} {a : Option (BitVec 6)} {p : OutPayload} (full : ¬ s.lp.general.length < 8) :
    offerGeneral s d a p = none := if_neg full

theorem offerGeneral_general {d : Addr} {a : Option (BitVec 6)} {p : OutPayload} (h : offerGeneral s d a p = some t) :
    t.lp.general = s.lp.general ++ [completeFrame s d a p] := by
  unfold offerGeneral at h
  split at h
  · cases h
    rw [State.raiseIf_lp]
  · cases h

theorem reportPlaced_sending {r : LogRecord} {rest : List LogRecord}
    (h : offerGeneral s (telemetryNode s) none (.report r) = some t) :
    Sending s (t.setElr (reportPlaced t.elr t.now r rest)) where
  log := by
    rw [State.setElr_elr, offerGeneral_elr h]
    rfl
  frame := by
    have kept := offerGeneral_el h
    exact kept
  grows := by
    rw [State.setElr_lp, offerGeneral_general h]
    exact List.prefix_append ..
  timer := by
    have now : t.now = s.now := eq_of_mask elrMask State.now (fun _ => rfl) (offerGeneral_el h)
    rw [State.setElr_elr, offerGeneral_elr h, now]
    unfold reportPlaced
    dsimp only
    split
    · exact .inr rfl
    · exact .inl rfl

theorem trySendFuel_sending (n : Nat) (s : State) : Sending s (trySendFuel n s) := by
  induction n generalizing s with
  | zero => exact ⟨rfl, rfl, List.prefix_rfl, .inl rfl⟩
  | succ n ih =>
    unfold trySendFuel
    split
    · exact .retry _
    · split
      · exact .retry _
      · split
        · next placed => exact (reportPlaced_sending placed).trans (ih _)
        · exact .retry _

theorem trySend_sending (s : State) : Sending s (trySend s) := trySendFuel_sending 5 s

/-- The first unsent record is sent where it finds room, and waits 1 s otherwise. -/
theorem trySend_first {r : LogRecord} {rest : List LogRecord} (unsent : unsentOf s.elr = r :: rest)
    (window : (windowOf s.elr).length < 4) :
    (s.lp.general.length < 8 →
      (⟨telemetryNode s, s.lp.ownAddress, s.lp.ownSequence, .report r⟩ : OutFrame) ∈ (trySend s).lp.general
      ∧ ((windowOf s.elr).isEmpty = true → (trySend s).elr.reportAt = some (s.now + s.elr.timeout * 1000)))
    ∧ (¬ s.lp.general.length < 8 →
      trySend s = s.setElr { s.elr with sendRetryAt := nextOffer s.elr.sendRetryAt s.now }) := by
  have few : ¬ 4 ≤ (windowOf s.elr).length := by omega
  have first : trySend s = match offerGeneral s (telemetryNode s) none (.report r) with
      | some s' => trySendFuel 4 (s'.setElr (reportPlaced s'.elr s'.now r rest))
      | none => s.setElr { s.elr with sendRetryAt := nextOffer s.elr.sendRetryAt s.now } := by
    show trySendFuel 5 s = _
    unfold trySendFuel
    rw [unsent]
    exact if_neg few
  rw [first]
  refine ⟨fun room => ?_, fun full => by rw [offerGeneral_of_full full]⟩
  have placed := offerGeneral_of_room (d := telemetryNode s) (a := none) (p := .report r) room
  generalize offerGeneral s (telemetryNode s) none (.report r) = offered at placed
  obtain rfl := placed
  have placed := offerGeneral_of_room (d := telemetryNode s) (a := none) (p := .report r) room
  generalize State.raiseIf _ _ _ = u at placed ⊢
  have log := offerGeneral_elr placed
  have now : u.now = s.now := eq_of_mask elrMask State.now (fun _ => rfl) (offerGeneral_el placed)
  have sending := trySendFuel_sending 4 (u.setElr (reportPlaced u.elr u.now r rest))
  refine ⟨sending.grows.subset ?_, fun empty => ?_⟩
  · rw [State.setElr_lp, offerGeneral_general placed]
    exact List.mem_append_right _ (List.mem_singleton.2 rfl)
  · have started : (reportPlaced u.elr u.now r rest).reportAt = some (s.now + s.elr.timeout * 1000) := by
      rw [log, now]
      simp [reportPlaced, empty]
    have timeout : (reportPlaced u.elr u.now r rest).timeout = s.elr.timeout := by rw [← log]; rfl
    refine sending.timer.elim (fun same => same.trans started) fun again => again.trans ?_
    rw [State.setElr_now, State.setElr_elr, timeout, now]

/-! ## Submissions (R150 to R154) -/

theorem anyLost_iff (l : EventLog) :
    anyLost l = true ↔ 0 < l.lostOverflow ∨ 0 < l.lostAlarm ∨ 0 < l.lostNotice ∨ 0 < l.lostLost := by
  simp [anyLost]

theorem fits_iff (l : EventLog) (body : RecordBody) :
    fits l body = true ↔ l.pagesUsed + body.pages ≤ if body.cls = .overflow then 512 else 480 := by
  unfold fits
  split <;> simp_all

theorem countLost_eq (l : EventLog) (c : RecordClass) : countLost l c = { l with
    lostOverflow := if c = .overflow then satInc 65535 l.lostOverflow else l.lostOverflow
    lostAlarm := if c = .alarm then satInc 65535 l.lostAlarm else l.lostAlarm
    lostNotice := if c = .notice then satInc 65535 l.lostNotice else l.lostNotice
    lostLost := if c = .lost then satInc 65535 l.lostLost else l.lostLost } := by
  cases c <;> rfl

/-- What a judgement leaves of the log where the record fits. -/
theorem judgeRecord_of_fits {body : RecordBody} (h : fits s.elr body = true) :
    (judgeRecord s body).elr.records = s.elr.records ++ [stamp s body]
    ∧ (judgeRecord s body).elr.pagesUsed = s.elr.pagesUsed + body.pages
    ∧ (judgeRecord s body).elr.sequence = s.elr.sequence + 1
    ∧ (judgeRecord s body).elr.lostOverflow = s.elr.lostOverflow ∧ (judgeRecord s body).elr.lostAlarm = s.elr.lostAlarm
    ∧ (judgeRecord s body).elr.lostNotice = s.elr.lostNotice ∧ (judgeRecord s body).elr.lostLost = s.elr.lostLost := by
  have log := (trySend_sending (s.setElr (storeRecord s.elr (stamp s body)))).log
  have eq : judgeRecord s body = trySend (s.setElr (storeRecord s.elr (stamp s body))) := if_pos h
  rw [eq, log]
  exact ⟨rfl, rfl, rfl, rfl, rfl, rfl, rfl⟩

theorem judgeRecord_of_not_fits {body : RecordBody} (h : ¬ fits s.elr body = true) :
    judgeRecord s body = s.setElr (countLost s.elr body.cls) := if_neg h

theorem tryLost_of_none (h : ¬ anyLost s.elr = true) : tryLost s = s := if_neg h

/-- What the record of the lost counts leaves where it fits. -/
theorem tryLost_of_fits (lost : anyLost s.elr = true) (h : fits s.elr (lostBody s.elr) = true) :
    (tryLost s).elr.records = s.elr.records ++ [stamp s (lostBody s.elr)]
    ∧ (tryLost s).elr.pagesUsed = s.elr.pagesUsed + 2 ∧ (tryLost s).elr.sequence = s.elr.sequence + 1
    ∧ (tryLost s).elr.lostOverflow = 0 ∧ (tryLost s).elr.lostAlarm = 0 ∧ (tryLost s).elr.lostNotice = 0
    ∧ (tryLost s).elr.lostLost = 0 ∧ (tryLost s).mu = s.mu := by
  have sending := trySend_sending (s.setElr (clearLost (storeRecord s.elr (stamp s (lostBody s.elr)))))
  have eq : tryLost s = trySend (s.setElr (clearLost (storeRecord s.elr (stamp s (lostBody s.elr))))) := by
    unfold tryLost
    rw [if_pos lost]
    exact if_pos h
  rw [eq, sending.mu, sending.log]
  exact ⟨rfl, rfl, rfl, rfl, rfl, rfl, rfl, rfl⟩

theorem tryLost_of_not_fits (lost : anyLost s.elr = true) (h : ¬ fits s.elr (lostBody s.elr) = true) :
    tryLost s = s.setElr (countLost s.elr .lost) := by
  unfold tryLost
  rw [if_pos lost]
  exact if_neg h

/-- Settles O50. -/
theorem submissionsAreStored : Obligations.SubmissionsAreStored := by
  intro body limit s live hlimit
  have out : exec (.recordSubmission body) s = .next (judgeRecord (tryLost s) body) := by
    apply whenLive_next live
    rfl
  have lostFits : fits s.elr (lostBody s.elr) = true ↔ s.elr.pagesUsed + 2 ≤ 480 := by
    rw [fits_iff]
    rfl
  subst hlimit
  refine ⟨_, out, fun o a n l => ?_, fun some => ?_⟩
  · rw [tryLost_of_none (by simp [anyLost_iff, o, a, n, l])]
    simp only [← fits_iff]
    by_cases room : fits s.elr body = true
    · rw [if_pos room]
      obtain ⟨records, pages, sequence, h1, h2, h3, h4⟩ := judgeRecord_of_fits room
      exact ⟨records, pages, sequence, h1.trans o, h2.trans a, h3.trans n, h4.trans l⟩
    · rw [if_neg room, judgeRecord_of_not_fits room, countLost_eq, o, a, n, l]
      exact ⟨rfl, rfl, rfl, rfl, rfl, rfl, rfl, rfl⟩
  · rw [← anyLost_iff] at some
    by_cases space : s.elr.pagesUsed + 2 ≤ 480
    · rw [if_pos space]
      obtain ⟨records, pages, sequence, o, a, n, l, mu⟩ := tryLost_of_fits some (lostFits.2 space)
      rw [← pages]
      simp only [← fits_iff]
      by_cases room : fits (tryLost s).elr body = true
      · obtain ⟨records', pages', _, o', a', n', l'⟩ := judgeRecord_of_fits room
        rw [records', pages', o', a', n', l', records, o, a, n, l]
        simp [room, stamp, sequence, mu, lostBody]
      · rw [judgeRecord_of_not_fits room, countLost_eq, State.setElr_elr, o, a, n, l]
        have one : satInc 65535 0 = 1 := rfl
        simp [room, records, stamp, lostBody, one]
    · rw [if_neg space, tryLost_of_not_fits some (mt lostFits.1 space)]
      have same : fits (s.setElr (countLost s.elr .lost)).elr body = fits s.elr body := rfl
      simp only [← fits_iff]
      rw [← same]
      by_cases room : fits (s.setElr (countLost s.elr .lost)).elr body = true
      · rw [if_pos room]
        obtain ⟨records, pages, _, o, a, n, l⟩ := judgeRecord_of_fits room
        exact ⟨records, o, a, n, l⟩
      · rw [if_neg room, judgeRecord_of_not_fits room, countLost_eq _ body.cls]
        exact ⟨rfl, rfl, rfl, rfl, rfl, rfl, rfl⟩

/-! ## Acknowledgements (R157, R158) -/

theorem length_takeWhile_le {α : Type} {p : α → Bool} {l : List α} {j : Nat} {b : α} (at_ : l[j]? = some b)
    (stops : p b = false) : (l.takeWhile p).length ≤ j := by
  induction l generalizing j with
  | nil => simp
  | cons a l ih =>
    rw [List.takeWhile_cons]
    split
    · next goes =>
      cases j with
      | zero =>
        obtain rfl : a = b := by simpa using at_
        rw [stops] at goes
        cases goes
      | succ j => exact Nat.succ_le_succ (ih (by simpa using at_))
    · exact Nat.zero_le _

theorem le_length_takeWhile {α : Type} {p : α → Bool} {l : List α} {j : Nat} (within : j ≤ l.length)
    (goes : ∀ i a, i < j → l[i]? = some a → p a = true) : j ≤ (l.takeWhile p).length := by
  induction l generalizing j with
  | nil => simpa using within
  | cons a l ih =>
    cases j with
    | zero => exact Nat.zero_le _
    | succ j =>
      rw [List.takeWhile_cons, if_pos (goes 0 a (Nat.succ_pos j) rfl)]
      exact Nat.succ_le_succ (ih (Nat.le_of_succ_le_succ within) fun i x small e => goes (i + 1) x (Nat.succ_lt_succ small) e)

theorem two_le_pages (body : RecordBody) : 2 ≤ body.pages := by
  unfold RecordBody.pages
  split <;> decide

theorem length_le_pagesOf (rs : List LogRecord) : 2 * rs.length ≤ pagesOf rs := by
  induction rs with
  | nil => simp
  | cons r rs ih =>
    have := two_le_pages r.body
    simp only [pagesOf_eq_sum, List.map_cons, List.sum_cons, List.length_cons] at *
    omega

/-- No two held records carry one number: the log holds at most 256 records. -/
theorem LogLaw.sequence_inj {l : EventLog} (law : LogLaw l) {i j : Nat} {a b : LogRecord} (ha : l.records[i]? = some a)
    (hb : l.records[j]? = some b) (same : a.sequence = b.sequence) : i = j := by
  have few := length_le_pagesOf l.records
  have room := law.room
  rw [law.pages] at few
  have inside := fun (k : Nat) (x : LogRecord) (h : l.records[k]? = some x) => (List.getElem?_eq_some_iff.1 h).1
  have hi := inside i a ha
  have hj := inside j b hb
  have ends : b.sequence + BitVec.ofNat 16 (l.records.length - i) = b.sequence + BitVec.ofNat 16 (l.records.length - j) := by
    rw [← same, law.order i a ha, same, law.order j b hb]
  have distance := congrArg BitVec.toNat ((BitVec.add_right_inj _).1 ends)
  simp only [BitVec.toNat_ofNat] at distance
  omega

/-- The held records up to last sent (R157), by the place of the record sent last. -/
theorem reach_of_sent {l : EventLog} {j : Nat} {b : LogRecord} (at_ : l.records[j]? = some b)
    (sent : l.lastSent = some b.sequence) : reach l ≤ j + 1 ∧ (LogLaw l → reach l = j + 1) := by
  have below : (l.records.takeWhile fun r => r.sequence != b.sequence).length ≤ j := length_takeWhile_le at_ (by simp)
  unfold reach
  rw [sent]
  refine ⟨Nat.succ_le_succ below, fun law => Nat.le_antisymm (Nat.succ_le_succ below) (Nat.succ_le_succ ?_)⟩
  refine le_length_takeWhile (List.getElem?_eq_some_iff.1 at_).1.le fun i a small ha => ?_
  have differ : a.sequence ≠ b.sequence := fun same => by
    have := law.sequence_inj ha at_ same
    omega
  simpa using differ

theorem reach_of_none {l : EventLog} (sent : l.lastSent = none) : reach l = 0 := by
  unfold reach
  rw [sent]

/-- Settles O51. -/
theorem acknowledgementsRemove : Obligations.AcknowledgementsRemove := by
  intro src payload s live law
  have out : ∀ {t}, (match mayAck s src, ackSequence payload with
      | true, some n => placeAck s n
      | _, _ => s) = t → exec (.reportAck src payload) s = .next t := by
    intro t h
    apply whenLive_next live
    exact h
  refine ⟨fun n d e entry may number hd => ?_, fun none => ?_, fun never => ?_⟩
  · have allowed : mayAck s src = true := by simp [mayAck, entry, may]
    have distance : (n - reference s.elr).toNat = d := by
      rw [hd]
      unfold reference
      cases s.elr.records <;> rfl
    have placed : ∀ {t}, placeAck s n = t → exec (.reportAck src payload) s = .next t := by
      intro t h
      refine out ?_
      rw [allowed, number]
      exact h
    refine ⟨fun j b at_ sent near => ?_, fun far small => ?_, fun old known => ?_⟩
    · refine ⟨_, placed rfl, ?_⟩
      have good : placeAck s n = goodAck s (d + 1) := by
        unfold placeAck
        dsimp only
        rw [distance]
        refine if_pos ?_
        rw [(reach_of_sent at_ sent).2 law]
        omega
      have log := (trySend_sending (s.setElr { removeOldest s.elr (d + 1) with
        reportAt := if (windowOf (removeOldest s.elr (d + 1))).isEmpty then none else some (s.now + 30000) })).log
      have pages : s.elr.pagesUsed - pagesOf (s.elr.records.take (d + 1)) = pagesOf (s.elr.records.drop (d + 1)) := by
        rw [← law.pages, ← List.take_append_drop (d + 1) s.elr.records, pagesOf_append, List.take_append_drop]
        omega
      rw [good]
      unfold goodAck
      dsimp only
      rw [log]
      exact ⟨rfl, pages, rfl, rfl, rfl, rfl, rfl, rfl⟩
    · refine placed ?_
      have beyond : ¬ d < reach s.elr := by
        obtain ⟨j, b, at_, sent, past⟩ | never := far
        · have := (reach_of_sent at_ sent).1
          omega
        · rw [reach_of_none never]
          omega
      unfold placeAck
      dsimp only
      rw [distance, if_neg beyond, if_pos small]
      rfl
    · refine placed ?_
      have beyond : ¬ d < reach s.elr := by
        obtain ⟨b, mem, sent⟩ | never := known
        · obtain ⟨j, at_⟩ := List.mem_iff_getElem?.1 mem
          have := (reach_of_sent at_ sent).1
          have inside := (List.getElem?_eq_some_iff.1 at_).1
          have few := length_le_pagesOf s.elr.records
          have room := law.room
          rw [law.pages] at few
          omega
        · rw [reach_of_none never]
          omega
      unfold placeAck
      dsimp only
      rw [distance, if_neg beyond, if_neg (by omega)]
  · refine out ?_
    rw [none]
    split
    · next h => cases h
    · rfl
  · refine out ?_
    have denied : mayAck s src = false := by
      unfold mayAck
      split
      · next e entry => exact never e entry
      · rfl
    rw [denied]

/-! ## STATUS rounds (R161 to R163) -/

theorem statusPart_congr {u : State} (frame : elrMask u = elrMask s) (log : u.elr = { s.elr with
    round := u.elr.round, statusAt := u.elr.statusAt, progress := u.elr.progress, partRetryAt := u.elr.partRetryAt })
    (part : Nat) : statusPart u part = statusPart s part := by
  have e := frame_of_el frame
  rw [log] at e
  rw [e]
  rfl

/-- What offering the parts of a round from one on does: as many as find room join the GENERAL queue, in order, and the first that
does not waits 1 s. -/
structure Offered (n part k : Nat) (s t : State) (fs : List OutFrame) : Prop where
  general : t.lp.general = s.lp.general ++ fs
  payloads : fs.map (·.payload) = (List.range' part k).map fun i => .status s.elr.round (statusPart s i)
  destinations : ∀ f ∈ fs, f.destination = telemetryNode s
  first : ∀ f, fs.head? = some f → f.source = s.lp.ownAddress ∧ f.sequence = s.lp.ownSequence
  log : t.elr = { s.elr with
    progress := if k = n then none else some (part + k)
    partRetryAt := if k = n then none else some (s.now + 1000) }
  still : k = 0 → t.lp = s.lp

theorem offerParts_offered (n part : Nat) (s : State) :
    ∃ fs, Offered n part (min n (8 - s.lp.general.length)) s (offerParts n part s) fs := by
  induction n generalizing part s with
  | zero => exact ⟨[], by simp [offerParts], by simp, by simp, by simp, by simp [offerParts], by simp [offerParts]⟩
  | succ n ih =>
    by_cases room : s.lp.general.length < 8
    · have placed := offerGeneral_of_room (d := telemetryNode s) (a := none)
        (p := .status s.elr.round (statusPart s part)) room
      generalize State.raiseIf _ _ _ = u at placed
      have step : offerParts (n + 1) part s = offerParts n (part + 1) u := by
        show (match offerGeneral s (telemetryNode s) none (.status s.elr.round (statusPart s part)) with
          | some s' => offerParts n (part + 1) s'
          | none => _) = _
        rw [placed]
      have frame := offerGeneral_el placed
      have log := offerGeneral_elr placed
      have queue := offerGeneral_general placed
      have now : u.now = s.now := eq_of_mask elrMask State.now (fun _ => rfl) frame
      have node : telemetryNode u = telemetryNode s := eq_of_mask elrMask telemetryNode (fun _ => rfl) frame
      have parts : ∀ i, statusPart u i = statusPart s i := statusPart_congr frame (by rw [log])
      obtain ⟨fs, general, payloads, destinations, first, log', still⟩ := ih (part + 1) u
      have count : min (n + 1) (8 - s.lp.general.length) = min n (8 - u.lp.general.length) + 1 := by
        rw [queue, List.length_append, List.length_singleton]
        omega
      rw [step, count]
      refine ⟨completeFrame s (telemetryNode s) none (.status s.elr.round (statusPart s part)) :: fs,
        ?_, ?_, fun f mem => ?_, fun f head => ?_, ?_, fun none => absurd none (Nat.succ_ne_zero _)⟩
      · rw [general, queue]
        simp
      · rw [List.map_cons, payloads, List.range'_succ, List.map_cons, log]
        simp only [parts]
        rfl
      · rcases List.mem_cons.1 mem with rfl | rest
        · rfl
        · rw [destinations f rest, node]
      · obtain rfl : completeFrame s (telemetryNode s) none (.status s.elr.round (statusPart s part)) = f := by
          simpa using head
        exact ⟨rfl, rfl⟩
      · rw [log', log, now]
        simp only [Nat.add_right_cancel_iff, Nat.add_assoc, Nat.add_comm 1]
    · have full := offerGeneral_of_full (d := telemetryNode s) (a := none)
        (p := .status s.elr.round (statusPart s part)) room
      have step : offerParts (n + 1) part s =
          s.setElr { s.elr with progress := some part, partRetryAt := some (s.now + 1000) } := by
        show (match offerGeneral s (telemetryNode s) none (.status s.elr.round (statusPart s part)) with
          | some s' => offerParts n (part + 1) s'
          | none => s.setElr { s.elr with progress := some part, partRetryAt := some (s.now + 1000) }) = _
        rw [full]
      have count : min (n + 1) (8 - s.lp.general.length) = 0 := by omega
      rw [step, count]
      exact ⟨[], by simp, by simp, by simp, by simp, by simp, by simp⟩

/-- A round begins (R162, R163): its number is the next, and the status timer runs anew. -/
theorem startRound_offered (at_ : Option Ms) : ∃ fs k, k = min 4 (8 - s.lp.general.length)
    ∧ (startRound (s.setElr { s.elr with statusAt := at_ })).lp.general = s.lp.general ++ fs
    ∧ fs.map (·.payload) = ([1, 2, 3, 4].take k).map (fun i => .status (s.elr.round + 1) (statusPart s i))
    ∧ (∀ f ∈ fs, f.destination = s.setup.telemetryNode.toNat)
    ∧ (startRound (s.setElr { s.elr with statusAt := at_ })).elr = { s.elr with
        round := s.elr.round + 1, statusAt := at_, progress := if k = 4 then none else some (1 + k)
        partRetryAt := if k = 4 then none else some (s.now + 1000) } := by
  obtain ⟨u, hu⟩ : ∃ u, u = s.setElr { s.elr with statusAt := at_, round := s.elr.round + 1 } := ⟨_, rfl⟩
  have parts : ∀ i, statusPart u i = statusPart s i := by
    intro i
    rw [hu]
    exact statusPart_congr rfl rfl i
  obtain ⟨fs, general, payloads, destinations, _, log, _⟩ := offerParts_offered 4 1 u
  have step : startRound (s.setElr { s.elr with statusAt := at_ }) = offerParts 4 1 u := by
    rw [hu]
    rfl
  have room : u.lp = s.lp := by rw [hu]; rfl
  rw [room] at general payloads log
  refine ⟨fs, _, rfl, by rw [step, general], ?_, fun f mem => ?_, ?_⟩
  · rw [payloads]
    simp only [parts]
    have round : u.elr.round = s.elr.round + 1 := by rw [hu]; rfl
    rw [round]
    have few : min 4 (8 - s.lp.general.length) ≤ 4 := Nat.min_le_left ..
    generalize min 4 (8 - s.lp.general.length) = k at few
    have range : List.range' 1 k = [1, 2, 3, 4].take k := by
      interval_cases k <;> rfl
    rw [range]
  · rw [destinations f mem, hu]
    rfl
  · rw [step, log, hu]
    rfl

theorem statusPeriod_eq (st : StationState) : statusPeriod st = if st = .dry then 300000 else 60000 := by
  cases st <;> rfl

/-- The commands that begin a round (R163). -/
theorem exec_beginsRound {c : Instr} {period : Nat} (live : s.live = true)
    (begins : c = .statusTimerExpiry ∧ due s.elr.statusAt s.now = true
        ∧ period = (if s.ssu.state = .dry then 300000 else 60000)
      ∨ (∃ st, c = .stationStateToElr st ∧ period = if st = .dry then 300000 else 60000)) :
    exec c s = .next (startRound (s.setElr { s.elr with statusAt := some (s.now + period) })) := by
  simp only [← statusPeriod_eq] at begins
  obtain ⟨rfl, now, rfl⟩ | ⟨st, rfl, rfl⟩ := begins
  · apply whenDue_next live now
    rfl
  · apply whenLive_next live
    rfl

/-- Settles O52. -/
theorem reportsAndRounds : Obligations.ReportsAndRounds := by
  intro s live
  have offeredNext : s.elr.sendRetryAt = none ∨ due s.elr.sendRetryAt s.now = true →
      nextOffer s.elr.sendRetryAt s.now = some (s.now + 1000) := by
    rintro (none | now)
    · rw [none]
      rfl
    · unfold due at now
      unfold nextOffer
      split at now
      · next d e =>
        exact if_neg (by simpa using now)
      · cases now
  refine ⟨fun r rest now records => ?_, fun r rest now unsent window => ?_, fun c period begins room => ?_,
    fun c period k begins hk few => ?_, fun part k now progress low high hk => ?_, fun part now progress low high => ?_⟩
  · obtain ⟨u, hu⟩ : ∃ u, u = s.setElr (goBack s.elr) := ⟨_, rfl⟩
    have out : exec .reportTimerExpiry s = .next (trySend u) := by
      apply whenDue_next live now
      rw [hu]
    have next : u.elr.nextToSend = some r.sequence := by
      rw [hu]
      show s.elr.records.head?.map _ = _
      rw [records]
      rfl
    have held : u.elr.records = r :: rest := by rw [hu]; exact records
    have unsent : unsentOf u.elr = r :: rest := by simp [unsentOf, next, held]
    have window : windowOf u.elr = [] := by simp [windowOf, next, held]
    have log := (trySend_sending u).log
    obtain ⟨placed, waits⟩ := trySend_first unsent (by rw [window]; decide)
    have timeout : (trySend u).elr.timeout = u.elr.timeout := by rw [log]
    refine ⟨_, out, ?_, ?_, ?_, ?_, ?_⟩
    · rw [log, hu]
      rfl
    · rw [log, hu]
      rfl
    · rw [log, hu]
      rfl
    · rw [log, hu]
      show (s.elr.linkDown || decide (8 ≤ satInc 255 s.elr.expiries)) = true ↔ _
      simp
    · have loop : u.lp = s.lp := by rw [hu]; rfl
      split
      · next room =>
        obtain ⟨sent, timer⟩ := placed (by rw [loop]; exact room)
        rw [timeout]
        rw [loop] at sent
        refine ⟨?_, ?_⟩
        · rw [hu] at sent ⊢
          exact sent
        · rw [timer (by rw [window]; rfl), hu]
          rfl
      · next full =>
        rw [waits (by rw [loop]; exact full)]
        refine ⟨loop, fun idle => ?_⟩
        rw [hu]
        exact offeredNext idle
  · have out : exec .reportRetry s = .next (trySend s) := by
      apply whenDue_next live now
      rfl
    have log := (trySend_sending s).log
    obtain ⟨placed, waits⟩ := trySend_first unsent window
    refine ⟨_, out, by rw [log], ?_⟩
    split
    · next room => exact (placed room).1
    · next full =>
      rw [waits full]
      exact ⟨rfl, offeredNext (.inr now)⟩
  · obtain ⟨fs, k, hk, general, payloads, destinations, log⟩ := startRound_offered (s := s) (some (s.now + period))
    obtain rfl : k = 4 := by omega
    refine ⟨_, fs, exec_beginsRound live begins, general, payloads, destinations, ?_, ?_, ?_⟩ <;> rw [log] <;> rfl
  · obtain ⟨fs, k', hk', general, payloads, destinations, log⟩ := startRound_offered (s := s) (some (s.now + period))
    obtain rfl : k' = k := by omega
    refine ⟨_, fs, exec_beginsRound live begins, general, payloads, destinations, ?_, ?_, ?_, ?_⟩ <;> rw [log]
    · show (if k' = 4 then none else some (1 + k')) = _
      rw [if_neg (by omega), Nat.add_comm]
    · show (if k' = 4 then none else some (s.now + 1000)) = _
      rw [if_neg (by omega)]
  · obtain ⟨fs, general, payloads, destinations, _, log, _⟩ := offerParts_offered (5 - part) part s
    rw [← hk] at payloads log
    have out : exec .statusPartRetry s = .next (offerParts (5 - part) part s) := by
      apply whenDue_next live now
      rw [progress]
    refine ⟨_, fs, out, general, ?_, destinations, by rw [log], ?_⟩
    · rw [payloads]
      have range : List.range' part k = ([1, 2, 3, 4].drop (part - 1)).take k := by
        have short : k ≤ 5 - part := by omega
        interval_cases part <;> interval_cases k <;> rfl
      rw [range]
    · rw [log]
      by_cases all : part + k = 5
      · rw [if_pos all]
        exact ⟨if_pos (by omega), if_pos (by omega)⟩
      · rw [if_neg all]
        exact ⟨if_neg (by omega), if_neg (by omega)⟩
  · obtain ⟨fs, general, payloads, destinations, first, log, still⟩ := offerParts_offered (5 - part) part s
    have out : exec .statusPartRetry s = .next (offerParts (5 - part) part s) := by
      apply whenDue_next live now
      rw [progress]
    refine ⟨_, out, by rw [log], ?_⟩
    split
    · next room =>
      obtain ⟨k, hk⟩ : ∃ k, min (5 - part) (8 - s.lp.general.length) = k + 1 := ⟨_, (Nat.sub_add_cancel (by omega)).symm⟩
      rw [hk, List.range'_succ, List.map_cons] at payloads
      obtain ⟨f, rest, rfl, payload, _⟩ := List.map_eq_cons_iff.1 payloads
      obtain ⟨source, sequence⟩ := first f rfl
      have node := destinations f List.mem_cons_self
      obtain ⟨d, src, seq, load⟩ := f
      dsimp only at source sequence node payload
      subst source sequence node payload
      rw [general]
      exact List.mem_append_right _ List.mem_cons_self
    · next full =>
      have none : min (5 - part) (8 - s.lp.general.length) = 0 := by omega
      rw [still none, log, none]
      have : 0 ≠ 5 - part := by omega
      simp [this]

end Reporting

end Sys2Proof.Machine
end


section
/-! PROOF. Storm state, tide lock, restriction and float fallback. -/

namespace Sys2Proof.Machine

section Storms

variable {s : State} {w : Well} {d a b : WellDelivery}

/-! ## An evaluation of the storm conditions (R139 to R141) -/

/-- An evaluation changes the station state and the hold timer alone of SSU's record, and events only join. -/
theorem evaluateStorm_keeps (s : State) (a b : WellDelivery) :
    (evaluateStorm s a b).ssu = { s.ssu with
      state := (evaluateStorm s a b).ssu.state, holdAt := (evaluateStorm s a b).ssu.holdAt }
    ∧ s.raised <+: (evaluateStorm s a b).raised := by
  unfold evaluateStorm
  dsimp only
  split
  · refine ⟨rfl, ?_⟩
    unfold changeStation State.raiseAll
    exact List.IsPrefix.trans (List.prefix_append ..) (List.prefix_append ..)
  · exact ⟨rfl, List.prefix_rfl⟩
  · exact ⟨rfl, List.prefix_rfl⟩
  · split <;> exact ⟨rfl, List.prefix_rfl⟩

theorem evaluateStorm_of_holds (holds : stormHolds (stormConditions s a b) = true) :
    (evaluateStorm s a b).ssu.state = .storm ∧ (evaluateStorm s a b).ssu.holdAt = none
    ∧ (s.ssu.state = .dry → (evaluateStorm s a b).raised = s.raised ++
        [.recordSubmission (.stormChange .storm (.entered (stormConditions s a b))), .stationStateToCu .storm,
          .stationStateToDc .storm, .stationStateToSc .storm, .stationStateToElr .storm])
    ∧ (s.ssu.state = .storm → (evaluateStorm s a b).raised = s.raised) := by
  unfold evaluateStorm
  dsimp only
  rw [holds]
  cases state : s.ssu.state with
  | dry => exact ⟨rfl, rfl, fun _ => by simp [changeStation], by simp⟩
  | storm => exact ⟨rfl, rfl, by simp, fun _ => rfl⟩

theorem evaluateStorm_of_none (none : stormHolds (stormConditions s a b) = false) :
    (evaluateStorm s a b).ssu.state = s.ssu.state
    ∧ (s.ssu.state = .dry → (evaluateStorm s a b).ssu.holdAt = s.ssu.holdAt)
    ∧ (s.ssu.state = .storm → (evaluateStorm s a b).ssu.holdAt =
        some (s.ssu.holdAt.getD (s.now + s.setup.stormHold.toNat * 60000))) := by
  unfold evaluateStorm
  dsimp only
  rw [none]
  cases state : s.ssu.state with
  | dry => exact ⟨state, fun _ => rfl, by simp⟩
  | storm =>
    dsimp only
    split
    · next x hold => exact ⟨state, by simp, fun _ => by rw [hold]; rfl⟩
    · next hold => exact ⟨rfl, by simp, fun _ => by rw [hold]; rfl⟩

/-- The condition that each of the causes of a storm makes hold. -/
theorem stormHolds_iff (t : Setup) (x : Station) (seen : Well → WellDelivery) (h : t = s.setup) (hx : x = s.ssu) :
    stormHolds (stormConditions s (seen .a) (seen .b)) = true ↔
      x.tideLock = true ∨ x.forced = true ∨ (∃ o, x.spillSeen.get o ≠ .dry)
        ∨ (∃ w level, (seen w).quality ≠ .lost ∧ (seen w).level = some level ∧ t.stormLevel.get w ≤ level)
        ∨ ∃ w, t.stormInflow.get w ≤ ((seen w).smoothedInflow : Int) := by
  subst h hx
  have level : ∀ w, stormLevelHolds s.setup w (seen w) = true ↔
      ∃ level, (seen w).quality ≠ .lost ∧ (seen w).level = some level ∧ s.setup.stormLevel.get w ≤ level := by
    intro w
    unfold stormLevelHolds
    cases (seen w).quality <;> cases (seen w).level <;> simp
  have inflow : ∀ w, stormInflowHolds s.setup w (seen w) = true ↔
      s.setup.stormInflow.get w ≤ ((seen w).smoothedInflow : Int) := by
    intro w
    simp [stormInflowHolds]
  have wells : ∀ P : Well → Prop, (∃ w, P w) ↔ P .a ∨ P .b :=
    fun P => ⟨fun ⟨w, h⟩ => by cases w; exacts [.inl h, .inr h], fun h => h.elim (⟨_, ·⟩) (⟨_, ·⟩)⟩
  have points : (∃ o, s.ssu.spillSeen.get o ≠ .dry) ↔ s.ssu.spillSeen.one ≠ .dry ∨ s.ssu.spillSeen.two ≠ .dry :=
    ⟨fun ⟨o, h⟩ => by cases o; exacts [.inl h, .inr h], fun h => h.elim (⟨.one, ·⟩) (⟨.two, ·⟩)⟩
  rw [wells, wells, ← level, ← level, ← inflow, ← inflow, points]
  simp only [stormHolds, stormConditions, spilling, Bool.or_eq_true, bne_iff_ne]
  tauto

/-! ## A delivery (R139, R143, R145) -/

/-- What SSU does with a delivery after its evaluation of the storm conditions. -/
def afterDelivery (s : State) (w : Well) (d : WellDelivery) : State :=
  if s.ssu.well.get w ≠ .fallback ∧ (d.quality = .lost ∨ d.level = none) then enterFallback s w d.quality
  else judgeRecovery s w d

theorem afterDelivery_keeps (s : State) (w : Well) (d : WellDelivery) :
    (afterDelivery s w d).ssu = { s.ssu with
      well := (afterDelivery s w d).ssu.well, recoveryAt := (afterDelivery s w d).ssu.recoveryAt
      statusWait := (afterDelivery s w d).ssu.statusWait }
    ∧ s.raised <+: (afterDelivery s w d).raised := by
  unfold afterDelivery
  split
  · refine ⟨rfl, ?_⟩
    exact List.IsPrefix.trans (List.prefix_append ..) (List.prefix_append ..)
  · unfold judgeRecovery
    repeat' split
    all_goals exact ⟨rfl, List.prefix_rfl⟩

theorem exec_wellRecordDeliverySsu (live : s.live = true) : exec (.wellRecordDeliverySsu w d) s =
    .next (afterDelivery (evaluateStorm s (seenWell s w d .a) (seenWell s w d .b)) w d) := by
  apply whenLive_next live
  rfl

theorem exec_spillStateDelivery (live : s.live = true) {o : Point} {st : SpillState} :
    exec (.spillStateDelivery o st) s =
      .next (evaluateStormLive { s with ssu := { s.ssu with spillSeen := s.ssu.spillSeen.set o st } }) := by
  apply whenLive_next live
  rfl

theorem exec_rivUpdateSsu (live : s.live = true) {u : ChannelUpdate} : exec (.rivUpdateSsu u) s =
    .next (if (judgeTide s (usableUpdate u)).ssu.tideLock = s.ssu.tideLock then judgeTide s (usableUpdate u)
      else evaluateStormLive (judgeTide s (usableUpdate u))) := by
  apply whenLive_next live
  rfl

/-- The tide lock has 100 mm of hysteresis (R138). -/
theorem tideLockAfter_iff (t : Setup) (before : Bool) (river : Int) :
    tideLockAfter t before river = true ↔ t.tideLock ≤ river ∨ before = true ∧ t.tideLock - 100 ≤ river := by
  unfold tideLockAfter
  cases before <;> simp
  omega

/-- What the wells look like to SSU at a delivery. -/
theorem seenWell_eq (s : State) (w w' : Well) (d : WellDelivery) :
    seenWell s w d w' = if w' = w then d else deliveryOf (s.well w') := rfl

/-- A cause brings STORM and tells four blocks; in STORM it stops the hold timer, telling nobody. -/
theorem stormComes {t u : State} (step : t = evaluateStorm u a b) (holds : stormHolds (stormConditions u a b) = true)
    (state : u.ssu.state = s.ssu.state) (raised : u.raised = s.raised) :
    t.ssu.state = .storm ∧ t.ssu.holdAt = none
    ∧ (s.ssu.state = .dry → .stationStateToCu .storm ∈ t.raised ∧ .stationStateToDc .storm ∈ t.raised
      ∧ .stationStateToSc .storm ∈ t.raised ∧ .stationStateToElr .storm ∈ t.raised
      ∧ ∃ why, .recordSubmission (.stormChange .storm why) ∈ t.raised)
    ∧ (s.ssu.state = .storm → t.raised = s.raised) := by
  obtain ⟨storm, hold, dry, still⟩ := evaluateStorm_of_holds holds
  rw [← step, state] at dry still
  rw [← step] at storm hold
  refine ⟨storm, hold, fun was => ?_, fun was => (still was).trans raised⟩
  rw [dry was]
  refine ⟨by simp, by simp, by simp, by simp, _, List.mem_append_right _ List.mem_cons_self⟩

/-- Settles O48. -/
theorem stormComesAndGoes : Obligations.StormComesAndGoes := by
  intro c u river k flag s live hriver
  have judged : riverFrom s.setup (usableUpdate u) = river := by
    rw [hriver]
    unfold usableUpdate usableValue riverFrom
    cases u.quality <;> cases u.value <;> rfl
  have lock : (judgeTide s (usableUpdate u)).ssu.tideLock = tideLockAfter s.setup s.ssu.tideLock river := by
    rw [← judged]
    rfl
  have holdsOn : ∀ v : State, v.setup = s.setup → ∀ seen : Well → WellDelivery,
      stormHolds (stormConditions v (seen .a) (seen .b)) = true ↔
      v.ssu.tideLock = true ∨ v.ssu.forced = true ∨ (∃ o, v.ssu.spillSeen.get o ≠ .dry)
        ∨ (∃ w level, (seen w).quality ≠ .lost ∧ (seen w).level = some level ∧ s.setup.stormLevel.get w ≤ level)
        ∨ ∃ w, s.setup.stormInflow.get w ≤ ((seen w).smoothedInflow : Int) :=
    fun v same seen => stormHolds_iff _ _ seen same.symm rfl
  refine ⟨fun cause => ?comes, fun spill seen forced quiet none low small => ?goes, ?tide, fun x hold now storm => ?_, ?_⟩
  case comes =>
    have delivered : ∀ w d, c = .wellRecordDeliverySsu w d →
        stormHolds (stormConditions s (seenWell s w d .a) (seenWell s w d .b)) = true →
        ∃ t, exec c s = .next t ∧ t.ssu.state = .storm ∧ t.ssu.holdAt = .none
          ∧ (s.ssu.state = .dry → .stationStateToCu .storm ∈ t.raised ∧ .stationStateToDc .storm ∈ t.raised
            ∧ .stationStateToSc .storm ∈ t.raised ∧ .stationStateToElr .storm ∈ t.raised
            ∧ ∃ why, .recordSubmission (.stormChange .storm why) ∈ t.raised)
          ∧ (s.ssu.state = .storm → (∀ w d, c ≠ .wellRecordDeliverySsu w d) → t.raised = s.raised) := by
      rintro w d rfl holds
      obtain ⟨kept, grows⟩ := afterDelivery_keeps (evaluateStorm s (seenWell s w d .a) (seenWell s w d .b)) w d
      obtain ⟨storm, hold, dry, still⟩ := stormComes (s := s) rfl holds rfl rfl
      refine ⟨_, exec_wellRecordDeliverySsu live, ?_, ?_, fun was => ?_, fun _ other => absurd rfl (other w d)⟩
      · rw [kept]
        exact storm
      · rw [kept]
        exact hold
      · obtain ⟨cu, dc, sc, elr, why, record⟩ := dry was
        exact ⟨grows.subset cu, grows.subset dc, grows.subset sc, grows.subset elr, why, grows.subset record⟩
    obtain ⟨o, st, rfl, wet⟩ | ⟨w, d, level, e, quality, at_, high⟩ | ⟨w, d, e, high⟩ | ⟨rfl, unlocked, high⟩ := cause
    · refine ⟨_, exec_spillStateDelivery live, ?_⟩
      obtain ⟨storm, hold, dry, still⟩ := stormComes (s := s)
        (u := { s with ssu := { s.ssu with spillSeen := s.ssu.spillSeen.set o st } }) rfl
        ((holdsOn _ (by rfl) fun w => deliveryOf (s.well w)).2 (.inr (.inr (.inl ⟨o, by simpa using wet⟩)))) rfl rfl
      exact ⟨storm, hold, dry, fun was _ => still was⟩
    · exact delivered w d e ((holdsOn s rfl (seenWell s w d)).2
        (.inr (.inr (.inr (.inl ⟨w, level, by simpa [seenWell] using quality, by simpa [seenWell] using at_, high⟩)))))
    · exact delivered w d e ((holdsOn s rfl (seenWell s w d)).2
        (.inr (.inr (.inr (.inr ⟨w, by simpa [seenWell] using high⟩)))))
    · have locked : (judgeTide s (usableUpdate u)).ssu.tideLock = true := by
        rw [lock, tideLockAfter_iff]
        exact .inl high
      refine ⟨_, exec_rivUpdateSsu live, ?_⟩
      rw [if_neg (by simp [locked, unlocked])]
      obtain ⟨storm, hold, dry, still⟩ := stormComes (s := s) (u := judgeTide s (usableUpdate u)) rfl
        ((holdsOn _ (by rfl) fun w => deliveryOf (s.well w)).2 (.inl locked)) rfl rfl
      exact ⟨storm, hold, dry, fun was _ => still was⟩
  case goes =>
    have calm : ∀ v : State, v.setup = s.setup → v.ssu.tideLock = false → v.ssu.forced = false →
        (∀ o, v.ssu.spillSeen.get o = spill o) → stormHolds (stormConditions v (seen .a) (seen .b)) = false := by
      intro v same lock unforced spills
      rw [Bool.eq_false_iff, Ne, holdsOn v same seen, lock, unforced]
      rintro (h | h | ⟨o, h⟩ | ⟨w, level, quality, at_, high⟩ | ⟨w, high⟩)
      · cases h
      · cases h
      · exact h ((spills o).trans (none o))
      · have := low w level quality at_
        omega
      · have := small w
        omega
    have ends : ∀ {v t : State}, v.setup = s.setup → v.now = s.now → v.ssu.tideLock = false → v.ssu.forced = false →
        (∀ o, v.ssu.spillSeen.get o = spill o) → v.ssu.state = s.ssu.state → v.ssu.holdAt = s.ssu.holdAt →
        t.ssu.state = (evaluateStorm v (seen .a) (seen .b)).ssu.state →
        t.ssu.holdAt = (evaluateStorm v (seen .a) (seen .b)).ssu.holdAt →
        t.ssu.spillSeen = (evaluateStorm v (seen .a) (seen .b)).ssu.spillSeen →
        t.ssu.state = s.ssu.state ∧ (∀ o, t.ssu.spillSeen.get o = .dry)
        ∧ t.ssu.holdAt = match s.ssu.state with
          | .storm => some (s.ssu.holdAt.getD (s.now + s.setup.stormHold.toNat * 60000))
          | .dry => s.ssu.holdAt := by
      intro v t setup now lock unforced spills state hold state' hold' spills'
      obtain ⟨kept, dry, storm⟩ := evaluateStorm_of_none (calm v setup lock unforced spills)
      rw [state', hold', spills', kept, (evaluateStorm_keeps v _ _).1]
      refine ⟨state, fun o => (spills o).trans (none o), ?_⟩
      rw [state, hold] at dry
      rw [state, hold, setup, now] at storm
      cases was : s.ssu.state with
      | dry => exact dry was
      | storm => exact storm was
    obtain ⟨o, rfl, unlocked, rfl, rfl⟩ | ⟨w, d, rfl, unlocked, rfl, rfl⟩ | ⟨rfl, locked, under, rfl, rfl⟩ := quiet
    · exact ⟨_, exec_spillStateDelivery live, ends (v := { s with ssu := { s.ssu with
        spillSeen := s.ssu.spillSeen.set o .dry } }) rfl rfl unlocked forced (fun o' => by simp) rfl rfl rfl rfl rfl⟩
    · obtain ⟨kept, _⟩ := afterDelivery_keeps (evaluateStorm s (seenWell s w d .a) (seenWell s w d .b)) w d
      exact ⟨_, exec_wellRecordDeliverySsu live, ends (v := s) rfl rfl unlocked forced (fun _ => rfl) rfl rfl
        (by rw [kept]; rfl) (by rw [kept]; rfl) (by rw [kept]; rfl)⟩
    · have free : (judgeTide s (usableUpdate u)).ssu.tideLock = false := by
        rw [lock, Bool.eq_false_iff, Ne, tideLockAfter_iff]
        omega
      refine ⟨_, exec_rivUpdateSsu live, ?_⟩
      rw [if_neg (by simp [free, locked])]
      exact ends (v := judgeTide s (usableUpdate u)) rfl rfl free forced (fun _ => rfl) rfl rfl rfl rfl rfl
  case tide =>
    refine ⟨_, exec_rivUpdateSsu live, ?_, ?_⟩
    · rw [← tideLockAfter_iff, ← lock]
      split
      · rfl
      · show (evaluateStorm _ _ _).ssu.tideLock = true ↔ _
        rw [(evaluateStorm_keeps _ _ _).1]
    · split
      · exact fun _ => ⟨rfl, rfl⟩
      · next changed =>
        intro same
        have kept : (evaluateStormLive (judgeTide s (usableUpdate u))).ssu.tideLock
            = (judgeTide s (usableUpdate u)).ssu.tideLock := by
          show (evaluateStorm _ _ _).ssu.tideLock = _
          rw [(evaluateStorm_keeps _ _ _).1]
        exact absurd (kept.symm.trans same) changed
  · apply whenDue_next live (by simpa [due, hold] using now)
    rw [if_pos storm]
    simp [changeStation, State.submit, State.raise, State.raiseAll]
  · obtain ⟨v, hv⟩ : ∃ v : State, v = { s with ssu := { s.ssu with blinded := s.ssu.blinded.set k flag } } := ⟨_, rfl⟩
    have out : exec (.blindedChange k flag) s = .next (decideWell v (screenWell k)) := by
      apply whenLive_next live
      rw [hv]
    have restricted : openWellState v (screenWell k) = .restricted ↔ flag = true
        ∨ ∃ k', k' ≠ k ∧ screenWell k' = screenWell k ∧ s.ssu.blinded.get k' = true := by
      have any : anyBlinded v (screenWell k) = true ↔ flag = true
          ∨ ∃ k', k' ≠ k ∧ screenWell k' = screenWell k ∧ s.ssu.blinded.get k' = true := by
        have all : ∀ P : Screen → Prop, (∃ k, P k) ↔ P .s1 ∨ P .s2 ∨ P .s3 := fun P =>
          ⟨fun ⟨k, h⟩ => by cases k; exacts [.inl h, .inr (.inl h), .inr (.inr h)],
            fun h => h.elim (⟨_, ·⟩) fun h => h.elim (⟨_, ·⟩) (⟨_, ·⟩)⟩
        rw [all, hv]
        cases k <;> simp [anyBlinded, screensOf, screenWell, or_comm]
      rw [← any]
      unfold openWellState
      cases anyBlinded v (screenWell k) <;> simp
    have well : v.ssu.well = s.ssu.well := by rw [hv]
    refine ⟨_, openWellState v (screenWell k), out, ?_, restricted, ?_, ?_⟩
    · unfold decideWell
      dsimp only
      rw [hv]
      split <;> rfl
    · unfold openWellState
      split <;> simp
    · unfold decideWell
      dsimp only
      rw [well]
      split
      · next fallback =>
        rw [if_pos (.inl fallback), hv]
        exact ⟨rfl, rfl⟩
      · next working =>
        by_cases same : s.ssu.well.get (screenWell k) = openWellState v (screenWell k)
        · rw [if_pos (.inr same), if_pos same, List.append_nil]
          refine ⟨?_, by rw [hv]⟩
          rw [well, ← same]
          cases screenWell k <;> rfl
        · rw [if_neg (by simp [working, same]), if_neg same]
          refine ⟨by rw [← well]; rfl, ?_⟩
          rw [hv]
          rfl

/-! ## Float fallback (R143 to R147) -/

theorem PerWell.set_get {α : Type} (f : PerWell α) (w : Well) : f.set w (f.get w) = f := by cases w <;> rfl

theorem levelConditions_iff : levelConditions s w d = true ↔ LevelMet s w d.quality d.level := by
  have curves : (wmuCurves s w).isSome = true ↔ s.tables.pumpCurves.isEmpty = false
      ∨ curvesScheduled s = true ∧ (s.well w).pendingCurves = false := by
    unfold wmuCurves curvesBank
    cases curvesScheduled s <;> cases (s.well w).pendingCurves <;> cases s.tables.pumpCurves.isEmpty <;> simp
  unfold levelConditions LevelMet
  rw [← curves]
  simp [and_assoc]

theorem allKnown_iff : allKnown s w = true ↔ ∀ q, s.wellOf q = some w → (s.pump q).drive ≠ .unknown := by
  simp [allKnown, Setup.pumpsOf, State.wellOf, Pump.mem_all, imp_iff_not_or]

/-- What an evaluation of the storm conditions leaves of the records that the level conditions read. -/
theorem levelMet_evaluateStorm (q : LevelQuality) (level : Option Int) :
    LevelMet (evaluateStorm s a b) w q level ↔ LevelMet s w q level := by
  have same : ∀ t : State, ssuMask t = ssuMask s → (LevelMet t w q level ↔ LevelMet s w q level) := by
    intro t h
    rw [frame_of_su h]
    rfl
  exact same _ (evaluateStorm_su s a b)

theorem turning_eq (x : DriveReport) : turning x =
    (x.state == .running || x.state == .starting || (x.state == .float || x.state == .localHand) && x.floatRunning) := by
  unfold turning
  cases x.state <;> cases x.floatRunning <;> rfl

/-- The exit notice names the pumps of the well, each by its drive's last report. -/
theorem exitNames_get (q : Pump) :
    (exitNames s w).get q = if s.wellOf q = some w then some (exitName (s.pump q)) else none :=
  PerPump.get_make ..

theorem countNames_eq (names : PerPump (Option ExitName)) (x : ExitName) (f : ExitName → Bool) (h : f = fun n => n == x) :
    countNames names f = (Pump.all.filter fun q => names.get q == some x).length := by
  subst h
  unfold countNames
  congr 2
  funext q
  cases names.get q <;> rfl

theorem countNames_either (names : PerPump (Option ExitName)) (x y : ExitName) (f : ExitName → Bool)
    (h : f = fun n => n == x || n == y) :
    countNames names f = (Pump.all.filter fun q => names.get q == some x || names.get q == some y).length := by
  subst h
  unfold countNames
  congr 2
  funext q
  cases names.get q <;> rfl

/-- Settles O49. -/
theorem fallbackComesAndGoes : Obligations.FallbackComesAndGoes := by
  intro w d p s live
  obtain ⟨e, he⟩ : ∃ e, e = evaluateStorm s (seenWell s w d .a) (seenWell s w d .b) := ⟨_, rfl⟩
  have kept := (evaluateStorm_keeps s (seenWell s w d .a) (seenWell s w d .b)).1
  rw [← he] at kept
  have well : e.ssu.well = s.ssu.well := by rw [kept]
  have out : exec (.wellRecordDeliverySsu w d) s = .next (afterDelivery e w d) := he ▸ exec_wellRecordDeliverySsu live
  refine ⟨fun working lost => ?enter, fun fallback => ⟨?stay, fun x timer now unknown => ?wait, fun c ends => ?leave⟩⟩
  case enter =>
    refine ⟨_, out, ?_⟩
    unfold afterDelivery
    rw [if_pos ⟨by rw [well]; exact working, lost⟩]
    simp [enterFallback, setRecovery, setWellState, State.raiseAll, State.submit, State.raise]
  case stay =>
    refine ⟨_, out, ?_⟩
    have held : e.ssu.well.get w = .fallback := by rw [well]; exact fallback
    have now : e.now = s.now := by
      rw [he]
      exact eq_of_mask ssuMask State.now (fun _ => rfl) (evaluateStorm_su ..)
    have setup : e.setup = s.setup := by
      rw [he]
      exact eq_of_mask ssuMask State.setup (fun _ => rfl) (evaluateStorm_su ..)
    have recovery : e.ssu.recoveryAt = s.ssu.recoveryAt := by rw [kept]
    have wait : e.ssu.statusWait = s.ssu.statusWait := by rw [kept]
    have met : levelConditions e w d = true ↔ LevelMet s w d.quality d.level := by
      rw [levelConditions_iff, he]
      exact levelMet_evaluateStorm ..
    have judged : afterDelivery e w d = judgeRecovery e w d := if_neg fun h => h.1 held
    rw [judged]
    unfold judgeRecovery
    rw [if_pos held]
    by_cases level : LevelMet s w d.quality d.level
    · rw [if_pos (met.2 level), recovery, wait, now, setup]
      refine ⟨?_, fun _ => ?_, fun not => absurd level not⟩
      · cases s.ssu.recoveryAt.get w with
        | none =>
          cases s.ssu.statusWait.get w with
          | none => exact well
          | some _ => exact well
        | some _ => exact well
      · cases s.ssu.recoveryAt.get w with
        | none =>
          cases waits : s.ssu.statusWait.get w with
          | none =>
            refine ⟨?_, congrArg (PerWell.set · w (some (s.now + s.setup.recoveryTime.toNat * 1000))) recovery⟩
            show e.ssu.statusWait.set w none = _
            rw [wait, ← waits, PerWell.set_get]
          | some _ => exact ⟨wait, recovery⟩
        | some _ => exact ⟨wait, recovery⟩
    · rw [if_neg (mt met.1 level)]
      refine ⟨well, fun yes => absurd yes level, fun _ => ⟨?_, ?_⟩⟩
      · show e.ssu.recoveryAt.set w none = _
        rw [recovery]
      · show e.ssu.statusWait.set w none = _
        rw [wait]
  case wait =>
    apply whenDue_next live (by simpa [due, timer] using now)
    have silent : ¬ allKnown s w = true := by
      rw [allKnown_iff]
      exact fun all => unknown.elim fun q h => all q h.1 h.2
    rw [if_pos fallback, if_neg silent, timer]
    rfl
  case leave =>
    have exits : exec c s = .next (exitFallback s w) := by
      obtain ⟨rfl, now, known⟩ | ⟨rfl, now⟩ | ⟨rfl, fitted, waits, known⟩ := ends
      · apply whenDue_next live now
        rw [if_pos fallback, if_pos (allKnown_iff.2 known)]
      · apply whenDue_next live now
        rw [if_pos fallback]
      · apply whenLive_next live
        rw [fitted]
        simp [fallback, waits, allKnown_iff.2 known]
    have restricted : openWellState s w = .restricted ↔ ∃ k, screenWell k = w ∧ s.ssu.blinded.get k = true := by
      have any : anyBlinded s w = true ↔ ∃ k, screenWell k = w ∧ s.ssu.blinded.get k = true := by
        have all : ∀ P : Screen → Prop, (∃ k, P k) ↔ P .s1 ∨ P .s2 ∨ P .s3 := fun P =>
          ⟨fun ⟨k, h⟩ => by cases k; exacts [.inl h, .inr (.inl h), .inr (.inr h)],
            fun h => h.elim (⟨_, ·⟩) fun h => h.elim (⟨_, ·⟩) (⟨_, ·⟩)⟩
        rw [all]
        cases w <;> simp [anyBlinded, screensOf, screenWell]
      rw [← any]
      unfold openWellState
      cases anyBlinded s w <;> simp
    have state : (exitFallback s w).ssu.well.get w = openWellState s w := by simp [exitFallback, setRecovery, setWellState]
    have raised : (exitFallback s w).raised = s.raised ++ [.fallbackExitDc w (exitNames s w),
        .fallbackExitSb w (exitNames s w), .wellStateToOa w (openWellState s w)]
        ++ [.recordSubmission (leaveRecord w (exitNames s w))] := rfl
    rw [exits]
    refine ⟨_, exitNames s w, rfl, ?_, ?_, ?_, ?_, ?_, ?_, ?_, fun q other => ?_, fun q x at_ fitted known => ?_,
      fun q fitted unknown => ?_, ?_⟩
    · rw [state]
      unfold openWellState
      split <;> simp
    · rw [state]
      exact restricted
    · simp [exitFallback, setRecovery]
    · simp [exitFallback, setRecovery]
    · simp [raised]
    · simp [raised]
    · rw [state]
      simp [raised]
    · rw [exitNames_get, if_neg other]
    · rw [exitNames_get, if_pos fitted]
      unfold exitName
      rw [known] <;> rfl
    · rw [exitNames_get, if_pos fitted]
      unfold exitName
      rw [unknown]
      cases (s.pump q).lastReport with
      | none => rfl
      | some x => exact congrArg (fun b => some (ExitName.silent b)) (turning_eq x)
    · rw [raised, ← countNames_eq _ .adopted _ rfl, ← countNames_either _ (.localHand true) (.localHand false) _ rfl,
        ← countNames_either _ (.silent true) (.silent false) _ rfl, ← countNames_eq _ .stopped _ rfl]
      exact List.mem_append_right _ (List.mem_singleton.2 rfl)

end Storms

end Sys2Proof.Machine
end


section
/-! PROOF. The Start Budget: requests and grants, messages, and a change of supply. -/

namespace Sys2Proof.Machine

section Account

variable {s t : State} {r : Requester}

/-! ## The queue (R93, R95) -/

theorem insertRequest_split (q : Request) (qs : List Request) : ∃ before after, qs = before ++ after
    ∧ insertRequest q qs = before ++ q :: after ∧ (∀ x ∈ before, x.cls.rank ≤ q.cls.rank)
    ∧ ∀ x, after.head? = some x → q.cls.rank < x.cls.rank := by
  induction qs with
  | nil => exact ⟨[], [], rfl, rfl, by simp, by simp⟩
  | cons x xs ih =>
    unfold insertRequest
    split
    · next behind => exact ⟨[], x :: xs, rfl, rfl, by simp, by simpa using behind⟩
    · next ahead =>
      obtain ⟨before, after, split, joined, low, high⟩ := ih
      refine ⟨x :: before, after, by rw [split]; rfl, by rw [joined]; rfl, fun y mem => ?_, high⟩
      rcases List.mem_cons.1 mem with rfl | rest
      · omega
      · exact low y rest

/-- What an examination grants, as the requests that leave the queue. -/
theorem examine_requests (s : State) : ∃ granted : List Request, s.budget.queue = granted ++ (examine s).budget.queue
    ∧ Granted s (examine s) (granted.map (·.requester)) := by
  obtain ⟨granted, h⟩ := examine_granted s
  have first : granted = (s.budget.queue.take granted.length).map (·.requester) := by
    have := congrArg (List.take granted.length) h.queue
    rw [List.take_left] at this
    rw [List.map_take, this]
  refine ⟨s.budget.queue.take granted.length, ?_, ?_⟩
  · rw [h.left, List.take_append_drop]
  · rw [← first]
    exact h

theorem Granted.none {granted : List Requester} (h : Granted s t granted) (empty : s.budget.queue = []) :
    granted = [] ∧ t.raised = s.raised ∧ t.budget.queue = [] ∧ ∀ x, entryOfReq t.budget x = entryOfReq s.budget x := by
  have queue := h.queue
  rw [empty] at queue
  obtain ⟨rfl, _⟩ : granted = [] ∧ _ := by simpa using queue.symm
  refine ⟨rfl, ?_, ?_, fun x => by simpa using h.entries x⟩
  · rw [h.frame]
    simp
  · rw [h.left, empty]
    rfl

theorem exec_startRequest (live : s.live = true) {cls : RequestClass} :
    exec (.startRequest r cls) s = .next (match standing s.budget r with
      | some q => if q.cls.rank = cls.rank then s else examine { s with budget := joinQueue s.budget r cls }
      | none => examine { s with budget := joinQueue s.budget r cls }) := by
  apply whenLive_next live
  rfl

/-- Settles O38. -/
theorem requestsAreGranted : Obligations.RequestsAreGranted := by
  intro r cls s live
  refine ⟨fun q at_ same => ?_, fun other => ?_⟩
  · rw [exec_startRequest live, at_]
    exact congrArg _ (if_pos same)
  · have out : exec (.startRequest r cls) s = .next (examine { s with budget := joinQueue s.budget r cls }) := by
      rw [exec_startRequest live]
      cases at_ : standing s.budget r with
      | none => rfl
      | some q => exact congrArg _ (if_neg (other q at_))
    obtain ⟨before, after, split, joined, low, high⟩ :=
      insertRequest_split ⟨r, cls, s.budget.arrivals⟩ (withoutRequester r s.budget.queue)
    obtain ⟨granted, queue, frame, rest, entries, _, _, bound, _, ends⟩ :=
      examine_requests { s with budget := joinQueue s.budget r cls }
    obtain ⟨supply, reserve, arrivals⟩ := rest
    refine ⟨_, before, after, granted, out, split, ?_, low, high, arrivals, ?_, bound, ends, fun q mem => ?_, fun x none => ?_,
      supply, reserve⟩
    · rw [← joined]
      exact queue
    · rw [frame]
      simp [Function.comp_def]
    · rw [entries, if_pos (List.mem_map_of_mem mem)]
      cases q.requester <;> rfl
    · rw [entries, if_neg ?_]
      · cases x <;> rfl
      · intro mem
        obtain ⟨q, held, same⟩ := List.mem_map.1 mem
        exact none q held same

/-! ## Messages (R90, R91, R94, R99) -/

/-- A change of the account leaves the entry of a requester that has no request waiting as it is written, and changes nothing
else when nobody waits. -/
theorem changeBudget_entries (s : State) (r : Requester) (e : ChargeEntry) :
    ((∀ q ∈ s.budget.queue, q.requester ≠ r) → entryOfReq (changeBudget s (setEntry s.budget r e)).budget r = e)
    ∧ (s.budget.queue = [] → (changeBudget s (setEntry s.budget r e)).raised = s.raised
      ∧ (changeBudget s (setEntry s.budget r e)).budget.queue = []
      ∧ ∀ x, x ≠ r → entryOfReq (changeBudget s (setEntry s.budget r e)).budget x = entryOfReq s.budget x) := by
  have written : ∀ x, entryOfReq (setEntry s.budget r e) x = if x = r then e else entryOfReq s.budget x :=
    fun x => entryOfReq_setEntry s.budget r x e
  have queue : (setEntry s.budget r e).queue = s.budget.queue := setEntry_queue ..
  unfold changeBudget
  dsimp only
  split
  · obtain ⟨granted, waited, h⟩ := examine_requests { s with budget := setEntry s.budget r e }
    have waited : s.budget.queue = granted ++ (examine { s with budget := setEntry s.budget r e }).budget.queue :=
      queue.symm.trans waited
    refine ⟨fun free => ?_, fun empty => ?_⟩
    · rw [h.entries, if_neg ?_]
      · exact (written r).trans (if_pos rfl)
      · intro mem
        obtain ⟨q, held, same⟩ := List.mem_map.1 mem
        exact free q (waited ▸ List.mem_append_left _ held) same
    · obtain ⟨_, raised, none, entries⟩ := h.none (queue.trans empty)
      refine ⟨raised, none, fun x other => ?_⟩
      rw [entries]
      exact (written x).trans (if_neg other)
  · refine ⟨fun _ => (written r).trans (if_pos rfl), fun empty => ⟨rfl, queue.trans empty, fun x other => ?_⟩⟩
    exact (written x).trans (if_neg other)

theorem withoutRequester_of_none (h : ∀ q ∈ s.budget.queue, q.requester ≠ r) :
    withoutRequester r s.budget.queue = s.budget.queue :=
  List.filter_eq_self.2 fun q mem => by simpa using h q mem

theorem exec_requestWithdrawal (live : s.live = true) :
    exec (.requestWithdrawal r) s = .next (removeRequests s (withoutRequester r s.budget.queue)) := by
  apply whenLive_next live
  rfl

/-- What taking requests out of the queue leaves: the rest, but for those that a new head's examination grants. -/
theorem removeRequests_granted (s : State) (qs : List Request) : ∃ granted : List Request,
    qs = granted ++ (removeRequests s qs).budget.queue
    ∧ (removeRequests s qs).raised = s.raised ++ granted.map fun q => grantEvent q.requester := by
  unfold removeRequests
  dsimp only
  split
  · obtain ⟨granted, queue, h⟩ := examine_requests { s with budget := { s.budget with queue := qs } }
    refine ⟨granted, queue, ?_⟩
    rw [h.frame]
    simp [Function.comp_def]
  · exact ⟨[], rfl, by simp⟩

/-! ## The sweep (R97, R98) -/

theorem mem_alternate {α : Type} {x : α} (xs ys : List α) : x ∈ alternate xs ys ↔ x ∈ xs ∨ x ∈ ys := by
  induction xs generalizing ys with
  | nil => simp [alternate]
  | cons a xs ih =>
    cases ys with
    | nil => simp [alternate]
    | cons b ys =>
      simp only [alternate, List.mem_cons, ih]
      tauto

theorem alternate_alternates {α : Type} (xs ys : List α) : Alternates (alternate xs ys) xs ys := by
  induction xs generalizing ys with
  | nil => simp [Alternates, alternate]
  | cons a xs ih =>
    cases ys with
    | nil => simp [Alternates, alternate]
    | cons b ys =>
      obtain ⟨pairs, rest⟩ := ih ys
      have short : min (a :: xs).length (b :: ys).length = min xs.length ys.length + 1 := by
        simp only [List.length_cons]
        omega
      unfold Alternates
      dsimp only
      rw [short]
      refine ⟨fun k hk => ?_, ?_⟩
      · cases k with
        | zero => exact ⟨rfl, rfl⟩
        | succ k => exact pairs k (by omega)
      · rw [Nat.mul_add]
        exact rest

theorem sheddable_iff (e : ChargeEntry) :
    sheddable e = true ↔ (e.kind = .start ∨ e.kind = .running) ∧ e.releasing = false := by
  simp [sheddable]

theorem pumpCandidates_eq {st : PumpState} {kind : ChargeKind} (charged : kind = .start ∨ kind = .running) (w : Well) :
    pumpCandidates s st kind w = shedPumps s st kind w := by
  unfold pumpCandidates shedPumps
  rw [← List.filter_reverse]
  refine List.filter_congr fun p _ => ?_
  rw [Bool.eq_iff_iff]
  simp only [Bool.and_eq_true, beq_iff_eq, sheddable_iff, decide_eq_true_eq]
  constructor
  · rintro ⟨⟨⟨owner, state⟩, held⟩, _, free⟩
    exact ⟨owner, state, held, free⟩
  · rintro ⟨owner, state, held, free⟩
    exact ⟨⟨⟨owner, state⟩, held⟩, held ▸ charged, free⟩

theorem candidates_shedOrder (s : State) : ShedOrder s (candidates s) := by
  refine ⟨_, _, ?_, alternate_alternates .., alternate_alternates ..⟩
  unfold candidates rakeCandidates
  rw [pumpCandidates_eq (.inl rfl), pumpCandidates_eq (.inl rfl), pumpCandidates_eq (.inr rfl), pumpCandidates_eq (.inr rfl)]
  congr 3
  refine List.filter_congr fun k _ => ?_
  rw [Bool.eq_iff_iff]
  simp [sheddable_iff, or_assoc]

/-- A candidate of a sweep, but for its entry. -/
def mayShed (s : State) : Requester → ChargeKind → Prop
  | .rake k, _ => (s.screen k).state = .cycling ∨ (s.screen k).state = .jamReverse ∨ (s.screen k).state = .jamPause
  | .pump p, kind => (p ∈ s.duty.rotation.a ∨ p ∈ s.duty.rotation.b) ∧ (s.pump p).owner = .auto
      ∧ ((s.pump p).state = .starting ∧ kind = .start ∨ (s.pump p).state = .running ∧ kind = .running)

theorem mem_candidates (s : State) (x : Requester) :
    x ∈ candidates s ↔ mayShed s x (entryOfReq s.budget x).kind ∧ sheddable (entryOfReq s.budget x) = true := by
  have pumps : ∀ st kind w p, p ∈ pumpCandidates s st kind w ↔ p ∈ s.duty.rotation.get w ∧ (s.pump p).owner = .auto
      ∧ (s.pump p).state = st ∧ (s.budget.pumps.get p).kind = kind ∧ sheddable (s.budget.pumps.get p) = true := by
    intro st kind w p
    simp [pumpCandidates, and_assoc]
  cases x with
  | rake k =>
    have order : k = .s3 ∨ k = .s2 ∨ k = .s1 := by cases k <;> simp
    simp [candidates, rakeCandidates, mayShed, entryOfReq, order, or_assoc]
  | pump p =>
    simp [candidates, rakeCandidates, mem_alternate, pumps, mayShed, entryOfReq, PerWell.get]
    tauto

/-- What a sweep does (R97): it takes candidates in order, and ends where the weight fits or none is left. -/
theorem sweep_taken (s : State) : Taken (capacity s) (candidates s) s.budget (sweep s).1.budget (sweep s).2
    ∧ (sweep s).1 = { s with budget := (sweep s).1.budget, raised := s.raised ++ (sweep s).2.map shedEvent } :=
  ⟨takeCandidates_taken .., rfl⟩

theorem Taken.committed {cap : Nat} {list shed : List Requester} {b b' : Budget} (h : Taken cap list b b' shed) :
    committed b' = committed b := by
  refine committed_congr (fun x => ?_) h.rest.1
  rw [h.entries]
  split <;> rfl

/-- Where a sweep ends without fitting, no candidate is left. -/
theorem candidates_of_all (s : State) (all : (sweep s).2 = candidates s) : candidates (sweep s).1 = [] := by
  obtain ⟨taken, frame⟩ := sweep_taken s
  refine List.eq_nil_iff_forall_not_mem.2 fun x mem => ?_
  obtain ⟨may, free⟩ := (mem_candidates _ x).1 mem
  rw [taken.entries] at may free
  split at free
  · simp [sheddable] at free
  · next out =>
    rw [if_neg out] at may
    refine out (all ▸ (mem_candidates s x).2 ⟨?_, free⟩)
    rw [frame] at may
    cases x <;> exact may

/-- Settles O39. -/
theorem messagesChangeTheAccount : Obligations.MessagesChangeTheAccount := by
  intro r p s live
  have external : ∀ b, exec (.externalCharge p b) s = .next (if inFallback s p then s else if b then
      if (s.budget.pumps.get p).kind = .running then
        { s with budget := setEntry s.budget (.pump p) { s.budget.pumps.get p with kind := .external } } else s
    else if (s.budget.pumps.get p).kind = .none then
      { s with budget := setEntry s.budget (.pump p) ⟨.external, runWeight s (.pump p), false⟩ } else s) := by
    intro b
    apply whenLive_next live
    rfl
  refine ⟨fun free => ⟨fun c message => ?message, ?_⟩, ?withdrawal, fun w fitted fallback b => ?_, fun working => ⟨?_, ?_⟩,
    ?_, ?decline⟩
  case message =>
    obtain rfl | rfl | rfl := message
    · refine ⟨if (entryOfReq s.budget r).kind = .start then changeBudget s (setEntry s.budget r
        { entryOfReq s.budget r with kind := .running, weight := runWeight s r }) else s, ?_, ?_⟩
      · apply whenLive_next live
        rfl
      · rw [if_pos rfl]
        obtain ⟨own, others⟩ := changeBudget_entries s r
          { entryOfReq s.budget r with kind := .running, weight := runWeight s r }
        split
        · exact ⟨own free, others⟩
        · exact ⟨rfl, fun empty => ⟨rfl, empty, fun _ _ => rfl⟩⟩
    · refine ⟨if (entryOfReq s.budget r).kind = .start then changeBudget s (setEntry s.budget r .clear) else s, ?_, ?_⟩
      · apply whenLive_next live
        rfl
      · simp only [reduceCtorEq, if_true, if_false]
        obtain ⟨own, others⟩ := changeBudget_entries s r .clear
        split
        · exact ⟨own free, others⟩
        · exact ⟨rfl, fun empty => ⟨rfl, empty, fun _ _ => rfl⟩⟩
    · refine ⟨if (entryOfReq s.budget r).kind = .none then s else changeBudget s (setEntry s.budget r .clear), ?_, ?_⟩
      · apply whenLive_next live
        rfl
      · simp only [reduceCtorEq, if_false]
        obtain ⟨own, others⟩ := changeBudget_entries s r .clear
        split
        · exact ⟨rfl, fun empty => ⟨rfl, empty, fun _ _ => rfl⟩⟩
        · exact ⟨own free, others⟩
  · rw [exec_requestWithdrawal live, withoutRequester_of_none free]
    simp [removeRequests, headChanged]
  case withdrawal =>
    obtain ⟨granted, queue, raised⟩ := removeRequests_granted s (withoutRequester r s.budget.queue)
    refine ⟨_, exec_requestWithdrawal live, fun q mem => ?_, granted, queue, raised⟩
    have held : q ∈ withoutRequester r s.budget.queue := queue ▸ List.mem_append_right _ mem
    simpa [withoutRequester] using (List.mem_filter.1 held).2
  · rw [external, if_pos (inFallback_iff.2 ⟨w, fitted, fallback⟩)]
  · rw [external, if_neg fun h => (inFallback_iff.1 h).elim fun w k => working w k.1 k.2]
    rfl
  · rw [external, if_neg fun h => (inFallback_iff.1 h).elim fun w k => working w k.1 k.2]
    rfl
  · apply whenLive_next live
    rfl
  case decline =>
    obtain ⟨u, hu⟩ : ∃ u, u = { s with budget := setEntry s.budget r { entryOfReq s.budget r with releasing := false } } :=
      ⟨_, rfl⟩
    have cleared : ∀ x, entryOfReq u.budget x =
        if x = r then { entryOfReq s.budget r with releasing := false } else entryOfReq s.budget x := by
      intro x
      rw [hu]
      exact entryOfReq_setEntry ..
    obtain ⟨taken, frame⟩ := sweep_taken u
    refine ⟨(sweep u).1, (sweep u).2, ?_, ?_, fun x mem => ?_, fun out => ?_, ?_, ?_⟩
    · apply whenLive_next live
      rw [hu]
    · rw [frame, hu]
    · rw [taken.entries, if_pos mem]
    · rw [taken.entries, if_neg out, cleared, if_pos rfl]
    · rw [taken.committed]
      refine committed_congr (fun x => ?_) ?_
      · rw [cleared]
        split
        · next same => rw [same]
        · rfl
      · rw [hu]
        exact setEntry_reserve ..
    · have room : capacity u = capacity s := by
        rw [hu]
        show capacityOf _ (setEntry s.budget r _).supply = _
        rw [setEntry_supply]
        rfl
      rw [← room]
      exact taken.ends.imp id fun all => candidates_of_all u all

/-! ## A change of supply (R88) -/

/-- A new supply state is met by a sweep, by grants or by neither, and recorded. -/
theorem supplyChange_eq (s : State) (v : Supply) : supplyChange s v =
    ((capacityChange { s with budget := { s.budget with supply := v } } (capacity s)).1.submit
      (.supplyChange s.budget.supply v
        (capacity (capacityChange { s with budget := { s.budget with supply := v } } (capacity s)).1)
        (committed (capacityChange { s with budget := { s.budget with supply := v } } (capacity s)).1.budget)
        ((capacityChange { s with budget := { s.budget with supply := v } } (capacity s)).2.filter isRake).length
        ((capacityChange { s with budget := { s.budget with supply := v } } (capacity s)).2.filter
          fun r => !(isRake r)).length)) := rfl

theorem exec_supplyStat (live : s.live = true) {src : Addr} {value : Option Supply} :
    exec (.supplyStat src value) s = .next (if (src : Int) = s.setup.supplyMonitor then
      match value with
      | some v => if v = .unknown ∨ v = s.budget.supply then s else supplyChange s v
      | none => s
    else s) := by
  apply whenLive_next live
  rfl

/-- Settles O40. -/
theorem supplyChanges : Obligations.SupplyChanges := by
  intro src v s live
  refine ⟨candidates_shedOrder s, ?_, fun foreign => ?_, fun same => ?_, fun monitor known new => ?_⟩
  · rw [exec_supplyStat live]
    exact congrArg _ (ite_self s)
  · rw [exec_supplyStat live, if_neg foreign]
  · rw [exec_supplyStat live]
    dsimp only
    rw [if_pos same, ite_self]
  · obtain ⟨u, hu⟩ : ∃ u, u = { s with budget := { s.budget with supply := v } } := ⟨_, rfl⟩
    have out : exec (.supplyStat src (some v)) s = .next (supplyChange s v) := by
      rw [exec_supplyStat live, if_pos monitor]
      dsimp only
      rw [if_neg (by simp [known, new])]
    have room : capacity u = capacityOf s.setup v := by rw [hu]; rfl
    have entries : ∀ x, entryOfReq u.budget x = entryOfReq s.budget x := by
      intro x
      rw [hu]
      cases x <;> rfl
    have weights : ∀ x, startWeight u x = startWeight s x := by
      intro x
      rw [hu]
      cases x <;> rfl
    have order : candidates u = candidates s := by rw [hu]; rfl
    have weight : committed u.budget = committed s.budget := committed_congr (fun x => by rw [entries]) (by rw [hu])
    have same : u = { s with budget := { s.budget with supply := v } } := hu
    have recorded : ∀ (x : State × List Requester), capacityChange u (capacity s) = x → supplyChange s v =
        x.1.submit (.supplyChange s.budget.supply v (capacity x.1) (committed x.1.budget) (x.2.filter isRake).length
          (x.2.filter fun r => !(isRake r)).length) := by
      rintro x rfl
      rw [hu]
      rfl
    rw [out]
    rcases Nat.lt_trichotomy (capacityOf s.setup v) (capacity s) with less | equal | more
    · obtain ⟨taken, frame⟩ := sweep_taken u
      have change : capacityChange u (capacity s) = sweep u := if_pos (by rw [room]; exact less)
      have after : capacity (sweep u).1 = capacityOf s.setup v := by
        rw [frame]
        show capacityOf u.setup (sweep u).1.budget.supply = _
        rw [taken.rest.2.2.2, hu]
        rfl
      rw [recorded _ change]
      obtain ⟨reserve, queue, arrivals, supply⟩ := taken.rest
      refine ⟨_, (sweep u).2, [], rfl, ?_, ?_, ?_, ?_, ?_, fun x mem => ?_, by simp, fun x out _ => ?_,
        fun _ => ⟨rfl, ?_, ?_, ?_, ?_, fun k b hk hb => ?_⟩, fun other => absurd other (by omega),
        fun other => absurd other (by omega)⟩
      · rw [frame, hu]
        rfl
      · show (sweep u).1.budget.supply = v
        rw [supply, hu]
      · show (sweep u).1.budget.reserve = _
        rw [reserve, hu]
      · show (sweep u).1.budget.arrivals = _
        rw [arrivals, hu]
      · rw [after]
        show (sweep u).1.raised ++ _ = _
        rw [frame, hu]
        simp
      · show entryOfReq (sweep u).1.budget x = _
        rw [taken.entries, if_pos mem, entries]
      · show entryOfReq (sweep u).1.budget x = _
        rw [taken.entries, if_neg out, entries]
      · show (sweep u).1.budget.queue = _
        rw [queue, hu]
      · show committed (sweep u).1.budget = _
        rw [taken.committed, weight]
      · rw [← order]
        exact taken.first
      · show committed (sweep u).1.budget ≤ capacity (sweep u).1 + releasing (sweep u).1.budget ∨ _
        rw [after, ← room, ← order]
        exact taken.ends
      · show capacity (sweep u).1 + releasing b < _
        rw [after, ← room, ← weight]
        exact taken.needed k b hk fun x => by rw [hb, entries]
    · have change : capacityChange u (capacity s) = (u, []) := by
        unfold capacityChange
        rw [if_neg (by omega), if_neg (by omega)]
      rw [recorded _ change]
      refine ⟨_, [], [], rfl, ?_, ?_, ?_, ?_, ?_, by simp, by simp, fun x _ _ => ?_, fun other => absurd other (by omega),
        fun other => absurd other (by omega), fun _ => ⟨rfl, rfl, ?_⟩⟩
      · rw [hu]
        rfl
      · rw [hu]
        rfl
      · rw [hu]
        rfl
      · rw [hu]
        rfl
      · rw [room, hu]
        simp
      · exact entries x
      · rw [hu]
        rfl
    · obtain ⟨granted, g⟩ := examine_granted u
      have change : capacityChange u (capacity s) = (examine u, []) := by
        unfold capacityChange
        rw [if_neg (by omega), if_pos (by omega)]
      obtain ⟨supply, reserve, arrivals⟩ := g.rest
      have after : capacity (examine u) = capacityOf s.setup v := by
        rw [g.frame, ← room]
        show capacityOf u.setup (examine u).budget.supply = _
        rw [supply]
        rfl
      rw [recorded _ change]
      refine ⟨_, [], granted, rfl, ?_, ?_, ?_, ?_, ?_, by simp, fun x mem => ?_, fun x _ out => ?_,
        fun other => absurd other (by omega), fun _ => ⟨rfl, ?_, ?_, ?_, fun k x b hk hr hb => ?_, fun q head => ?_⟩,
        fun other => absurd other (by omega)⟩
      · rw [g.frame, hu]
        rfl
      · show (examine u).budget.supply = v
        rw [supply, hu]
      · show (examine u).budget.reserve = _
        rw [reserve, hu]
      · show (examine u).budget.arrivals = _
        rw [arrivals, hu]
      · rw [after]
        show (examine u).raised ++ _ = _
        have raised : (examine u).raised = s.raised ++ granted.map grantEvent := by rw [g.frame, hu]
        rw [raised]
        simp
      · show entryOfReq (examine u).budget x = _
        rw [g.entries, if_pos mem, weights]
      · show entryOfReq (examine u).budget x = _
        rw [g.entries, if_neg out, entries]
      · have queue := g.queue
        rw [hu] at queue ⊢
        exact queue
      · have left := g.left
        rw [hu] at left ⊢
        exact left
      · show committed (examine u).budget ≤ max (committed s.budget) (capacity (examine u))
        rw [after, ← room, ← weight]
        exact g.bound
      · show committed b + _ ≤ capacity (examine u)
        rw [after, ← room, ← weights]
        refine g.each k x b hk (by rw [hr, hu]) fun y => ?_
        rw [hb, weights, entries]
      · show capacity (examine u) < committed (examine u).budget + _
        rw [after, ← room, ← weights]
        exact g.ends q head

end Account

end Sys2Proof.Machine
end


section
/-! PROOF. Screens: the differential, cycles, jams, reports and timers. -/

namespace Sys2Proof.Machine

/-- A state with one screen's record, the loop and the events on their way replaced: the form in which every operation of SC
on a screen leaves a state. -/
def State.onRake (s : State) (k : Screen) (r : ScreenRecord) (lp : Loop) (es : List Instr) : State :=
  { s with screens := s.screens.set k r, lp := lp, raised := s.raised ++ es }

section Rake

variable {s t : State} {k : Screen}

/-! ## What the form leaves -/

@[simp] theorem onRake_screen (k' : Screen) (r : ScreenRecord) (lp : Loop) (es : List Instr) :
    (s.onRake k r lp es).screen k' = if k' = k then r else s.screen k' := by simp [State.onRake, State.screen]
@[simp] theorem onRake_lp (r : ScreenRecord) (lp : Loop) (es : List Instr) : (s.onRake k r lp es).lp = lp := rfl
@[simp] theorem onRake_raised (r : ScreenRecord) (lp : Loop) (es : List Instr) :
    (s.onRake k r lp es).raised = s.raised ++ es := rfl
@[simp] theorem onRake_setup (r : ScreenRecord) (lp : Loop) (es : List Instr) : (s.onRake k r lp es).setup = s.setup := rfl
@[simp] theorem onRake_chan (q : Quantity) (r : ScreenRecord) (lp : Loop) (es : List Instr) :
    (s.onRake k r lp es).chan q = s.chan q := rfl
@[simp] theorem onRake_now (r : ScreenRecord) (lp : Loop) (es : List Instr) : (s.onRake k r lp es).now = s.now := rfl
@[simp] theorem onRake_ssu (r : ScreenRecord) (lp : Loop) (es : List Instr) : (s.onRake k r lp es).ssu = s.ssu := rfl
@[simp] theorem onRake_entryFor (q : Quantity) (r : ScreenRecord) (lp : Loop) (es : List Instr) :
    entryFor (s.onRake k r lp es) q = entryFor s q := rfl
@[simp] theorem onRake_sc (r : ScreenRecord) (lp : Loop) (es : List Instr) : scMask (s.onRake k r lp es) = scMask s := rfl

theorem PerScreen.set_get {α : Type} (f : PerScreen α) (k : Screen) : f.set k (f.get k) = f := by cases k <;> rfl
theorem PerScreen.set_set {α : Type} (f : PerScreen α) (k : Screen) (x y : α) : (f.set k x).set k y = f.set k y := by
  cases k <;> rfl

theorem onRake_self : s.onRake k (s.screen k) s.lp [] = s := by
  simp [State.onRake, State.screen, PerScreen.set_get]

theorem setScreen_onRake (r : ScreenRecord) : s.setScreen k r = s.onRake k r s.lp [] := by
  simp [State.onRake, State.setScreen]

theorem raise_onRake (e : Instr) : s.raise e = s.onRake k (s.screen k) s.lp [e] := by
  simp [State.onRake, State.raise, State.screen, PerScreen.set_get]

theorem onRake_onRake (r r' : ScreenRecord) (lp lp' : Loop) (es es' : List Instr) :
    (s.onRake k r lp es).onRake k r' lp' es' = s.onRake k r' lp' (es ++ es') := by
  simp [State.onRake, PerScreen.set_set]

/-! ## The operations in that form -/

theorem reblind_eq : reblind s k = s.onRake k { s.screen k with blinded := blindedNow s k } s.lp
    (if (s.screen k).blinded = blindedNow s k then [] else [.blindedChange k (blindedNow s k)]) := by
  unfold reblind
  dsimp only
  split
  · next same => rw [← same]; exact onRake_self.symm
  · rfl

theorem rakeRelease_eq : rakeRelease s k = s.onRake k { s.screen k with charge := .none } s.lp
    (if (s.screen k).charge = .none then [] else [.chargeRelease (.rake k)]) := by
  unfold rakeRelease
  split
  · next same => rw [← same]; exact onRake_self.symm
  · rfl

theorem rakeWithdraw_eq : rakeWithdraw s k =
    s.onRake k { s.screen k with requestClass := none } s.lp [.requestWithdrawal (.rake k)] := rfl

theorem rakeRequest_eq : rakeRequest s k = s.onRake k { s.screen k with requestClass := some (classNow s k) } s.lp
    [.startRequest (.rake k) (classNow s k)] := rfl

theorem retestClass_eq : retestClass s k = s.onRake k { s.screen k with requestClass := some (classNow s k) } s.lp
    (if (s.screen k).requestClass = some (classNow s k) then [] else [.startRequest (.rake k) (classNow s k)]) := by
  unfold retestClass
  split
  · next same => rw [← same]; exact onRake_self.symm
  · rfl

theorem rakeEnter_eq (st : RakeState) : rakeEnter s k st =
    s.onRake k { s.screen k with state := st, phase := if st = .cycling then (s.screen k).phase else none } s.lp [] :=
  setScreen_onRake _

theorem clearCycle_eq : clearCycle s k =
    s.onRake k { s.screen k with leaveAt := none, cycleAt := none, jamAt := none, captureStart := none } s.lp [] :=
  setScreen_onRake _

theorem restartInterval_eq : restartInterval s k =
    s.onRake k { s.screen k with intervalAt := some (s.now + intervalMs s.setup s.ssu.state) } s.lp [] :=
  setScreen_onRake _

theorem confirmRake_eq : confirmRake s k = s.onRake k
    { s.screen k with
      charge := if granted (s.screen k).state = true ∧ (s.screen k).charge = .start then .running else (s.screen k).charge }
    s.lp (if granted (s.screen k).state = true ∧ (s.screen k).charge = .start then [.chargeTransfer (.rake k)] else []) := by
  unfold confirmRake
  simp only [Bool.and_eq_true, beq_iff_eq]
  split
  · rfl
  · exact onRake_self.symm

theorem liftLocal_eq : liftLocal s k = s.onRake k
    { s.screen k with
      localHold := false
      refreshAt := if (s.screen k).localHold then some (s.now + refreshMs s) else (s.screen k).refreshAt } s.lp [] := by
  unfold liftLocal
  split
  · exact setScreen_onRake _
  · next free => rw [← Bool.not_eq_true _ |>.mp free]; exact onRake_self.symm

theorem rakeTrigger_eq_of_free (free : (s.screen k).localHold = false) (known : homeUnknown s k = false) :
    rakeTrigger s k = s.onRake k
      { s.screen k with consecutive := 0, requestClass := some (classNow s k), state := .queued, phase := none } s.lp
      [.startRequest (.rake k) (classNow s k)] := by
  unfold rakeTrigger
  rw [free, known, if_neg (by decide)]
  simp [rakeRequest_eq, rakeEnter_eq, setScreen_onRake, onRake_onRake, classNow]

theorem rakeTrigger_eq_of_held (held : ((s.screen k).localHold || homeUnknown s k) = true) : rakeTrigger s k = s := by
  unfold rakeTrigger
  rw [if_pos held]

theorem homeUnknown_eq_false : homeUnknown s k = false ↔
    (s.chan (homeOf k)).quality ≠ .lost ∧ (entryFor s (homeOf k)).isSome = true := by
  simp [homeUnknown, Option.isSome_iff_ne_none]

/-- The action a rake's state holds. -/
theorem rakeAction_eq (st : RakeState) :
    rakeAction st = if st = .cycling then .run else if st = .jamReverse then .reverse else .stop := by cases st <;> rfl

/-- The DRIVE_CMD of a rake's held action. -/
def rakeCommand (s : State) (k : Screen) : OutFrame :=
  ⟨rakeDriveOf s k, s.lp.ownAddress, s.lp.ownSequence, .driveCmd (rakeAction (s.screen k).state) 100 (s.screen k).count⟩

theorem offerControl_of_room {dest : Addr} {answering : Option (BitVec 6)} {payload : OutPayload}
    (room : s.lp.control.length < 8) : ∃ lp es,
      offerControl s dest answering payload = some { s with lp := lp, raised := s.raised ++ es }
      ∧ lp.control = s.lp.control ++ [completeFrame s dest answering payload] := by
  unfold offerControl
  rw [if_pos room]
  cases choiceOnJoin s.lp
  · exact ⟨_, [], by simp [State.raiseIf]; rfl, rfl⟩
  · exact ⟨_, [.loopOutFree false], rfl, rfl⟩

theorem offerControl_of_full {dest : Addr} {answering : Option (BitVec 6)} {payload : OutPayload}
    (full : ¬s.lp.control.length < 8) : offerControl s dest answering payload = none := if_neg full

/-- Building a command changes no more of the record than the count and the timers of commands. -/
theorem buildRake_eq (change : Bool) : ∃ count refresh retry lp es,
    buildRake s k change = s.onRake k { s.screen k with count := count, refreshAt := refresh, retryAt := retry } lp es
    ∧ ((s.screen k).localHold = false → s.lp.control.length < 8 →
        lp.control = s.lp.control ++ [rakeCommand s k] ∧ count = (s.screen k).count + 1 ∧ retry = none)
    ∧ ((s.screen k).localHold = false → ¬s.lp.control.length < 8 → lp = s.lp ∧ count = (s.screen k).count) := by
  unfold buildRake rakeHeld
  cases held : (s.screen k).localHold with
  | true =>
    refine ⟨(s.screen k).count, (s.screen k).refreshAt, none, s.lp, [], ?_, by simp, by simp⟩
    exact setScreen_onRake _
  | false =>
    simp only [Bool.false_eq_true, if_false]
    by_cases room : s.lp.control.length < 8
    · obtain ⟨lp, es, placed, control⟩ := offerControl_of_room (s := s) (dest := rakeDriveOf s k) (answering := none)
        (payload := .driveCmd (rakeAction (s.screen k).state) 100 (s.screen k).count) room
      rw [placed]
      exact ⟨_, _, _, lp, es, rfl, fun _ _ => ⟨control, rfl, rfl⟩, fun _ full => absurd room full⟩
    · rw [offerControl_of_full room]
      cases change
      · exact ⟨_, _, _, _, _, onRake_self.symm, fun _ free => absurd free room, fun _ _ => ⟨rfl, rfl⟩⟩
      · exact ⟨_, _, _, _, _, setScreen_onRake _, fun _ free => absurd free room, fun _ _ => ⟨rfl, rfl⟩⟩

theorem whenSc_next {f : State → State} (live : s.live = true) : whenSc s k f = .next (reblind (f s) k) :=
  whenLive_next live rfl

theorem whenDueSc_next {x : Option Ms} {f : State → State} (live : s.live = true) (now : due x s.now = true) :
    whenDueSc s k x f = .next (reblind (f s) k) := whenDue_next live now rfl

/-! ## The evaluation of a differential (R102, R104, R106, R119) -/

/-- What an evaluation of a differential leaves of a screen, by the state it finds. -/
structure Evaluated (k : Screen) (d : Nat) (good : Bool) (s t : State) : Prop where
  differential : (t.screen k).differential = d ∧ (t.screen k).differentialGood = good
  started : (s.screen k).state = .parked → good = true → s.setup.rakeStartDiff.get k ≤ (d : Int) →
    (s.screen k).localHold = false → homeUnknown s k = false →
    (t.screen k).state = .queued ∧ (t.screen k).consecutive = 0
      ∧ (t.screen k).requestClass = some (if s.setup.criticalDiff.get k ≤ (d : Int) then .criticalRake else .rake)
      ∧ .startRequest (.rake k) (if s.setup.criticalDiff.get k ≤ (d : Int) then .criticalRake else .rake) ∈ t.raised
  parked : (s.screen k).state = .parked →
    ¬(good = true ∧ s.setup.rakeStartDiff.get k ≤ (d : Int) ∧ (s.screen k).localHold = false ∧ homeUnknown s k = false) →
    (t.screen k).state = .parked ∧ (t.screen k).consecutive = (s.screen k).consecutive
      ∧ (t.screen k).requestClass = (s.screen k).requestClass
      ∧ ∀ x, .startRequest (.rake k) x ∈ t.raised → .startRequest (.rake k) x ∈ s.raised
  waiting : (s.screen k).state = .queued ∨ (s.screen k).state = .shed →
    (t.screen k).requestClass = some (if s.setup.criticalDiff.get k ≤ (d : Int) then .criticalRake else .rake)
      ∧ ((s.screen k).requestClass ≠ some (if s.setup.criticalDiff.get k ≤ (d : Int) then .criticalRake else .rake) →
        .startRequest (.rake k) (if s.setup.criticalDiff.get k ≤ (d : Int) then .criticalRake else .rake) ∈ t.raised)
  state : (s.screen k).state ≠ .parked → (t.screen k).state = (s.screen k).state
  given_up : (s.screen k).state = .jammed ∨ (s.screen k).state = .outOfService →
    (t.screen k).blinded = decide (s.setup.blindingDiff.get k ≤ (d : Int))
      ∧ ((s.screen k).blinded ≠ (t.screen k).blinded → .blindedChange k (t.screen k).blinded ∈ t.raised)

/-- Two states between which the evaluation of a screen cannot tell: they differ in that screen's differential alone, and in
what is no matter of the screen. -/
structure SameRake (k : Screen) (s s' : State) : Prop where
  record : s'.screen k = { s.screen k with
    differential := (s'.screen k).differential, differentialGood := (s'.screen k).differentialGood }
  plant : scMask s' = scMask s
  requests : ∀ x, .startRequest (.rake k) x ∈ s'.raised ↔ .startRequest (.rake k) x ∈ s.raised

theorem SameRake.refl : SameRake k s s := ⟨rfl, rfl, fun _ => Iff.rfl⟩

theorem homeUnknown_of_sc (h : scMask t = scMask s) : homeUnknown t k = homeUnknown s k := by
  have channels : t.channels = s.channels := (congrArg State.channels h :)
  have tables : t.tables = s.tables := (congrArg State.tables h :)
  simp [homeUnknown, entryFor, mapEntries, State.chan, channels, tables]

theorem setup_of_sc (h : scMask t = scMask s) : t.setup = s.setup := (congrArg State.setup h :)

theorem Evaluated.of_same {d : Nat} {good : Bool} {s' : State} (same : SameRake k s s') (e : Evaluated k d good s' t) :
    Evaluated k d good s t := by
  obtain ⟨differential, started, parked, waiting, state, given_up⟩ := e
  have setup := setup_of_sc same.plant
  have home := homeUnknown_of_sc (k := k) same.plant
  rw [same.record] at started parked waiting state given_up
  simp only [setup, home, same.requests] at started parked waiting given_up
  exact ⟨differential, started, parked, waiting, state, given_up⟩

/-- What follows elsewhere leaves what an evaluation left of the screen. -/
theorem Evaluated.then {d : Nat} {good : Bool} {t' : State} (e : Evaluated k d good s t) (record : t'.screen k = t.screen k)
    (more : ∀ x ∈ t.raised, x ∈ t'.raised)
    (requests : ∀ x, .startRequest (.rake k) x ∈ t'.raised → .startRequest (.rake k) x ∈ t.raised) :
    Evaluated k d good s t' := by
  obtain ⟨differential, started, parked, waiting, state, given_up⟩ := e
  rw [← record] at differential started parked waiting state given_up
  refine ⟨differential, fun a b c d e => ?_, fun a b => ?_, fun a => ?_, state, fun a => ?_⟩
  · obtain ⟨st, con, cls, req⟩ := started a b c d e
    exact ⟨st, con, cls, more _ req⟩
  · obtain ⟨st, con, cls, req⟩ := parked a b
    exact ⟨st, con, cls, fun x h => req x (requests x h)⟩
  · exact ⟨(waiting a).1, fun h => more _ ((waiting a).2 h)⟩
  · exact ⟨(given_up a).1, fun h => more _ ((given_up a).2 h)⟩

theorem classNow_eq : classNow s k =
    if s.setup.criticalDiff.get k ≤ ((s.screen k).differential : Int) then .criticalRake else .rake := rfl

/-- An evaluation and the blinded flag after it. -/
theorem evaluated : Evaluated k (s.screen k).differential (s.screen k).differentialGood s
    (reblind (evaluateScreen s k) k) := by
  rw [reblind_eq]
  cases st : (s.screen k).state with
  | parked =>
    by_cases starts : (s.screen k).differentialGood = true ∧ s.setup.rakeStartDiff.get k ≤ ((s.screen k).differential : Int)
    · by_cases free : (s.screen k).localHold = false ∧ homeUnknown s k = false
      · have ev : evaluateScreen s k = rakeTrigger s k := by simp [evaluateScreen, st, starts]
        rw [ev, rakeTrigger_eq_of_free free.1 free.2]
        constructor <;> simp_all [blindedNow, classNow_eq]
      · have ev : evaluateScreen s k = s := by
          simp only [evaluateScreen, st, starts, decide_true, Bool.and_true, if_true]
          exact rakeTrigger_eq_of_held (by rw [Bool.or_eq_true]; by_contra h; simp_all)
        rw [ev]
        constructor <;> simp_all [blindedNow]
    · have ev : evaluateScreen s k = s := by
        simp only [evaluateScreen, st]
        exact if_neg (by simpa using starts)
      rw [ev]
      constructor <;> simp_all [blindedNow]
  | queued | shed =>
    have ev : evaluateScreen s k = retestClass s k := by simp [evaluateScreen, st]
    rw [ev, retestClass_eq, classNow_eq]
    constructor <;> simp_all [blindedNow]
  | cycling | jamReverse | jamPause | jammed | outOfService =>
    have ev : evaluateScreen s k = s := by simp [evaluateScreen, st]
    rw [ev]
    constructor <;> simp_all [blindedNow]

/-- An evaluation of a screen touches that screen's record alone, and asks for no other rake. -/
theorem evaluateScreen_onRake : ∃ r es, evaluateScreen s k = s.onRake k r s.lp es
    ∧ ∀ j c, .startRequest (.rake j) c ∈ es → j = k := by
  have stays : ∃ r es, s = s.onRake k r s.lp es ∧ ∀ j c, .startRequest (.rake j) c ∈ es → j = k :=
    ⟨_, _, onRake_self.symm, by simp⟩
  unfold evaluateScreen
  dsimp only
  split
  · split
    · cases held : (s.screen k).localHold || homeUnknown s k with
      | true => rw [rakeTrigger_eq_of_held held]; exact stays
      | false =>
        obtain ⟨free, known⟩ := Bool.or_eq_false_iff.mp held
        exact ⟨_, _, rakeTrigger_eq_of_free free known, by simp⟩
    · exact stays
  · exact ⟨_, _, retestClass_eq, by intro j c h; split at h <;> simp_all⟩
  · exact ⟨_, _, retestClass_eq, by intro j c h; split at h <;> simp_all⟩
  · exact stays

/-- The differential and whether it is GOOD after a recomputation, from the differential before (R102). -/
def differentialAfter (before : Nat) (up : ChannelUpdate) (level : Option Int) (quality : LevelQuality) : Nat × Bool :=
  match up.value, level with
  | some u, some l => if up.quality = .good ∧ quality = .good then ((u - l).toNat, true) else (before, false)
  | _, _ => (before, false)

theorem recomputeDifferential_eq {up : ChannelUpdate} {level : Option Int} {quality : LevelQuality} :
    recomputeDifferential s k up level quality = s.onRake k
      { s.screen k with
        differential := (differentialAfter (s.screen k).differential up level quality).1
        differentialGood := (differentialAfter (s.screen k).differential up level quality).2 } s.lp [] := by
  unfold recomputeDifferential differentialAfter
  cases up.value <;> cases level <;> dsimp only
  case some.some => split <;> exact setScreen_onRake _
  all_goals exact setScreen_onRake _

theorem differentialAfter_of_good {before : Nat} {up : ChannelUpdate} {level : Option Int} {quality : LevelQuality} {u l : Int}
    (value : up.value = some u) (good : up.quality = .good) (at_ : level = some l) (usable : quality = .good) :
    differentialAfter before up level quality = ((u - l).toNat, true) := by
  simp [differentialAfter, value, good, at_, usable]

theorem differentialAfter_of_bad {before : Nat} {up : ChannelUpdate} {level : Option Int} {quality : LevelQuality}
    (bad : up.quality ≠ .good ∨ up.value = none ∨ quality ≠ .good ∨ level = none) :
    differentialAfter before up level quality = (before, false) := by
  unfold differentialAfter
  split
  · next u l value at_ => exact if_neg (by simp_all; tauto)
  · rfl

/-- A delivery taken by another screen. -/
theorem screenDelivery_elsewhere {d : WellDelivery} {j : Screen} (other : k ≠ j) :
    SameRake k s (screenDelivery d s j) ∧ (screenDelivery d s j).screen k = s.screen k
      ∧ ∀ x ∈ s.raised, x ∈ (screenDelivery d s j).raised := by
  obtain ⟨r, es, ev, own⟩ := evaluateScreen_onRake
    (s := recomputeDifferential s j (channelView s (upstreamOf j)) d.level d.quality) (k := j)
  have left : screenDelivery d s j = reblind ((recomputeDifferential s j (channelView s (upstreamOf j)) d.level
      d.quality).onRake j r s.lp es) j := by
    refine (congrArg (reblind · j) ev).trans ?_
    rw [recomputeDifferential_eq]; rfl
  rw [left, reblind_eq, recomputeDifferential_eq]
  refine ⟨⟨by simp [other], by simp, fun x => ?_⟩, by simp [other], by simp +contextual⟩
  have foreign : .startRequest (.rake k) x ∉ es := fun h => other (own k x h)
  simp only [onRake_raised, List.mem_append, foreign, List.not_mem_nil, or_false]
  split <;> simp

theorem evaluated_recompute {up : ChannelUpdate} {level : Option Int} {quality : LevelQuality} :
    Evaluated k (differentialAfter (s.screen k).differential up level quality).1
      (differentialAfter (s.screen k).differential up level quality).2 s
      (reblind (evaluateScreen (recomputeDifferential s k up level quality) k) k) := by
  have e := evaluated (s := recomputeDifferential s k up level quality) (k := k)
  rw [recomputeDifferential_eq] at e ⊢
  simp only [onRake_screen, if_true] at e
  exact e.of_same ⟨by simp, by simp, by simp⟩

theorem channelView_of_sc (q : Quantity) (h : scMask t = scMask s) : channelView t q = channelView s q := by
  have channels : t.channels = s.channels := (congrArg State.channels h :)
  simp [channelView, State.chan, channels]

/-- A delivery of a well is an evaluation of each of its screens. -/
theorem delivery_evaluated {x : WellDelivery} (live : s.live = true) :
    ∃ t, exec (.wellRecordDeliverySc (screenWell k) x) s = .next t
      ∧ Evaluated k
        (differentialAfter (s.screen k).differential (channelView s (upstreamOf k)) x.level x.quality).1
        (differentialAfter (s.screen k).differential (channelView s (upstreamOf k)) x.level x.quality).2 s t := by
  refine ⟨_, whenLive_next live rfl, ?_⟩
  cases k with
  | s1 =>
    have first := evaluated_recompute (s := s) (k := .s1) (up := channelView s (upstreamOf .s1)) (level := x.level)
      (quality := x.quality)
    obtain ⟨⟨_, _, requests⟩, record, more⟩ := screenDelivery_elsewhere (s := screenDelivery x s .s1) (k := .s1) (j := .s2)
      (d := x) (by decide)
    exact first.then record more fun c => (requests c).mp
  | s2 =>
    obtain ⟨same, record, _⟩ := screenDelivery_elsewhere (s := s) (k := .s2) (j := .s1) (d := x) (by decide)
    rw [← record, ← channelView_of_sc _ same.plant]
    exact (evaluated_recompute (s := screenDelivery x s .s1)).of_same same
  | s3 => exact evaluated_recompute

theorem update_evaluated {x : ChannelUpdate} (live : s.live = true) :
    ∃ t, exec (.upstreamLevelUpdate k x) s = .next t
      ∧ Evaluated k
        (differentialAfter (s.screen k).differential x (s.well (screenWell k)).level (s.well (screenWell k)).quality).1
        (differentialAfter (s.screen k).differential x (s.well (screenWell k)).level (s.well (screenWell k)).quality).2 s t :=
  ⟨_, whenSc_next live, evaluated_recompute⟩

theorem notice_evaluated {x : ChannelUpdate} (live : s.live = true) (good : x.quality = .good) :
    ∃ t, exec (.homeQualityNotice k x) s = .next t
      ∧ Evaluated k (s.screen k).differential (s.screen k).differentialGood s t := by
  refine ⟨_, whenSc_next live, ?_⟩
  rw [if_pos good]
  exact evaluated

end Rake

/-- Settles O41: every message that evaluates a screen comes to the differential it leaves, and `Evaluated` says the rest. -/
theorem differentialQueuesRakes : Obligations.DifferentialQueuesRakes := by
  intro k s live
  refine ⟨fun c u level d cls message class_ => ?_, fun c cls message class_ => ?_, fun x bad => ?_⟩
  · have reached : ∃ t, exec c s = .next t ∧ Evaluated k d true s t := by
      obtain ⟨⟨x, rfl, value, good, at_, usable⟩, rfl⟩ | ⟨⟨x, rfl, at_, usable⟩, value, good, rfl⟩ |
        ⟨⟨x, rfl, good⟩, standing, rfl⟩ := message
      · simpa only [differentialAfter_of_good value good at_ usable] using update_evaluated (k := k) (x := x) live
      · simpa only [differentialAfter_of_good (up := channelView s (upstreamOf k)) value good at_ usable] using
          delivery_evaluated (k := k) (x := x) live
      · simpa only [standing] using notice_evaluated (k := k) live good
    obtain ⟨t, next, differential, started, parked, waiting, state, given_up⟩ := reached
    subst class_
    refine ⟨t, next, differential.1, differential.2, fun st free quality mapped => ?_, fun st held => ?_, fun st => ?_,
      fun st => ⟨state (by rcases st with st | st <;> simp [st]), given_up st⟩⟩
    · have known := homeUnknown_eq_false.mpr ⟨quality, mapped⟩
      split
      · next reached => exact started st rfl reached free known
      · next below => exact (parked st fun h => below h.2.1).1
    · refine parked st fun ⟨_, _, free, known⟩ => ?_
      obtain ⟨quality, mapped⟩ := homeUnknown_eq_false.mp known
      simp_all
    · exact ⟨state (by rcases st with st | st <;> simp [st]), waiting st⟩
  · have reached : ∃ t, exec c s = .next t ∧ Evaluated k (s.screen k).differential false s t := by
      obtain ⟨x, rfl, bad⟩ | ⟨x, rfl, bad⟩ := message
      · simpa only [differentialAfter_of_bad bad] using update_evaluated (k := k) (x := x) live
      · simpa only [differentialAfter_of_bad (up := channelView s (upstreamOf k)) (level := x.level) (quality := x.quality)
          (by simp only [channelView]; tauto)] using delivery_evaluated (k := k) (x := x) live
    obtain ⟨t, next, differential, started, parked, waiting, state, given_up⟩ := reached
    subst class_
    have standing : (s.screen k).state = .parked → (t.screen k).state = .parked
        ∧ (t.screen k).consecutive = (s.screen k).consecutive ∧ (t.screen k).requestClass = (s.screen k).requestClass
        ∧ ∀ x, .startRequest (.rake k) x ∈ t.raised → .startRequest (.rake k) x ∈ s.raised := fun st => parked st (by simp)
    refine ⟨t, next, differential.1, differential.2, ?_, fun st => (standing st).2.2, waiting, given_up⟩
    by_cases st : (s.screen k).state = .parked
    · rw [st]; exact (standing st).1
    · exact state st
  · refine ⟨_, whenSc_next live, ?_⟩
    rw [if_neg bad, reblind_eq]
    simp +contextual

end Sys2Proof.Machine
end


section
/-! PROOF. Rake cycles: grants, edges, the statistics of a cycle, jams, reports and timers. -/

namespace Sys2Proof.Machine

section Cycle

variable {s t : State} {k : Screen}

/-! ## Starting and confirming a cycle (R107, R108) -/

/-- A rake runs on without a command. -/
theorem cycleStart_continued : cycleStart s k true = s.onRake k (cycleRecord s k) s.lp [] := setScreen_onRake _

theorem cycleStart_fresh : cycleStart s k false = buildRake (s.onRake k (cycleRecord s k) s.lp []) k true := by
  rw [← setScreen_onRake]; rfl

theorem cycleRecord_onRake (r : ScreenRecord) (lp : Loop) (es : List Instr) :
    cycleRecord (s.onRake k r lp es) k = { r with
      state := .cycling
      phase := some (if (s.chan (homeOf k)).value = some 1 then .leaving else .returning)
      cycleStart := some s.now
      captureStart := none
      leaveAt := if (s.chan (homeOf k)).value = some 1 then some (s.now + (s.setup.leaveTime.get k).toNat * 1000) else none
      cycleAt := if (s.chan (homeOf k)).value = some 1 then none else some (s.now + (s.setup.maxCycle.get k).toNat * 1000)
      jamAt := none } := by
  simp [cycleRecord]

theorem requesting_iff {st : RakeState} : requesting st = true ↔ st = .queued ∨ st = .shed := by
  simp [requesting]

theorem granted_iff {st : RakeState} : granted st = true ↔ st = .cycling ∨ st = .jamReverse ∨ st = .jamPause := by
  simp [granted, or_assoc]

@[simp] theorem onRake_rakeDriveOf (j : Screen) (r : ScreenRecord) (lp : Loop) (es : List Instr) :
    rakeDriveOf (s.onRake k r lp es) j = rakeDriveOf s j := rfl

theorem rakeCommand_onRake (r : ScreenRecord) (lp : Loop) (es : List Instr) : rakeCommand (s.onRake k r lp es) k =
    ⟨rakeDriveOf s k, lp.ownAddress, lp.ownSequence, .driveCmd (rakeAction r.state) 100 r.count⟩ := by
  simp [rakeCommand]

/-! ## A completed cycle (R110 to R112) -/

/-- What a captured cycle of `x` ms, `r` the record before it, leaves in the statistics of `after`, with the events it
raises. -/
structure Judged (k : Screen) (r : ScreenRecord) (x : Nat) (after : ScreenRecord) (es : List Instr) : Prop where
  last : after.lastCycle = some x
  least : after.minCycle = some (min x (r.minCycle.getD x))
  greatest : after.maxCycle = some (max x (r.maxCycle.getD x))
  collected : if r.baselineCount < 8 then
      after.baselineSum = r.baselineSum + x ∧ after.baselineCount = r.baselineCount + 1
        ∧ after.baseline = if r.baselineCount = 7 then some ((r.baselineSum + x) / 8) else r.baseline
    else after.baselineSum = r.baselineSum ∧ after.baselineCount = r.baselineCount ∧ after.baseline = r.baseline
  unjudged : r.baseline = none → after.slowRun = r.slowRun ∧ after.wearReported = r.wearReported
  judged : ∀ b, r.baseline = some b →
    if 5 * b < 4 * x then after.slowRun = satInc 3 r.slowRun
        ∧ (after.wearReported = true ↔ r.wearReported = true ∨ satInc 3 r.slowRun = 3)
        ∧ (satInc 3 r.slowRun = 3 → r.wearReported = false → .recordSubmission (.wear k b x) ∈ es)
    else after.slowRun = 0 ∧ after.wearReported = false

/-- A record but for its statistics. -/
def withStatistics (r after : ScreenRecord) : ScreenRecord :=
  { r with
    lastCycle := after.lastCycle, minCycle := after.minCycle, maxCycle := after.maxCycle
    baseline := after.baseline, baselineSum := after.baselineSum, baselineCount := after.baselineCount
    slowRun := after.slowRun, wearReported := after.wearReported }

/-- The statistics of a record. -/
def statistics (r : ScreenRecord) :=
  (r.lastCycle, r.minCycle, r.maxCycle, r.baseline, r.baselineSum, r.baselineCount, r.slowRun, r.wearReported)

theorem judgeCycle_statistics (before : Option Nat) (r : ScreenRecord) (x : Nat) :
    (judgeCycle before r x).1 = { r with
      slowRun := (judgeCycle before r x).1.slowRun, wearReported := (judgeCycle before r x).1.wearReported } := by
  unfold judgeCycle
  repeat' split
  all_goals rfl

theorem recordCycle_least (r : ScreenRecord) (x : Nat) :
    (recordCycle r x).minCycle = some (min x (r.minCycle.getD x)) := by
  cases h : r.minCycle <;> simp [recordCycle, h, Nat.min_comm]

theorem recordCycle_greatest (r : ScreenRecord) (x : Nat) :
    (recordCycle r x).maxCycle = some (max x (r.maxCycle.getD x)) := by
  cases h : r.maxCycle <;> simp [recordCycle, h, Nat.max_comm]

theorem recordCycle_collected (r : ScreenRecord) (x : Nat) :
    if r.baselineCount < 8 then
      (recordCycle r x).baselineSum = r.baselineSum + x ∧ (recordCycle r x).baselineCount = r.baselineCount + 1
        ∧ (recordCycle r x).baseline = if r.baselineCount = 7 then some ((r.baselineSum + x) / 8) else r.baseline
    else (recordCycle r x).baselineSum = r.baselineSum ∧ (recordCycle r x).baselineCount = r.baselineCount
      ∧ (recordCycle r x).baseline = r.baseline := by
  split <;> simp_all [recordCycle]

theorem judged_recordCycle (r : ScreenRecord) (x : Nat) :
    (judgeCycle r.baseline (recordCycle r x) x).1 = withStatistics r (judgeCycle r.baseline (recordCycle r x) x).1
    ∧ Judged k r x (judgeCycle r.baseline (recordCycle r x) x).1 (if (judgeCycle r.baseline (recordCycle r x) x).2 then
        [.recordSubmission (.wear k (r.baseline.getD 0) x)] else []) := by
  have kept := judgeCycle_statistics r.baseline (recordCycle r x) x
  refine ⟨by rw [kept]; rfl, ?_⟩
  constructor
  case last => rw [kept]; rfl
  case least => rw [kept]; exact recordCycle_least r x
  case greatest => rw [kept]; exact recordCycle_greatest r x
  case collected => rw [kept]; exact recordCycle_collected r x
  case unjudged => intro base; rw [base]; exact ⟨rfl, rfl⟩
  case judged =>
    intro b base
    rw [base]
    split
    · next slow =>
      rw [judgeCycle, if_pos slow]
      refine ⟨rfl, by cases h : r.wearReported <;> simp [recordCycle, h], fun three fresh => ?_⟩
      simp [recordCycle, three, fresh]
    · next swift => rw [judgeCycle, if_neg swift]; exact ⟨rfl, rfl⟩

/-- The last part of a completed cycle: the capture, its statistics, and the events it raises. -/
theorem captureCycle_eq (at_ : Ms) : ∃ after es, captureCycle s k at_ = s.onRake k (withStatistics (s.screen k) after) s.lp es
    ∧ (∀ c, (s.screen k).captureStart = some c → Judged k (s.screen k) (at_ - c) after es)
    ∧ ((s.screen k).captureStart = none → statistics after = statistics (s.screen k)) := by
  cases cap : (s.screen k).captureStart with
  | none =>
    refine ⟨s.screen k, [], ?_, by simp, fun _ => rfl⟩
    simp only [captureCycle, cap]
    exact onRake_self.symm
  | some c =>
    obtain ⟨kept, judged⟩ := judged_recordCycle (k := k) (s.screen k) (at_ - c)
    refine ⟨_, if (judgeCycle (s.screen k).baseline (recordCycle (s.screen k) (at_ - c)) (at_ - c)).2 then
      [.recordSubmission (.wear k ((s.screen k).baseline.getD 0) (at_ - c))] else [],
      (?_ : _ = s.onRake k (withStatistics _ (judgeCycle (s.screen k).baseline (recordCycle (s.screen k) (at_ - c))
        (at_ - c)).1) s.lp _), fun c' same => ?_, fun absent => nomatch absent⟩
    · rw [← kept]
      simp only [captureCycle, cap]
      cases (judgeCycle (s.screen k).baseline (recordCycle (s.screen k) (at_ - c)) (at_ - c)).2
      · exact setScreen_onRake _
      · rfl
    · cases same
      exact judged

/-- The record of a completed cycle before the rake runs on or parks. -/
def completedRecord (s : State) (k : Screen) (after : ScreenRecord) : ScreenRecord :=
  withStatistics { s.screen k with
    cycleAt := none
    consecutive := satInc 8 (s.screen k).consecutive
    cyclesThisHour := satInc 65535 (s.screen k).cyclesThisHour
    intervalAt := some (s.now + intervalMs s.setup s.ssu.state) } after

theorem runsOn_onRake (r : ScreenRecord) (lp : Loop) (es : List Instr) : runsOn (s.onRake k r lp es) k = true ↔
    r.differentialGood = true ∧ s.setup.stopDiff.get k ≤ (r.differential : Int) ∧ r.consecutive < 8 := by
  simp [runsOn, and_assoc]

/-- A parked rake: STOP is offered, the charge is released and the counts of its cycles begin anew. -/
theorem parkRake_eq : ∃ count refresh retry lp es, parkRake s k = s.onRake k
      { s.screen k with
        state := .parked, phase := none, charge := .none, consecutive := 0, jams := 0
        count := count, refreshAt := refresh, retryAt := retry } lp es
    ∧ ((s.screen k).charge ≠ .none → .chargeRelease (.rake k) ∈ es) := by
  obtain ⟨count, refresh, retry, lp, es, built, _⟩ := buildRake_eq (s := rakeEnter s k .parked) (k := k) true
  unfold parkRake
  rw [built, rakeRelease_eq, rakeEnter_eq]
  simp only [setScreen_onRake, onRake_onRake, onRake_screen, if_true, onRake_lp]
  exact ⟨_, _, _, _, _, rfl, by simp +contextual⟩

theorem completeCycle_eq (at_ : Ms) : ∃ after es,
    completeCycle s k at_ = (if runsOn (s.onRake k (completedRecord s k after) s.lp es) k then
        cycleStart (s.onRake k (completedRecord s k after) s.lp es) k true
      else parkRake (s.onRake k (completedRecord s k after) s.lp es) k)
    ∧ (∀ c, (s.screen k).captureStart = some c → Judged k (s.screen k) (at_ - c) after es)
    ∧ ((s.screen k).captureStart = none → statistics after = statistics (s.screen k)) := by
  obtain ⟨after, es, captured, judged, standing⟩ := captureCycle_eq (k := k) at_ (s := s.onRake k
    { s.screen k with
      cycleAt := none
      consecutive := satInc 8 (s.screen k).consecutive
      cyclesThisHour := satInc 65535 (s.screen k).cyclesThisHour
      intervalAt := some (s.now + intervalMs s.setup s.ssu.state) } s.lp [])
  simp only [onRake_screen, if_true, onRake_onRake, onRake_lp, List.nil_append] at captured judged standing
  refine ⟨after, es, ?_, fun c start => ?_, fun start => ?_⟩
  · unfold completeCycle completedRecord
    simp only [restartInterval_eq, setScreen_onRake, onRake_onRake, onRake_screen, if_true, onRake_lp, onRake_now,
      onRake_setup, onRake_ssu, List.append_nil] at captured ⊢
    rw [captured]
  · obtain ⟨last, least, greatest, collected, unjudged, judged⟩ := judged c start
    exact ⟨last, least, greatest, collected, unjudged, judged⟩
  · exact standing start

/-- What is judged lies in the statistics and the events alone. -/
theorem Judged.of_statistics {r after r' : ScreenRecord} {x : Nat} {es es' : List Instr} (h : Judged k r x after es)
    (same : statistics r' = statistics after) (more : ∀ e ∈ es, e ∈ es') : Judged k r x r' es' := by
  simp only [statistics, Prod.mk.injEq] at same
  obtain ⟨last, least, greatest, baseline, sum, count, slow, worn⟩ := same
  obtain ⟨last', least', greatest', collected, unjudged, judged⟩ := h
  rw [← last] at last'
  rw [← least] at least'
  rw [← greatest] at greatest'
  rw [← baseline, ← sum, ← count] at collected
  rw [← slow, ← worn] at unjudged judged
  refine ⟨last', least', greatest', collected, unjudged, fun b base => ?_⟩
  have verdict := judged b base
  split
  · next late => rw [if_pos late] at verdict; exact ⟨verdict.1, verdict.2.1, fun a b => more _ (verdict.2.2 a b)⟩
  · next swift => rwa [if_neg swift] at verdict

/-! ## The commands of a cycle -/

theorem exec_rakeGrant_of_waiting (live : s.live = true) (waiting : (s.screen k).state = .queued ∨ (s.screen k).state = .shed) :
    exec (.rakeGrant k) s = .next (reblind (buildRake
      (s.onRake k (cycleRecord (s.onRake k { s.screen k with charge := .start, requestClass := none } s.lp []) k) s.lp [])
      k true) k) := by
  refine (whenSc_next live).trans ?_
  rw [if_pos (requesting_iff.mpr waiting), cycleStart_fresh, setScreen_onRake, onRake_onRake]
  rfl

end Cycle

/-- Settles O42: a grant, an edge off home and an edge on home, each from the record it leaves. -/
theorem rakeCycles : Obligations.RakeCycles := by
  intro k at_ s live
  refine ⟨fun waiting => ?_, fun queued shed => ?_, fun cycling leaving => ?_, fun cycling returning => ?_⟩
  · refine ⟨_, exec_rakeGrant_of_waiting live waiting, ?_⟩
    obtain ⟨count, refresh, retry, lp, es, built, placed, _⟩ := buildRake_eq (k := k) true (s := s.onRake k
      (cycleRecord (s.onRake k { s.screen k with charge := .start, requestClass := none } s.lp []) k) s.lp [])
    rw [built, reblind_eq]
    rw [cycleRecord_onRake] at placed ⊢
    simp only [onRake_screen, if_true, onRake_lp, rakeCommand_onRake] at placed ⊢
    refine ⟨trivial, trivial, trivial, trivial, ?_, fun free room => (placed free room).1⟩
    split <;> simp
  · refine ⟨_, whenSc_next live, ?_⟩
    rw [if_neg (by simp [requesting_iff, queued, shed]), raise_onRake (k := k), reblind_eq]
    simp
  · refine ⟨_, whenSc_next live, ?_⟩
    simp only [confirmRake_eq, setScreen_onRake, onRake_screen, if_true, cycling, leaving, reblind_eq, onRake_onRake,
      granted_iff, true_or, true_and, onRake_setup]
    simp +contextual
  · obtain ⟨after, es, completed, judged, standing⟩ := completeCycle_eq (s := s) (k := k) at_
    refine ⟨_, whenSc_next live, ?_⟩
    simp only [cycling, returning, if_true]
    rw [completed]
    have captured (r : ScreenRecord) (more : List Instr) (same : statistics r = statistics after)
        (sub : ∀ e ∈ es, e ∈ more) : ∀ c x n, (s.screen k).captureStart = some c → x = at_ - c →
          n = satInc 3 (s.screen k).slowRun → Judged k (s.screen k) x r more := by
      rintro c x n start rfl rfl
      exact (judged c start).of_statistics same sub
    have uncaptured (r : ScreenRecord) (same : statistics r = statistics after) (start : (s.screen k).captureStart = none) :
        r.lastCycle = (s.screen k).lastCycle ∧ r.minCycle = (s.screen k).minCycle ∧ r.maxCycle = (s.screen k).maxCycle
          ∧ r.baselineSum = (s.screen k).baselineSum ∧ r.baselineCount = (s.screen k).baselineCount
          ∧ r.baseline = (s.screen k).baseline ∧ r.slowRun = (s.screen k).slowRun
          ∧ r.wearReported = (s.screen k).wearReported := by
      have both := same.trans (standing start)
      simp only [statistics, Prod.mk.injEq] at both
      tauto
    have ran := runsOn_onRake (s := s) (k := k) (completedRecord s k after) s.lp es
    have ends : (completedRecord s k after).differentialGood = (s.screen k).differentialGood
        ∧ (completedRecord s k after).differential = (s.screen k).differential
        ∧ (completedRecord s k after).consecutive = satInc 8 (s.screen k).consecutive := ⟨rfl, rfl, rfl⟩
    rw [ends.1, ends.2.1, ends.2.2] at ran
    by_cases on : runsOn (s.onRake k (completedRecord s k after) s.lp es) k = true
    · rw [if_pos on, if_pos (ran.mp on), cycleStart_continued, cycleRecord_onRake, reblind_eq]
      simp only [onRake_screen, if_true, onRake_lp, onRake_onRake, onRake_raised]
      refine ⟨rfl, rfl, fun c x n start lasted run => ?_, uncaptured _ rfl, trivial, rfl, rfl, trivial⟩
      subst run
      refine (fun j : Judged k (s.screen k) x _ _ => ⟨j.last, j.least, j.greatest, j.collected, j.unjudged, j.judged⟩)
        (captured _ _ rfl (fun e h => ?_) c x _ start lasted rfl)
      simp [h]
    · rw [if_neg on, if_neg (mt ran.mpr on)]
      obtain ⟨count, refresh, retry, lp, es', parked, released⟩ := parkRake_eq (k := k)
        (s := s.onRake k (completedRecord s k after) s.lp es)
      rw [parked, reblind_eq]
      simp only [onRake_screen, if_true, onRake_lp, onRake_onRake, onRake_raised] at released ⊢
      refine ⟨rfl, rfl, fun c x n start lasted run => ?_, uncaptured _ rfl, trivial, trivial, trivial, trivial,
        fun charged => ?_⟩
      · subst run
        refine (fun j : Judged k (s.screen k) x _ _ => ⟨j.last, j.least, j.greatest, j.collected, j.unjudged, j.judged⟩)
          (captured _ _ rfl (fun e h => ?_) c x _ start lasted rfl)
        simp [h]
      · simp [released charged]


end Sys2Proof.Machine
end


section
/-! PROOF. Rake jams: reverse, pause and giving up. -/

namespace Sys2Proof.Machine

section Jam

variable {s t : State} {k : Screen}

/-! ## Giving up, reversing and pausing (R114, R115) -/

theorem giveUp_eq (cause : JamCause) : ∃ count refresh retry lp es, giveUp s k cause = s.onRake k
      { s.screen k with
        state := .jammed, phase := none, charge := .none, count := count, refreshAt := refresh, retryAt := retry } lp es
    ∧ .recordSubmission (.screenJam k (s.screen k).jams cause) ∈ es
    ∧ ((s.screen k).charge ≠ .none → .chargeRelease (.rake k) ∈ es)
    ∧ ((s.screen k).localHold = false → s.lp.control.length < 8 → lp.control = s.lp.control ++
        [⟨rakeDriveOf s k, s.lp.ownAddress, s.lp.ownSequence, .driveCmd .stop 100 (s.screen k).count⟩]) := by
  obtain ⟨count, refresh, retry, lp, es, built, placed, _⟩ := buildRake_eq (s := rakeEnter s k .jammed) (k := k) true
  rw [rakeEnter_eq] at placed
  simp only [onRake_screen, if_true, onRake_lp, rakeCommand_onRake, rakeAction_eq, reduceCtorEq, if_false] at placed
  unfold giveUp State.submit
  rw [built, rakeRelease_eq, rakeEnter_eq, raise_onRake (k := k)]
  simp only [onRake_onRake, onRake_screen, if_true, onRake_lp, reduceCtorEq, if_false]
  exact ⟨_, _, _, _, _, rfl, by simp, by simp +contextual, fun free room => (placed free room).1⟩

theorem endReverse_eq : ∃ count refresh retry lp es, endReverse s k = s.onRake k
      { s.screen k with
        state := .jamPause, phase := none, jamAt := some (s.now + (s.setup.pauseTime.get k).toNat * 1000)
        count := count, refreshAt := refresh, retryAt := retry } lp es
    ∧ ((s.screen k).localHold = false → s.lp.control.length < 8 → lp.control = s.lp.control ++
        [⟨rakeDriveOf s k, s.lp.ownAddress, s.lp.ownSequence, .driveCmd .stop 100 (s.screen k).count⟩]) := by
  obtain ⟨count, refresh, retry, lp, es, built, placed, _⟩ := buildRake_eq (k := k) true
    (s := s.onRake k { s.screen k with
      state := .jamPause, phase := none, jamAt := some (s.now + (s.setup.pauseTime.get k).toNat * 1000) } s.lp [])
  simp only [onRake_screen, if_true, onRake_lp, rakeCommand_onRake, rakeAction_eq, reduceCtorEq, if_false] at placed
  unfold endReverse
  simp only [rakeEnter_eq, setScreen_onRake, onRake_onRake, onRake_screen, if_true, onRake_lp, onRake_now, onRake_setup,
    reduceCtorEq, if_false, List.append_nil, built]
  exact ⟨_, _, _, _, _, rfl, fun free room => (placed free room).1⟩

/-- The record of a jam that is reversed. -/
def reversedRecord (s : State) (k : Screen) (cause : JamCause) : ScreenRecord :=
  { s.screen k with
    leaveAt := none, cycleAt := none, captureStart := none
    jamAt := some (s.now + (s.setup.reverseTime.get k).toNat * 1000)
    lastJam := cause, jams := satInc 8 (s.screen k).jams, state := .jamReverse, phase := none }

/-- The record of a jam at the limit. -/
def jammedRecord (s : State) (k : Screen) (cause : JamCause) : ScreenRecord :=
  { s.screen k with
    leaveAt := none, cycleAt := none, captureStart := none, jamAt := none
    lastJam := cause, jams := satInc 8 (s.screen k).jams, state := .jammed, phase := none, charge := .none }

theorem declareJam_eq_of_below (cause : JamCause) (below : satInc 8 (s.screen k).jams < (s.setup.jamLimit.get k).toNat) :
    ∃ count refresh retry lp es, declareJam s k cause = s.onRake k
      { reversedRecord s k cause with count := count, refreshAt := refresh, retryAt := retry } lp es
    ∧ ((s.screen k).localHold = false → s.lp.control.length < 8 → lp.control = s.lp.control ++
        [⟨rakeDriveOf s k, s.lp.ownAddress, s.lp.ownSequence, .driveCmd .reverse 100 (s.screen k).count⟩]) := by
  obtain ⟨count, refresh, retry, lp, es, built, placed, _⟩ := buildRake_eq (k := k) true
    (s := s.onRake k (reversedRecord s k cause) s.lp [])
  simp only [onRake_screen, if_true, onRake_lp, rakeCommand_onRake] at placed
  unfold declareJam
  simp only [clearCycle_eq, rakeEnter_eq, setScreen_onRake, onRake_onRake, onRake_screen, if_true, onRake_lp, onRake_now,
    onRake_setup, below, reduceCtorEq, if_false, List.append_nil]
  refine ⟨count, refresh, retry, lp, es, ?_, fun free room => (placed free room).1⟩
  simp only [onRake_onRake, onRake_screen, if_true, List.nil_append] at built
  exact built

theorem declareJam_eq_at_limit (cause : JamCause)
    (reached : ¬satInc 8 (s.screen k).jams < (s.setup.jamLimit.get k).toNat) :
    ∃ count refresh retry lp es, declareJam s k cause = s.onRake k
      { jammedRecord s k cause with count := count, refreshAt := refresh, retryAt := retry } lp es
    ∧ .recordSubmission (.screenJam k (satInc 8 (s.screen k).jams) cause) ∈ es
    ∧ ((s.screen k).charge ≠ .none → .chargeRelease (.rake k) ∈ es)
    ∧ ((s.screen k).localHold = false → s.lp.control.length < 8 → lp.control = s.lp.control ++
        [⟨rakeDriveOf s k, s.lp.ownAddress, s.lp.ownSequence, .driveCmd .stop 100 (s.screen k).count⟩]) := by
  unfold declareJam
  simp only [clearCycle_eq, setScreen_onRake, onRake_onRake, onRake_screen, if_true, onRake_lp, onRake_setup, reached,
    if_false, List.append_nil]
  obtain ⟨count, refresh, retry, lp, es, given, rest⟩ := giveUp_eq cause (k := k) (s := s.onRake k
    { s.screen k with
      leaveAt := none, cycleAt := none, jamAt := none, captureStart := none
      lastJam := cause, jams := satInc 8 (s.screen k).jams } s.lp [])
  rw [given]
  simp only [onRake_onRake, onRake_screen, if_true, onRake_lp, List.nil_append] at rest ⊢
  exact ⟨count, refresh, retry, lp, es, rfl, rest⟩

/-! ## The commands that find a jam -/

/-- What a jam leaves, `blinded` flag and all (R114). -/
structure Jammed (k : Screen) (cause : JamCause) (s t : State) : Prop where
  jams : (t.screen k).jams = satInc 8 (s.screen k).jams
  lastJam : (t.screen k).lastJam = cause
  phase : (t.screen k).phase = none
  cleared : (t.screen k).leaveAt = none ∧ (t.screen k).cycleAt = none ∧ (t.screen k).captureStart = none
  consecutive : (t.screen k).consecutive = (s.screen k).consecutive
  command : (s.screen k).localHold = false → s.lp.control.length < 8 → t.lp.control = s.lp.control ++
    [⟨rakeDriveOf s k, s.lp.ownAddress, s.lp.ownSequence, .driveCmd
      (if satInc 8 (s.screen k).jams < (s.setup.jamLimit.get k).toNat then .reverse else .stop) 100 (s.screen k).count⟩]
  outcome : if satInc 8 (s.screen k).jams < (s.setup.jamLimit.get k).toNat then
      (t.screen k).state = .jamReverse ∧ (t.screen k).charge = (s.screen k).charge
        ∧ (t.screen k).jamAt = some (s.now + (s.setup.reverseTime.get k).toNat * 1000)
    else (t.screen k).state = .jammed ∧ (t.screen k).charge = .none ∧ (t.screen k).jamAt = none
      ∧ .recordSubmission (.screenJam k (satInc 8 (s.screen k).jams) cause) ∈ t.raised
      ∧ ((s.screen k).charge ≠ .none → .chargeRelease (.rake k) ∈ t.raised)

theorem declareJam_jammed (cause : JamCause) : Jammed k cause s (reblind (declareJam s k cause) k) := by
  rw [reblind_eq]
  by_cases below : satInc 8 (s.screen k).jams < (s.setup.jamLimit.get k).toNat
  · obtain ⟨count, refresh, retry, lp, es, jam, placed⟩ := declareJam_eq_of_below cause below
    rw [jam]
    constructor <;> simp_all [reversedRecord]
  · obtain ⟨count, refresh, retry, lp, es, jam, submitted, released, placed⟩ := declareJam_eq_at_limit cause below
    rw [jam]
    constructor <;> simp_all [jammedRecord]

/-- A record with the drive's report taken. -/
def reportedRecord (r : ScreenRecord) (d : DriveStatus) : ScreenRecord := { r with drive := d }

/-- A record with the drive's report taken and the local hold lifted. -/
def liftedRecord (r : ScreenRecord) (d : DriveStatus) (refresh : Option Ms) : ScreenRecord :=
  { r with drive := d, localHold := false, refreshAt := refresh }

/-- A jam found by a state in which the drive's report, the local hold and the refresh timer alone are other. -/
theorem Jammed.of_report {cause : JamCause} {d : DriveStatus} {refresh : Option Ms}
    (j : Jammed k cause (s.onRake k (liftedRecord (s.screen k) d refresh) s.lp []) t) :
    Jammed k cause s t := by
  obtain ⟨jams, lastJam, phase, cleared, consecutive, command, outcome⟩ := j
  simp only [onRake_screen, if_true, onRake_lp, onRake_setup, onRake_now, onRake_rakeDriveOf, liftedRecord] at *
  exact ⟨jams, lastJam, phase, cleared, consecutive, fun _ => command trivial, outcome⟩

/-- What the end of a reverse leaves (R115). -/
structure Paused (k : Screen) (s t : State) : Prop where
  state : (t.screen k).state = .jamPause
  jamAt : (t.screen k).jamAt = some (s.now + (s.setup.pauseTime.get k).toNat * 1000)
  charge : (t.screen k).charge = (s.screen k).charge
  jams : (t.screen k).jams = (s.screen k).jams
  lastJam : (t.screen k).lastJam = (s.screen k).lastJam
  command : (s.screen k).localHold = false → s.lp.control.length < 8 → t.lp.control = s.lp.control ++
    [⟨rakeDriveOf s k, s.lp.ownAddress, s.lp.ownSequence, .driveCmd .stop 100 (s.screen k).count⟩]

theorem endReverse_paused : Paused k s (reblind (endReverse s k) k) := by
  obtain ⟨count, refresh, retry, lp, es, ended, placed⟩ := endReverse_eq (s := s) (k := k)
  rw [reblind_eq, ended]
  constructor <;> simp_all

theorem Paused.of_report {d : DriveStatus} {refresh : Option Ms}
    (p : Paused k (s.onRake k (liftedRecord (s.screen k) d refresh) s.lp []) t) : Paused k s t := by
  obtain ⟨state, jamAt, charge, jams, lastJam, command⟩ := p
  simp only [onRake_screen, if_true, onRake_lp, onRake_setup, onRake_now, onRake_rakeDriveOf, liftedRecord] at *
  exact ⟨state, jamAt, charge, jams, lastJam, fun _ => command trivial⟩

/-- A report of a rake's drive is taken with the local hold lifted, where it is not LOCAL. -/
theorem exec_rakeDriveStat {src : Addr} {payload : List Byte} {d : DriveReport} (live : s.live = true)
    (at_ : screenAtDrive s src = some k) (read : driveReportOf payload = some d) :
    exec (.rakeDriveStat src payload) s = .next (reblind
      (takeRakeReport (s.onRake k (reportedRecord (s.screen k) (.known d s.now)) s.lp []) k d) k) := by
  apply whenLive_next live
  simp only [at_, read, setScreen_onRake]
  rfl

theorem lift_reported (d : DriveStatus) : ∃ refresh, liftLocal (s.onRake k (reportedRecord (s.screen k) d) s.lp []) k =
    s.onRake k (liftedRecord (s.screen k) d refresh) s.lp [] := by
  rw [liftLocal_eq]
  simp only [onRake_onRake, onRake_screen, if_true, onRake_lp, List.append_nil, liftedRecord, reportedRecord]
  exact ⟨_, rfl⟩

/-- A trip by OVERLOAD of the rake's drive. -/
theorem exec_overload {src : Addr} {payload : List Byte} {d : DriveReport} (live : s.live = true)
    (at_ : screenAtDrive s src = some k) (read : driveReportOf payload = some d) (tripped : d.state = .tripped)
    (overload : d.cause = .overload) : ∃ refresh s', s' = s.onRake k (liftedRecord (s.screen k) (.known d s.now) refresh) s.lp []
      ∧ ((s.screen k).state = .cycling →
          exec (.rakeDriveStat src payload) s = .next (reblind (declareJam s' k .overload) k))
      ∧ ((s.screen k).state = .jamReverse →
          exec (.rakeDriveStat src payload) s = .next (reblind (endReverse s' k) k)) := by
  obtain ⟨refresh, lifted⟩ := lift_reported (s := s) (k := k) (.known d s.now)
  refine ⟨refresh, _, rfl, fun st => ?_, fun st => ?_⟩ <;>
    simp only [exec_rakeDriveStat live at_ read, takeRakeReport, tripped, lifted, rakeTripped, overload, if_true,
      onRake_screen, liftedRecord, st]

theorem homeOff_confirms {at_ : Ms} (live : s.live = true)
    (cycle : ¬((s.screen k).state = .cycling ∧ (s.screen k).phase = some .leaving))
    (moving : (s.screen k).state ≠ .parked ∧ (s.screen k).state ≠ .queued) :
    exec (.homeOffEdge k at_) s = .next (reblind (confirmRake s k) k) := by
  refine (whenSc_next live).trans ?_
  have kept : ((confirmRake s k).screen k).state = (s.screen k).state
      ∧ ((confirmRake s k).screen k).phase = (s.screen k).phase := by rw [confirmRake_eq]; simp
  cases st : (s.screen k).state <;> simp_all

theorem homeOn_ignored {at_ : Ms} (live : s.live = true)
    (cycle : (s.screen k).state ≠ .cycling) (reverse : (s.screen k).state ≠ .jamReverse) :
    exec (.homeOnEdge k at_) s = .next (reblind s k) := by
  refine (whenSc_next live).trans ?_
  cases st : (s.screen k).state <;> simp_all

end Jam

/-- Settles O43: a jam and the end of a reverse are the same step for each of their causes; the edges go by the state. -/
theorem jamsReverseRakes : Obligations.JamsReverseRakes := by
  intro k n at_ overloads s live isOverload
  refine ⟨fun c cause message cycling count => ?_, fun c message reversing => ?_, fun pausing now => ?_, fun st => ?_,
    fun c message => ?_⟩
  · have jammed : ∃ t, exec c s = .next t ∧ Jammed k cause s t := by
      obtain ⟨rfl, now, phase, rfl⟩ | ⟨rfl, now, phase, rfl⟩ | ⟨byTrip, rfl⟩ := message
      · exact ⟨_, whenDueSc_next live now, by rw [if_pos ⟨cycling, phase⟩]; exact declareJam_jammed _⟩
      · exact ⟨_, whenDueSc_next live now, by rw [if_pos ⟨cycling, phase⟩]; exact declareJam_jammed _⟩
      · obtain ⟨src, payload, d, rfl, drive, read, tripped, overload⟩ := (isOverload c).mp byTrip
        obtain ⟨refresh, s', rfl, jam, _⟩ := exec_overload live drive read tripped overload
        exact ⟨_, jam cycling, (declareJam_jammed _).of_report⟩
    obtain ⟨t, next, jams, lastJam, phase, ⟨leave, cycle, capture⟩, consecutive, command, outcome⟩ := jammed
    subst count
    exact ⟨t, next, jams, lastJam, phase, leave, cycle, capture, consecutive, command, outcome⟩
  · have paused : ∃ t, exec c s = .next t ∧ Paused k s t := by
      obtain ⟨rfl, now⟩ | rfl | byTrip := message
      · exact ⟨_, whenDueSc_next live now, by rw [if_pos reversing]; exact endReverse_paused⟩
      · exact ⟨_, whenSc_next live, by simp only [reversing]; exact endReverse_paused⟩
      · obtain ⟨src, payload, d, rfl, drive, read, tripped, overload⟩ := (isOverload c).mp byTrip
        obtain ⟨refresh, s', rfl, _, ended⟩ := exec_overload live drive read tripped overload
        exact ⟨_, ended reversing, endReverse_paused.of_report⟩
    obtain ⟨t, next, state, jamAt, charge, jams, lastJam, command⟩ := paused
    exact ⟨t, next, state, jamAt, charge, jams, lastJam, command⟩
  · refine ⟨_, whenDueSc_next live now, ?_⟩
    obtain ⟨count, refresh, retry, lp, es, built, _⟩ := buildRake_eq (k := k) true (s := s.onRake k
      (cycleRecord s k) s.lp [])
    rw [if_pos pausing, cycleStart_fresh, built, reblind_eq]
    simp [cycleRecord]
  · have idle : granted (s.screen k).state = false := by rcases st with st | st <;> rw [st] <;> rfl
    have inService : ((s.screen k).state == .jammed || (s.screen k).state == .outOfService) = false := by
      rcases st with st | st <;> rw [st] <;> rfl
    have told : (if (s.screen k).localHold then s else s.submit (.uncommandedMotion k)) = s.onRake k (s.screen k) s.lp
        (if (s.screen k).localHold then [] else [.recordSubmission (.uncommandedMotion k)]) := by
      split
      · exact onRake_self.symm
      · exact raise_onRake _
    have taken : exec (.homeOffEdge k at_) s = .next (s.onRake k { s.screen k with blinded := false } s.lp
        ((if (s.screen k).localHold then [] else [.recordSubmission (.uncommandedMotion k)])
          ++ if (s.screen k).blinded = false then [] else [.blindedChange k false])) := by
      have kept : confirmRake s k = s := by simp [confirmRake, idle]
      have untold : exec (.homeOffEdge k at_) s = .next (reblind
          (if (s.screen k).localHold then s else s.submit (.uncommandedMotion k)) k) := by
        refine (whenSc_next live).trans ?_
        rcases st with st | st <;> simp only [kept, st]
      rw [untold, told, reblind_eq, onRake_onRake]
      simp only [onRake_screen, if_true, onRake_lp, blindedNow, inService, Bool.false_and]
    exact ⟨_, taken, rfl, by simp, fun j other => by simp [other],
      by cases (s.screen k).blinded <;> simp⟩
  · have confirmed (c : Instr) (next : exec c s = .next (reblind (confirmRake s k) k)) : ∃ t, exec c s = .next t ∧ t.lp = s.lp
        ∧ t.screen k = { s.screen k with charge := (t.screen k).charge, blinded := (t.screen k).blinded }
        ∧ ((s.screen k).charge ≠ .start → (t.screen k).charge = (s.screen k).charge) := by
      refine ⟨_, next, ?_⟩
      rw [reblind_eq, confirmRake_eq]
      simp +contextual
    have ignored (c : Instr) (next : exec c s = .next (reblind s k)) : ∃ t, exec c s = .next t ∧ t.lp = s.lp
        ∧ t.screen k = { s.screen k with charge := (t.screen k).charge, blinded := (t.screen k).blinded }
        ∧ ((s.screen k).charge ≠ .start → (t.screen k).charge = (s.screen k).charge) := by
      refine ⟨_, next, ?_⟩
      rw [reblind_eq]
      simp
    obtain ⟨rfl, st | ⟨st, phase⟩⟩ | ⟨rfl, st | st⟩ | ⟨rfl | rfl, st | st | st | st⟩ := message
    · exact confirmed _ (homeOff_confirms live (by simp [st]) (by simp [st]))
    · exact confirmed _ (homeOff_confirms live (by simp [phase]) (by simp [st]))
    · exact ignored _ (homeOn_ignored live (by simp [st]) (by simp [st]))
    · exact ignored _ (homeOn_ignored live (by simp [st]) (by simp [st]))
    · exact confirmed _ (homeOff_confirms live (by simp [st]) (by simp [st]))
    · exact confirmed _ (homeOff_confirms live (by simp [st]) (by simp [st]))
    · exact confirmed _ (homeOff_confirms live (by simp [st]) (by simp [st]))
    · exact confirmed _ (homeOff_confirms live (by simp [st]) (by simp [st]))
    · exact ignored _ (homeOn_ignored live (by simp [st]) (by simp [st]))
    · exact ignored _ (homeOn_ignored live (by simp [st]) (by simp [st]))
    · exact ignored _ (homeOn_ignored live (by simp [st]) (by simp [st]))
    · exact ignored _ (homeOn_ignored live (by simp [st]) (by simp [st]))

end Sys2Proof.Machine
end


section
/-! PROOF. Reports of the rake drives, shedding, and the timers of the screens. -/

namespace Sys2Proof.Machine

section Report

variable {s t : State} {k : Screen}

/-! ## Reports (R116) -/

theorem declareJam_drive (cause : JamCause) : ((declareJam s k cause).screen k).drive = (s.screen k).drive := by
  by_cases below : satInc 8 (s.screen k).jams < (s.setup.jamLimit.get k).toNat
  · obtain ⟨_, _, _, _, _, jam, _⟩ := declareJam_eq_of_below cause below
    simp [jam, reversedRecord]
  · obtain ⟨_, _, _, _, _, jam, _⟩ := declareJam_eq_at_limit cause below
    simp [jam, jammedRecord]

theorem endReverse_drive : ((endReverse s k).screen k).drive = (s.screen k).drive := by
  obtain ⟨_, _, _, _, _, ended, _⟩ := endReverse_eq (s := s) (k := k)
  simp [ended]

/-- A fault of the drive gives the rake up. -/
theorem rakeFault_eq (cause : TripCause) : ∃ count refresh retry lp es, rakeFault s k cause = s.onRake k
      { s.screen k with
        leaveAt := none, cycleAt := none, jamAt := none, captureStart := none, lastJam := .fault cause
        state := .jammed, phase := none, charge := .none, count := count, refreshAt := refresh, retryAt := retry } lp es
    ∧ .recordSubmission (.screenJam k (s.screen k).jams (.fault cause)) ∈ es := by
  obtain ⟨count, refresh, retry, lp, es, given, told, _⟩ := giveUp_eq (k := k) (.fault cause) (s := s.onRake k
    { s.screen k with
      leaveAt := none, cycleAt := none, jamAt := none, captureStart := none, lastJam := .fault cause } s.lp [])
  unfold rakeFault
  simp only [clearCycle_eq, setScreen_onRake, onRake_onRake, onRake_screen, if_true, onRake_lp, List.append_nil,
    List.nil_append] at given told ⊢
  exact ⟨count, refresh, retry, lp, es, given, told⟩

theorem rakeTripped_drive (cause : TripCause) : ((rakeTripped s k cause).screen k).drive = (s.screen k).drive := by
  unfold rakeTripped
  split
  · split
    · exact declareJam_drive _
    · exact endReverse_drive
    · rfl
  · split
    · obtain ⟨_, _, _, _, _, fault, _⟩ := rakeFault_eq (s := s) (k := k) cause
      simp [fault]
    · rfl

/-- What the local hold leaves: it withdraws a request, and ends a cycle or a jam. -/
theorem holdLocal_eq : ∃ r es, holdLocal s k = s.onRake k r s.lp es
    ∧ r.drive = (s.screen k).drive ∧ r.localHold = true ∧ r.refreshAt = none
    ∧ ((s.screen k).state = .queued ∨ (s.screen k).state = .shed →
      r.state = .parked ∧ r.requestClass = none ∧ .requestWithdrawal (.rake k) ∈ es)
    ∧ ((s.screen k).state = .cycling → r.state = .parked ∧ r.charge = .none) := by
  unfold holdLocal
  by_cases waiting : requesting (s.screen k).state = true
  · rw [if_pos waiting]
    simp only [rakeWithdraw_eq, rakeEnter_eq, setScreen_onRake, onRake_onRake, onRake_screen, if_true, onRake_lp]
    refine ⟨_, _, rfl, by simp, by simp, by simp, by simp, fun cycling => ?_⟩
    rw [cycling] at waiting
    exact absurd waiting (by decide)
  · rw [if_neg waiting]
    have idle : ¬((s.screen k).state = .queued ∨ (s.screen k).state = .shed) := mt requesting_iff.mpr waiting
    by_cases turning : granted (s.screen k).state = true
    · rw [if_pos turning]
      simp only [rakeRelease_eq, clearCycle_eq, rakeEnter_eq, setScreen_onRake, onRake_onRake, onRake_screen, if_true,
        onRake_lp]
      exact ⟨_, _, rfl, by simp, by simp, by simp, fun waits => absurd waits idle, by simp⟩
    · rw [if_neg turning, setScreen_onRake]
      exact ⟨_, _, rfl, by simp, by simp, by simp, fun waits => absurd waits idle,
        fun cycling => absurd (granted_iff.mpr (.inl cycling)) turning⟩

theorem takeRakeReport_drive (d : DriveReport) : ((takeRakeReport s k d).screen k).drive = (s.screen k).drive := by
  have lifted : ((liftLocal s k).screen k).drive = (s.screen k).drive := by simp [liftLocal_eq]
  unfold takeRakeReport
  split
  · obtain ⟨r, es, held, drive, _⟩ := holdLocal_eq (s := s) (k := k)
    simp [held, drive]
  · simp [confirmRake_eq, lifted]
  · exact (rakeTripped_drive _).trans lifted
  all_goals exact lifted

theorem rakeTrigger_intervalAt : ((rakeTrigger s k).screen k).intervalAt = (s.screen k).intervalAt := by
  cases held : (s.screen k).localHold || homeUnknown s k with
  | true => rw [rakeTrigger_eq_of_held held]
  | false =>
    obtain ⟨free, known⟩ := Bool.or_eq_false_iff.mp held
    simp [rakeTrigger_eq_of_free free known]

/-- A screen's record with its interval timer restarted. -/
def timedRecord (s : State) (k : Screen) : ScreenRecord :=
  { s.screen k with intervalAt := some (s.now + intervalMs s.setup s.ssu.state) }

/-! ## Shedding (R117) -/

theorem rakeShed_eq : ∃ count refresh retry lp es,
    rakeRequest (clearCycle (rakeRelease (buildRake (rakeEnter s k .shed) k true) k) k) k = s.onRake k
      { s.screen k with
        state := .shed, phase := none, charge := .none, leaveAt := none, cycleAt := none, jamAt := none
        captureStart := none, requestClass := some (classNow s k), count := count, refreshAt := refresh
        retryAt := retry } lp es
    ∧ ((s.screen k).charge ≠ .none → .chargeRelease (.rake k) ∈ es)
    ∧ .startRequest (.rake k) (classNow s k) ∈ es := by
  obtain ⟨count, refresh, retry, lp, es, built, _⟩ := buildRake_eq (s := rakeEnter s k .shed) (k := k) true
  rw [built, rakeRelease_eq, rakeEnter_eq, rakeRequest_eq, clearCycle_eq]
  simp only [onRake_onRake, onRake_screen, if_true, onRake_lp, classNow_eq, onRake_setup, reduceCtorEq, if_false]
  exact ⟨_, _, _, _, _, rfl, by simp +contextual, by simp⟩

end Report

/-- Settles O44: each report, timer and message of a screen, from the record it leaves. -/
theorem rakeReportsAndTimers : Obligations.RakeReportsAndTimers := by
  intro k src payload d s live
  refine ⟨fun at_ read => ?_, ?_, fun now => ?_, fun st => ?_, fun c message free => ?_, fun e hour passed => ?_⟩
  · refine ⟨_, exec_rakeDriveStat live at_ read, ?_, fun running charge st => ?_, fun tripped fault st => ?_,
      fun hand => ?_⟩
    · rw [reblind_eq]
      simp [takeRakeReport_drive, reportedRecord]
    · obtain ⟨refresh, lifted⟩ := lift_reported (s := s) (k := k) (.known d s.now)
      simp only [takeRakeReport, running, lifted, confirmRake_eq, reblind_eq, onRake_onRake, onRake_screen, if_true,
        liftedRecord, granted_iff.mpr st, charge, onRake_raised]
      simp
    · obtain ⟨refresh, lifted⟩ := lift_reported (s := s) (k := k) (.known d s.now)
      obtain ⟨count, refresh, retry, lp, es, given, told⟩ := rakeFault_eq (k := k) d.cause
        (s := s.onRake k (liftedRecord (s.screen k) (.known d s.now) refresh) s.lp [])
      simp only [onRake_screen, if_true, liftedRecord] at told
      simp only [takeRakeReport, tripped, lifted, rakeTripped, if_neg fault, onRake_screen, if_true, liftedRecord,
        granted_iff.mpr st] at given ⊢
      rw [given, reblind_eq]
      simp [told]
    · obtain ⟨r, es, held, drive, hold, refresh, waits, cycles⟩ := holdLocal_eq (k := k)
        (s := s.onRake k (reportedRecord (s.screen k) (.known d s.now)) s.lp [])
      simp only [onRake_screen, if_true, reportedRecord] at waits cycles
      simp only [takeRakeReport, hand, held, reblind_eq, onRake_onRake, onRake_screen, if_true, onRake_raised]
      exact ⟨hold, refresh, fun st => ⟨(waits st).1, (waits st).2.1, by simp [(waits st).2.2]⟩, cycles⟩
  · refine ⟨_, whenSc_next live, fun uncharged => ?_, fun charged => ?_⟩
    · rw [if_pos uncharged, raise_onRake (k := k), reblind_eq]
      simp
    · obtain ⟨_, _, _, _, _, shed, released, asked⟩ := rakeShed_eq (s := s) (k := k)
      rw [if_neg charged, shed, reblind_eq]
      refine ⟨by simp, by simp, by simp [released charged], _, by simp; rfl, by simp [asked]⟩
  · refine ⟨_, whenDueSc_next live now, ?_⟩
    have restarted : restartInterval s k = s.onRake k (timedRecord s k) s.lp [] := restartInterval_eq
    simp only [restarted, onRake_screen, if_true, reblind_eq]
    refine ⟨?_, fun st free quality mapped => ?_, fun st held => ?_, fun st => ?_⟩
    · split
      · rw [rakeTrigger_intervalAt]; simp [timedRecord]
      · simp [timedRecord]
    · have known : homeUnknown (s.onRake k (timedRecord s k) s.lp []) k = false := homeUnknown_eq_false.mpr ⟨quality, mapped⟩
      rw [if_pos (by simpa [timedRecord] using st), rakeTrigger_eq_of_free (by simpa [timedRecord] using free) known]
      exact ⟨by simp, _, by simp only [onRake_raised, List.mem_append, List.mem_singleton]; exact .inl (.inr rfl)⟩
    · rw [if_pos (by simpa [timedRecord] using st), rakeTrigger_eq_of_held (by
        simp only [onRake_screen, if_true, homeUnknown, onRake_chan, onRake_entryFor, Bool.or_eq_true, beq_iff_eq,
          Option.isNone_iff_eq_none]
        exact held)]
      refine ⟨by simp [timedRecord, st], by simp [timedRecord], by simp [timedRecord], ?_⟩
      simp only [onRake_raised, onRake_screen, if_true]
      intro x
      split <;> simp
    · rw [if_neg (by simpa [timedRecord] using st)]
      simp [timedRecord]
  · cases st with
    | dry => exact ⟨s, whenLive_next (f := fun s => s) live rfl, fun _ => rfl, by simp⟩
    | storm =>
      refine ⟨_, whenLive_next live rfl, by simp, fun _ x => ?_⟩
      cases x <;> rfl
  · have offered : ∃ r change, exec c s = .next (reblind (buildRake (s.onRake k
        { s.screen k with refreshAt := r } s.lp []) k change) k) := by
      obtain ⟨rfl, now⟩ | ⟨rfl, now⟩ := message
      · exact ⟨_, _, (whenDueSc_next live now).trans (by rw [setScreen_onRake])⟩
      · exact ⟨(s.screen k).refreshAt, _, (whenDueSc_next live now).trans (by rw [onRake_self])⟩
    obtain ⟨r, change, next⟩ := offered
    refine ⟨_, next, ?_⟩
    obtain ⟨count, refresh, retry, lp, es, built, placed, full⟩ := buildRake_eq (k := k) change
      (s := s.onRake k { s.screen k with refreshAt := r } s.lp [])
    rw [built, reblind_eq]
    simp only [onRake_screen, if_true, onRake_lp, onRake_onRake, free, rakeCommand_onRake, rakeAction_eq, true_imp_iff,
      true_and] at placed full ⊢
    split
    · next room => exact placed room
    · next room => exact full room
  · have now : due s.hourAt s.now = true := by simp [due, hour, passed]
    apply whenDue_next live now
    rw [hour]
    rfl

end Sys2Proof.Machine
end


section
/-! PROOF. What DC's operations do to the loop, the backoff generator and the claims of the pumps. -/

namespace Sys2Proof.Machine

/-! ## The two relations -/

/-- What every step keeps of LP and of the backoff generator. -/
def Kept (s t : State) : Prop :=
  (LoopLaw s.lp → LoopLaw t.lp) ∧ (s.duty.backoff ≠ 0 → t.duty.backoff ≠ 0)

theorem Kept.refl (s : State) : Kept s s := ⟨id, id⟩
theorem Kept.trans {s t u : State} (h : Kept s t) (k : Kept t u) : Kept s u := ⟨k.1 ∘ h.1, k.2 ∘ h.2⟩

/-- The states in which a pump claims a place of its well (R55): it is commanded to run, or waits for a grant. -/
def claiming (st : PumpState) : Bool := st == .startWait || startingOrRunning st

/-- A pump's record changed without a new claim: it stays in its state or ceases to claim, its owner as R45 has it. -/
structure Calm (r r' : PumpRecord) : Prop where
  owner : OwnerLaw r → OwnerLaw r'
  state : r'.state = r.state ∨ claiming r'.state = false

/-- A state whose pumps make no new claim, by the parts of it that LP and DC hold. -/
structure CalmTo (s : State) (lp : Loop) (duty : Duty) (pumps : PerPump PumpRecord) (tables : Tables) : Prop where
  loop : LoopLaw s.lp → LoopLaw lp
  backoff : s.duty.backoff ≠ 0 → duty.backoff ≠ 0
  pump : ∀ p, Calm (s.pump p) (pumps.get p)
  setup : tables.setup.active = s.setup
  rotation : duty.rotation = s.duty.rotation

/-- A change that makes no new claim. -/
def Calms (s t : State) : Prop := CalmTo s t.lp t.duty t.pumps t.tables

section Calm

variable {b s t : State} {p : Pump} {r r' : PumpRecord}

theorem Calm.refl (r : PumpRecord) : Calm r r := ⟨id, .inl rfl⟩

theorem Calm.trans {r'' : PumpRecord} (h : Calm r r') (k : Calm r' r'') : Calm r r'' := by
  refine ⟨k.owner ∘ h.owner, ?_⟩
  rcases k.state with same | idle
  · rw [same]; exact h.state
  · exact .inr idle

/-- A record with other fields than state, owner and source changed. -/
theorem Calm.same (state : r'.state = r.state) (owner : r'.owner = r.owner) (source : r'.manualSource = r.manualSource) :
    Calm r r' := by
  refine ⟨fun ⟨float, manual, held⟩ => ⟨?_, ?_, ?_⟩, .inl state⟩
  · rw [state, owner]; exact float
  · rw [state, owner]; exact manual
  · rw [source, owner]; exact held

/-- The owner of a state entered is as R45 has it. -/
theorem ownerLaw_inState (s : State) (r : PumpRecord) (st : PumpState) : OwnerLaw (inState s r st) := by
  constructor
  · cases st <;> simp [inState, ownerIn] <;> split <;> simp
  · cases st <;> simp [inState, ownerIn]
  · simp only [inState]
    split <;> simp_all

theorem calm_inState {st : PumpState} (idle : claiming st = false) : Calm r (inState s r st) :=
  ⟨fun _ => ownerLaw_inState s r st, .inr idle⟩

theorem Calms.refl (s : State) : Calms s s := ⟨id, id, fun _ => .refl _, rfl, rfl⟩

theorem Calms.trans (h : Calms b s) (k : Calms s t) : Calms b t :=
  ⟨k.loop ∘ h.loop, k.backoff ∘ h.backoff, fun p => (h.pump p).trans (k.pump p), k.setup.trans h.setup,
    k.rotation.trans h.rotation⟩

theorem Calms.kept (h : Calms s t) : Kept s t := ⟨h.loop, h.backoff⟩

theorem Calms.setPump (h : Calms b s) (calm : Calm (s.pump p) r) : Calms b (s.setPump p r) := by
  refine ⟨h.loop, h.backoff, fun q => ?_, h.setup, h.rotation⟩
  simp only [State.setPump, PerPump.get_set]
  split
  · next same => subst same; exact (h.pump q).trans calm
  · exact h.pump q

theorem Calms.each {α : Type} {f : State → α → State} (step : ∀ s x, Calms b s → Calms b (f s x)) (xs : List α)
    (h : Calms b s) : Calms b (State.each f xs s) := by
  induction xs generalizing s with
  | nil => exact h
  | cons x xs ih => exact ih (step s x h)

/-! ## LP's operations -/

theorem satInc_le {n x : Nat} (h : x ≤ n) : satInc n x ≤ n := by
  unfold satInc
  split <;> omega

theorem LoopLaw.joinControl {l : Loop} (h : LoopLaw l) (room : l.control.length < 8) (f : OutFrame) (n : BitVec 6) :
    LoopLaw { l with control := l.control ++ [f], ownSequence := n } :=
  { h with control := by simp; omega }

theorem LoopLaw.joinGeneral {l : Loop} (h : LoopLaw l) (room : l.general.length < 8) (f : OutFrame) (n : BitVec 6) :
    LoopLaw { l with general := l.general ++ [f], ownSequence := n } :=
  { h with general := by simp; omega }

theorem Calms.offerControl {dest : Addr} {answering : Option (BitVec 6)} {payload : OutPayload} (h : Calms b s)
    (placed : Machine.offerControl s dest answering payload = some t) : Calms b t := by
  unfold Machine.offerControl at placed
  split at placed
  · next room =>
    cases placed
    have joined : Calms b { s with lp := { s.lp with
        control := s.lp.control ++ [completeFrame s dest answering payload]
        ownSequence := sequenceAfter s answering } } :=
      ⟨fun law => (h.loop law).joinControl room _ _, h.backoff, h.pump, h.setup, h.rotation⟩
    rw [State.raiseIf_eq]
    exact joined
  · cases placed

theorem Calms.offerGeneral {dest : Addr} {answering : Option (BitVec 6)} {payload : OutPayload} (h : Calms b s)
    (placed : Machine.offerGeneral s dest answering payload = some t) : Calms b t := by
  unfold Machine.offerGeneral at placed
  split at placed
  · next room =>
    cases placed
    have joined : Calms b { s with lp := { s.lp with
        general := s.lp.general ++ [completeFrame s dest answering payload]
        ownSequence := sequenceAfter s answering } } :=
      ⟨fun law => (h.loop law).joinGeneral room _ _, h.backoff, h.pump, h.setup, h.rotation⟩
    rw [State.raiseIf_eq]
    exact joined
  · cases placed

theorem Calms.removeRuns (h : Calms b s) (drive : Addr) : Calms b (removeRuns s drive) := by
  refine ⟨fun law => ?_, h.backoff, h.pump, h.setup, h.rotation⟩
  have l := h.loop law
  exact { l with
    control := (List.length_filter_le _ _).trans l.control
    forward := (List.length_filter_le _ _).trans l.forward }

theorem Calms.raiseIf (h : Calms b s) (c : Bool) (e : Instr) : Calms b (s.raiseIf c e) := by
  rw [State.raiseIf_eq]
  exact h

/-! ## The generator (R74) -/

theorem backoffStep_ne_zero {g : BitVec 16} (h : g ≠ 0) : backoffStep g ≠ 0 := by
  unfold backoffStep
  split
  · intro zero
    have top := congrArg (·.getLsbD 15) zero
    simp at top
  · next even =>
    intro zero
    refine h (BitVec.eq_of_getLsbD_eq fun i small => ?_)
    cases i with
    | zero => simpa using even
    | succ j => simpa [Nat.add_comm] using congrArg (·.getLsbD j) zero

theorem Calms.drawBackoff (h : Calms b s) : Calms b (drawBackoff s) :=
  ⟨h.loop, fun law => backoffStep_ne_zero (h.backoff law), h.pump, h.setup, h.rotation⟩

/-! ## Operations on one pump -/

theorem Calms.enter {st : PumpState} (h : Calms b s) (idle : claiming st = false) : Calms b (enter s p st) :=
  h.setPump (calm_inState idle)

theorem Calms.enterOff (h : Calms b s) : Calms b (enterOff s p) := by
  refine h.enter ?_
  split
  · rfl
  · split <;> rfl

theorem Calms.retouch (h : Calms b s) (state : r.state = (s.pump p).state) (owner : r.owner = (s.pump p).owner)
    (source : r.manualSource = (s.pump p).manualSource) : Calms b (s.setPump p r) := h.setPump (.same state owner source)

theorem Calms.lockOut (h : Calms b s) : Calms b (lockOut s p) :=
  (h.enter (st := .lockedOut) (p := p) rfl).retouch rfl rfl rfl

theorem Calms.releaseCharge (h : Calms b s) : Calms b (releaseCharge s p) := by
  unfold Machine.releaseCharge
  split
  · exact h
  · exact h.retouch rfl rfl rfl

theorem Calms.returnCharge (h : Calms b s) : Calms b (returnCharge s p) := by
  unfold Machine.returnCharge
  split
  · exact h.retouch rfl rfl rfl
  · exact h

theorem Calms.chargeExternal (h : Calms b s) : Calms b (chargeExternal s p) := by
  unfold Machine.chargeExternal
  split
  · exact h.retouch rfl rfl rfl
  · exact h.retouch rfl rfl rfl
  · exact h
  · exact h

theorem Calms.notifySurge (h : Calms b s) : Calms b (notifySurge s p) := by
  unfold Machine.notifySurge
  split <;> exact h

theorem Calms.offerCommand {command : Option (DriveAction × Nat)} {change : Bool} (h : Calms b s) :
    Calms b (offerCommand s p command change) := by
  unfold Machine.offerCommand
  split
  · split
    · next placed => exact (h.offerControl placed).retouch rfl rfl rfl
    · split
      · exact h.retouch rfl rfl rfl
      · exact h
  · exact h.retouch rfl rfl rfl

theorem Calms.buildCommand {change : Bool} (h : Calms b s) : Calms b (buildCommand s p change) := h.offerCommand

theorem Calms.stopPump {send : Bool} (h : Calms b s) : Calms b (stopPump s p send) := by
  have stopping := ((h.returnCharge (p := p)).enter (st := .stopping) (p := p) rfl).retouch (p := p)
    (r := { (Machine.enter (Machine.returnCharge s p) p .stopping).pump p with
      stopAt := some ((Machine.enter (Machine.returnCharge s p) p .stopping).now + 30000), stopFailed := false }) rfl rfl rfl
  unfold Machine.stopPump
  dsimp only
  split
  · exact (stopping.raiseIf _ _).buildCommand
  · exact stopping.raiseIf _ _

theorem Calms.enterBackoff (h : Calms b s) : Calms b (enterBackoff s p) :=
  (h.drawBackoff.enter (st := .backoff) (p := p) rfl).retouch rfl rfl rfl

theorem Calms.exhaust (h : Calms b s) : Calms b (exhaust s p) := by
  unfold Machine.exhaust
  dsimp only
  split
  · exact (h.enter (st := .unavailable .skipped) (p := p) rfl).retouch (r := _) rfl rfl rfl
  · have backed : Calms b (Machine.enterBackoff (s.submit (.pumpFault p (s.pump p).attempts (s.pump p).lastTrip)) p) :=
      Calms.enterBackoff h
    exact backed.retouch rfl rfl rfl
  · exact h.lockOut

theorem Calms.afterAttempt (h : Calms b s) : Calms b (afterAttempt s p) := by
  unfold Machine.afterAttempt
  split
  · exact h.exhaust
  · exact h.enterBackoff

theorem Calms.failStart (h : Calms b s) : Calms b (failStart s p) := by
  unfold Machine.failStart
  exact Calms.buildCommand (Calms.afterAttempt (Calms.retouch h.returnCharge rfl rfl rfl))

theorem Calms.tripRunning {cause : TripCause} (h : Calms b s) : Calms b (tripRunning s p cause) := by
  have told : Calms b (Machine.notifyFlow (Machine.notifySurge s p) p) := h.notifySurge
  have freed : Calms b ((Machine.releaseCharge (Machine.notifyFlow (Machine.notifySurge s p) p) p).submit
      (.pumpTripRetry p cause)) := told.releaseCharge
  unfold Machine.tripRunning
  exact Calms.buildCommand (Calms.afterAttempt (Calms.retouch freed rfl rfl rfl))

theorem Calms.confirmStop (h : Calms b s) : Calms b (confirmStop s p) :=
  (h.releaseCharge.notifySurge.enter (st := .resting) (p := p) rfl).retouch rfl rfl rfl

theorem Calms.interlockPump (h : Calms b s) : Calms b (interlockPump s p) := by
  unfold Machine.interlockPump
  dsimp only
  have removed := h.removeRuns (driveOf s p)
  split
  · exact Calms.enterOff (s := withdraw (Machine.removeRuns s (driveOf s p)) p) removed
  · exact removed.stopPump
  · exact removed.stopPump
  · exact removed

theorem Calms.evalInterlock {d : WellDelivery} (h : Calms b s) : Calms b (evalInterlock d s p) := by
  have set : Calms b (s.setPump p { s.pump p with interlock := interlockHolds s.setup p d }) := h.retouch rfl rfl rfl
  unfold Machine.evalInterlock
  dsimp only
  split
  · exact set.interlockPump
  · exact set

theorem Calms.restage {w : Well} {level : Int} (h : Calms b s) : Calms b (restage w level s p) := h.retouch rfl rfl rfl

theorem Calms.judgeDeadHead (h : Calms b s) : Calms b (judgeDeadHead s p) := by
  unfold Machine.judgeDeadHead
  split
  · split
    · exact h.retouch rfl rfl rfl
    · exact h
  · exact h

/-! ## Reports, silence, FLOAT and the gates -/

theorem Calms.takeLocal {d : DriveReport} (h : Calms b s) : Calms b (takeLocal s p d) := by
  unfold Machine.takeLocal chargeLocal
  dsimp only
  have given : Calms b (match (s.pump p).state with
      | .startWait => withdraw s p
      | .starting => Machine.returnCharge s p
      | _ => s) := by
    split
    · exact h
    · exact h.returnCharge
    · exact h
  split
  · exact (given.enter rfl).chargeExternal
  · exact (given.enter rfl).releaseCharge

theorem Calms.leaveLocal {d : DriveReport} (h : Calms b s) : Calms b (leaveLocal s p d) := by
  unfold Machine.leaveLocal
  dsimp only
  split
  · have noted : Calms b (s.setPump p { s.pump p with
        lastTrip := d.cause, lockout := (s.pump p).lockout || d.cause == .moisture }) := h.retouch rfl rfl rfl
    exact noted.releaseCharge.enterOff
  · split
    · exact h.stopPump
    · exact h.releaseCharge.enterOff

theorem Calms.lockMoist (h : Calms b s) : Calms b (lockMoist s p) := by
  unfold Machine.lockMoist
  dsimp only
  split
  · exact Calms.lockOut (s := withdraw s p) h
  · exact h.notifySurge.releaseCharge.lockOut
  · exact h.releaseCharge.lockOut

theorem Calms.takeTripped {d : DriveReport} (h : Calms b s) : Calms b (takeTripped s p d) := by
  have noted : Calms b (s.setPump p { s.pump p with lastTrip := d.cause }) := h.retouch rfl rfl rfl
  unfold Machine.takeTripped
  dsimp only
  generalize s.setPump p { s.pump p with lastTrip := d.cause } = s at noted
  split
  · split
    · exact noted
    any_goals exact noted.retouch rfl rfl rfl
    exact noted.lockMoist
  · split
    · exact noted.failStart
    · exact noted.tripRunning
    · exact noted.confirmStop
    · exact Calms.enterOff (s := withdraw s p) noted
    · exact noted

theorem Calms.recordReport {d : DriveReport} (h : Calms b s) : Calms b (recordReport s p d) := h.retouch rfl rfl rfl

theorem Calms.fallSilent {wasRunning : Bool} (h : Calms b s) : Calms b (fallSilent s p wasRunning) := by
  have given : Calms b (match (s.pump p).state with
      | .startWait => withdraw s p
      | .starting => Machine.returnCharge s p
      | _ => if (s.pump p).charge = .running then Machine.chargeExternal s p else s) := by
    split
    · exact h
    · exact h.returnCharge
    · split
      · exact h.chargeExternal
      · exact h
  have silent := (given.enter (st := .unavailable .noStatus) (p := p) rfl)
  unfold Machine.fallSilent
  dsimp only
  split
  · exact Calms.buildCommand (Calms.retouch silent rfl rfl rfl)
  · exact Calms.retouch silent rfl rfl rfl

theorem Calms.toFloat (h : Calms b s) : Calms b (toFloat s p) := by
  unfold Machine.toFloat
  exact Calms.buildCommand (Calms.retouch (Calms.enter (h.removeRuns _) rfl) rfl rfl rfl)

theorem Calms.stopUnfit {names : PerPump (Option ExitName)} (h : Calms b s) : Calms b (stopUnfit names s p) := by
  unfold Machine.stopUnfit
  split
  · exact h.stopPump
  · exact h

theorem Calms.stopExcess {names : PerPump (Option ExitName)} {w : Well} (h : Calms b s) :
    Calms b (stopExcess names w s p) := by
  unfold Machine.stopExcess
  split
  · exact h.stopPump
  · exact h

theorem Calms.passStop (h : Calms b s) : Calms b (passStop s p) := by
  unfold Machine.passStop
  split
  · exact h.stopPump
  · exact h.stopPump
  · exact Calms.enterOff (s := withdraw s p) h
  · exact h

theorem Calms.withdrawExcess {w : Well} (h : Calms b s) : Calms b (withdrawExcess w s p) := by
  unfold Machine.withdrawExcess
  split
  · exact Calms.enterOff (s := withdraw s p) h
  · exact h

theorem Calms.pumpDisable (h : Calms b s) : Calms b (pumpDisable s p).1 := by
  have disabled : Calms b (s.setPump p { s.pump p with disabled := true }) := h.retouch rfl rfl rfl
  unfold Machine.pumpDisable
  dsimp only
  split
  · exact h
  · generalize s.setPump p { s.pump p with disabled := true } = s at disabled
    split
    · exact Calms.enterOff (s := withdraw s p) disabled
    · exact disabled.stopPump
    · exact disabled.stopPump
    any_goals exact disabled.enter rfl
    exact disabled

theorem Calms.pumpEnable (h : Calms b s) : Calms b (pumpEnable s p).1 := by
  have enabled : Calms b (s.setPump p { s.pump p with disabled := false }) := h.retouch rfl rfl rfl
  unfold Machine.pumpEnable
  dsimp only
  split
  · dsimp only
    split
    · exact enabled.enterOff
    · exact enabled
  · exact h

theorem Calms.pumpClear (h : Calms b s) : Calms b (pumpClear s p).1 := by
  have cleared : Calms b (s.setPump p { s.pump p with lockout := false, attempts := 0 }) := h.retouch rfl rfl rfl
  unfold Machine.pumpClear
  dsimp only
  split
  · dsimp only
    split
    · exact cleared.enterOff
    · exact cleared
  · exact h

theorem Calms.pumpRelease (h : Calms b s) : Calms b (pumpRelease s p).1 := by
  unfold Machine.pumpRelease
  split
  · exact h.stopPump
  · exact h

end Calm

end Sys2Proof.Machine
end


section
/-! PROOF. What an evaluation, and all that follows a change, does to the pumps commanded to run or waiting for a grant. -/

namespace Sys2Proof.Machine

/-! ## The law of R55 on the Rotation Lists -/

/-- The owners and the Rotation Lists of the law of R55 (R45, R48). -/
structure Core (s : State) : Prop where
  owners : ∀ p, OwnerLaw (s.pump p)
  lists : ∀ w p, p ∈ s.duty.rotation.get w ↔ s.wellOf p = some w
  once : ∀ w, (s.duty.rotation.get w).Nodup

/-- The pumps of a well commanded to run are at most its max running. -/
def Cap (s : State) (w : Well) : Prop := commandedRunning s w ≤ maxRunning s w

/-- The pumps of a well commanded to run, with those that wait for a grant, are at most its max running. -/
def Limit (s : State) (w : Well) : Prop := commandedOrWaiting s w ≤ maxRunning s w

section Counts

variable {s t : State} {w : Well} {p : Pump}

theorem commandedRunning_eq : commandedRunning s w =
    ((s.duty.rotation.get w).filter fun p => startingOrRunning (s.pump p).state).length := rfl

theorem commandedOrWaiting_eq : commandedOrWaiting s w =
    ((s.duty.rotation.get w).filter fun p => claiming (s.pump p).state).length := rfl

theorem filter_length_le {α : Type} {f g : α → Bool} {l : List α} (h : ∀ x ∈ l, f x = true → g x = true) :
    (l.filter f).length ≤ (l.filter g).length := by
  rw [← List.countP_eq_length_filter, ← List.countP_eq_length_filter]
  exact List.countP_mono_left h

theorem claiming_of_commanded {st : PumpState} (h : startingOrRunning st = true) : claiming st = true := by
  simp [claiming, h]

theorem Limit.cap (h : Limit s w) : Cap s w :=
  (filter_length_le fun _ _ => claiming_of_commanded).trans h

theorem claims_eq (p : Pump) : claims s w p = (s.wellOf p == some w && claiming (s.pump p).state) := by
  simp [claims, claiming, startingOrRunning, Bool.or_assoc]

/-- The pumps of a well are counted alike in its Rotation List and among all pumps. -/
theorem Core.count (h : Core s) (w : Well) :
    (Pump.all.filter (claims s w)).length = commandedOrWaiting s w := by
  refine List.Perm.length_eq ((List.perm_ext_iff_of_nodup ?_ ?_).mpr fun p => ?_)
  · exact List.Nodup.filter _ (by decide)
  · exact (h.once w).filter _
  · have listed := h.lists w p
    have all : p ∈ Pump.all := by cases p <;> decide
    simp only [List.mem_filter, all, true_and, claims_eq, Bool.and_eq_true, beq_iff_eq, listed]
    exact Iff.rfl

theorem runningLaw_iff : RunningLaw s ↔ Core s ∧ ∀ w, Limit s w :=
  ⟨fun ⟨owners, lists, once, limit⟩ =>
      ⟨⟨owners, lists, once⟩, fun w => (Core.count ⟨owners, lists, once⟩ w).symm.le.trans (limit w)⟩,
    fun ⟨core, limit⟩ => ⟨core.owners, core.lists, core.once, fun w => (core.count w).le.trans (limit w)⟩⟩

end Counts

/-! ## What a change keeps -/

/-- A change that keeps what every step keeps of LP and DC, and the limit of R55 of each well. -/
structure Evolves (s t : State) : Prop where
  kept : Kept s t
  owner : ∀ p, OwnerLaw (s.pump p) → OwnerLaw (t.pump p)
  setup : t.setup = s.setup
  rotation : ∀ w, (t.duty.rotation.get w).Perm (s.duty.rotation.get w)
  limit : Core s → ∀ w, Limit s w → Limit t w

/-- A change that, with that, commands no pump beyond the max running of its well, whatever waits for a grant. -/
structure Paced (s t : State) : Prop extends Evolves s t where
  cap : Core s → ∀ w, Cap s w → Cap t w

section Relations

variable {s t u : State} {w : Well} {p : Pump}

theorem wellOf_of_setup (h : t.setup = s.setup) (p : Pump) : t.wellOf p = s.wellOf p := by
  simp [State.wellOf, h]

theorem maxRunning_of_setup (h : t.setup = s.setup) (w : Well) : maxRunning t w = maxRunning s w := by
  simp [maxRunning, h]

theorem Evolves.core (h : Evolves s t) (core : Core s) : Core t where
  owners p := h.owner p (core.owners p)
  lists w p := by rw [(h.rotation w).mem_iff, wellOf_of_setup h.setup]; exact core.lists w p
  once w := (h.rotation w).nodup_iff.mpr (core.once w)

theorem Evolves.refl (s : State) : Evolves s s := ⟨.refl s, fun _ => id, rfl, fun _ => .refl _, fun _ _ => id⟩
theorem Paced.refl (s : State) : Paced s s := ⟨.refl s, fun _ _ => id⟩

theorem Evolves.trans (h : Evolves s t) (k : Evolves t u) : Evolves s u where
  kept := h.kept.trans k.kept
  owner p := k.owner p ∘ h.owner p
  setup := k.setup.trans h.setup
  rotation w := (k.rotation w).trans (h.rotation w)
  limit core w := k.limit (h.core core) w ∘ h.limit core w

theorem Paced.trans (h : Paced s t) (k : Paced t u) : Paced s u :=
  ⟨h.toEvolves.trans k.toEvolves, fun core w => k.cap (h.core core) w ∘ h.cap core w⟩

theorem Evolves.runningLaw (h : Evolves s t) (law : RunningLaw s) : RunningLaw t := by
  rw [runningLaw_iff] at law ⊢
  exact ⟨h.core law.1, fun w => h.limit law.1 w (law.2 w)⟩

/-- Where no pump gains a state of a kind, a list has no more pumps of that kind. -/
theorem filter_states_le {f : PumpState → Bool} (l : List Pump) (h : ∀ p ∈ l, f (t.pump p).state = true → f (s.pump p).state = true) :
    (l.filter fun p => f (t.pump p).state).length ≤ (l.filter fun p => f (s.pump p).state).length := filter_length_le h

/-- A change after which no pump claims that did not claim before. -/
theorem Evolves.of_claims (kept : Kept s t) (owner : ∀ p, OwnerLaw (s.pump p) → OwnerLaw (t.pump p))
    (setup : t.setup = s.setup) (rotation : t.duty.rotation = s.duty.rotation)
    (claim : ∀ p, claiming (t.pump p).state = true → claiming (s.pump p).state = true) : Evolves s t where
  kept := kept
  owner := owner
  setup := setup
  rotation w := by rw [rotation]
  limit _ w h := by
    unfold Limit at *
    rw [commandedOrWaiting_eq, maxRunning_of_setup setup, rotation]
    exact (filter_states_le _ fun p _ => claim p).trans h

theorem Calms.claim (h : Calms s t) {f : PumpState → Bool} (idle : ∀ st, claiming st = false → f st = false) (p : Pump)
    (holds : f (t.pump p).state = true) : f (s.pump p).state = true := by
  rcases (h.pump p).state with same | ceased
  · exact same ▸ holds
  · exact absurd holds (by simp [State.pump, idle _ ceased])

theorem idle_of_unclaimed {st : PumpState} (h : claiming st = false) : startingOrRunning st = false :=
  (Bool.or_eq_false_iff.mp h).2

theorem Calms.limit (h : Calms s t) (limit : Limit s w) : Limit t w := by
  unfold Limit at *
  rw [commandedOrWaiting_eq, maxRunning_of_setup h.setup, h.rotation]
  exact (filter_states_le _ fun p _ => h.claim (fun _ => id) p).trans limit

theorem Calms.cap (h : Calms s t) (cap : Cap s w) : Cap t w := by
  unfold Cap at *
  rw [commandedRunning_eq, maxRunning_of_setup h.setup, h.rotation]
  exact (filter_states_le _ fun p _ => h.claim (fun _ => idle_of_unclaimed) p).trans cap

theorem Calms.paced (h : Calms s t) : Paced s t where
  toEvolves := .of_claims h.kept (fun p => (h.pump p).owner) h.setup h.rotation (h.claim fun _ => id)
  cap _ _ := h.cap

theorem Calms.evolves (h : Calms s t) : Evolves s t := h.paced.toEvolves

/-! ## A selection (R56, R57) -/

/-- A selection asks for a chosen pump in OFF, and otherwise makes no new claim. -/
theorem treat_cases (chosen : List Pump) (s : State) (p : Pump) :
    Calms s (treat chosen s p)
    ∨ (s.pump p).state = .off ∧ p ∈ chosen
      ∧ treat chosen s p = (enter s p .startWait).raise (.startRequest (.pump p) .pump) := by
  unfold treat
  dsimp only
  split
  · exact .inl (.refl s)
  · split
    · next off =>
      split
      · next sel => exact .inr ⟨off, by simpa using sel, rfl⟩
      · exact .inl (.refl s)
    · split
      · exact .inl (.refl s)
      · exact .inl (Calms.enterOff (s := withdraw s p) (.refl s))
    · split
      · exact .inl ((Calms.refl s).retouch rfl rfl rfl)
      · split
        · exact .inl (Calms.refl s).stopPump
        · exact .inl ((Calms.refl s).retouch rfl rfl rfl)
    · exact .inl (.refl s)

/-- A waiting pump that is not chosen gives up its request. -/
theorem treat_gives_up {chosen : List Pump} (owner : OwnerLaw (s.pump p)) (waits : (s.pump p).state = .startWait)
    (other : p ∉ chosen) : claiming ((treat chosen s p).pump p).state = false := by
  have auto : (s.pump p).owner = .auto := by
    cases h : (s.pump p).owner with
    | auto => rfl
    | manual => rcases owner.manual h with st | st <;> rw [waits] at st <;> cases st
    | float => have st := owner.float.mp h; rw [waits] at st; cases st
  have off : treat chosen s p = enterOff (withdraw s p) p := by simp [treat, auto, waits, other]
  rw [off]
  unfold enterOff enter
  simp only [State.pump_setPump, if_true, inState]
  split
  · rfl
  · split <;> rfl

theorem treat_kept (chosen : List Pump) (s : State) (p : Pump) : Kept s (treat chosen s p) := by
  rcases treat_cases chosen s p with calm | ⟨_, _, asked⟩
  · exact calm.kept
  · rw [asked]; exact .refl s

theorem treat_owner (chosen : List Pump) (s : State) (p q : Pump) (h : OwnerLaw (s.pump q)) :
    OwnerLaw ((treat chosen s p).pump q) := by
  rcases treat_cases chosen s p with calm | ⟨_, _, asked⟩
  · exact (calm.pump q).owner h
  · rw [asked]
    show OwnerLaw ((enter s p .startWait).pump q)
    by_cases same : q = p
    · subst same; simpa [enter] using ownerLaw_inState s (s.pump q) .startWait
    · simpa [enter, same] using h

theorem treat_plant (chosen : List Pump) (s : State) (p : Pump) :
    (treat chosen s p).setup = s.setup ∧ (treat chosen s p).duty.rotation = s.duty.rotation := by
  rcases treat_cases chosen s p with calm | ⟨_, _, asked⟩
  · exact ⟨calm.setup, calm.rotation⟩
  · rw [asked]; exact ⟨rfl, rfl⟩

/-- What a selection leaves of a pump it has come to: it asks for it, or lets it stay in its state, being chosen if it waits,
or it ceases to claim. -/
def Treated (chosen : List Pump) (r r' : PumpRecord) (p : Pump) : Prop :=
  (r.state = .off ∧ p ∈ chosen ∧ r'.state = .startWait)
    ∨ (r'.state = r.state ∧ (r.state = .startWait → p ∈ chosen))
    ∨ claiming r'.state = false

theorem treat_treated (chosen : List Pump) (owner : OwnerLaw (s.pump p)) :
    Treated chosen (s.pump p) ((treat chosen s p).pump p) p := by
  rcases treat_cases chosen s p with calm | ⟨off, sel, asked⟩
  · rcases (calm.pump p).state with same | ceased
    · by_cases given : (s.pump p).state = .startWait ∧ p ∉ chosen
      · exact .inr (.inr (treat_gives_up owner given.1 given.2))
      · exact .inr (.inl ⟨same, fun waits => by by_contra no; exact given ⟨waits, no⟩⟩)
    · exact .inr (.inr ceased)
  · have waits : ((enter s p .startWait).pump p).state = .startWait := by simp [enter, inState]
    exact .inl ⟨off, sel, by rw [asked]; exact waits⟩

/-- A selection comes to each pump of the list once, and to no other. -/
theorem each_treat {chosen : List Pump} {list : List Pump} (once : list.Nodup) (s : State) (owners : ∀ p, OwnerLaw (s.pump p)) :
    (∀ p ∈ list, Treated chosen (s.pump p) ((State.each (treat chosen) list s).pump p) p)
    ∧ ∀ p, p ∉ list → (State.each (treat chosen) list s).pump p = s.pump p := by
  induction list generalizing s with
  | nil => exact ⟨by simp, fun _ _ => rfl⟩
  | cons x xs ih =>
    obtain ⟨fresh, once⟩ := List.nodup_cons.mp once
    obtain ⟨came, missed⟩ := ih once (treat chosen s x) fun p => treat_owner chosen s x p (owners p)
    have step : State.each (treat chosen) (x :: xs) s = State.each (treat chosen) xs (treat chosen s x) := rfl
    rw [step]
    refine ⟨fun p member => ?_, fun p other => ?_⟩
    · rcases List.mem_cons.mp member with rfl | later
      · rw [missed p fresh]; exact treat_treated chosen (owners p)
      · have apart : p ≠ x := fun same => fresh (same ▸ later)
        have now := came p later
        rwa [treat_other chosen s apart] at now
    · rw [List.mem_cons, not_or] at other
      obtain ⟨apart, other⟩ := other
      rw [missed p other, treat_other chosen s apart]

theorem each_treat_plant (chosen : List Pump) (list : List Pump) (s : State) :
    Kept s (State.each (treat chosen) list s) ∧ (∀ p, OwnerLaw (s.pump p) → OwnerLaw ((State.each (treat chosen) list s).pump p))
      ∧ (State.each (treat chosen) list s).setup = s.setup
      ∧ (State.each (treat chosen) list s).duty.rotation = s.duty.rotation := by
  induction list generalizing s with
  | nil => exact ⟨.refl s, fun _ => id, rfl, rfl⟩
  | cons x xs ih =>
    obtain ⟨kept, owner, setup, rotation⟩ := ih (treat chosen s x)
    exact ⟨(treat_kept chosen s x).trans kept, fun p h => owner p (treat_owner chosen s x p h),
      setup.trans (treat_plant chosen s x).1, rotation.trans (treat_plant chosen s x).2⟩

/-- The pumps chosen beyond those commanded to run are at most what max running leaves. -/
theorem selected_fits (s : State) (w : Well) (demand : Nat) : ∃ running asked : List Pump,
    selected s w demand = running ++ asked ∧ (∀ p ∈ running, startingOrRunning (s.pump p).state = true)
    ∧ asked.length ≤ maxRunning s w - commandedRunning s w := by
  refine ⟨_, _, rfl, fun p member => (List.mem_filter.mp (List.mem_of_mem_take member)).2, ?_⟩
  rw [List.length_take]
  exact (Nat.min_le_left _ _).trans (Nat.min_le_right _ _)

/-- A selection paces its well and leaves the others. -/
theorem select_paced (s : State) (w : Well) (demand : Nat) : Paced s (select s w demand) := by
  obtain ⟨kept, owner, setup, rotation⟩ := each_treat_plant (selected s w demand) (s.duty.rotation.get w) s
  have commands (core : Core s) (p : Pump) (h : startingOrRunning ((select s w demand).pump p).state = true) :
      startingOrRunning (s.pump p).state = true := by
    obtain ⟨came, missed⟩ := each_treat (chosen := selected s w demand) (core.once w) s core.owners
    by_cases member : p ∈ s.duty.rotation.get w
    · rcases came p member with ⟨_, _, asked⟩ | ⟨same, _⟩ | ceased
      · have no : startingOrRunning PumpState.startWait = true := asked ▸ h
        cases no
      · exact same ▸ h
      · exact absurd (claiming_of_commanded h) (by simp [select, ceased])
    · exact missed p member ▸ h
  refine ⟨⟨kept, owner, setup, fun v => by rw [select, rotation], fun core v limit => ?_⟩, fun core v cap => ?_⟩
  · by_cases same : v = w
    · subst same
      obtain ⟨running, asked, split, ran, fits⟩ := selected_fits s v demand
      obtain ⟨came, _⟩ := each_treat (chosen := selected s v demand) (core.once v) s core.owners
      have chosen (p : Pump) (sel : p ∈ selected s v demand) (idle : startingOrRunning (s.pump p).state = false) :
          p ∈ asked := by
        rw [split] at sel
        exact (List.mem_append.mp sel).resolve_left fun no => by rw [ran p no] at idle; cases idle
      have covered : ((s.duty.rotation.get v).filter fun p => claiming ((select s v demand).pump p).state)
          ⊆ ((s.duty.rotation.get v).filter fun p => startingOrRunning (s.pump p).state) ++ asked := by
        intro p member
        obtain ⟨listed, claim⟩ := List.mem_filter.mp member
        rw [List.mem_append, List.mem_filter]
        rcases came p listed with ⟨off, sel, _⟩ | ⟨same, waits⟩ | ceased
        · exact .inr (chosen p sel (by rw [off]; rfl))
        · cases runs : startingOrRunning (s.pump p).state with
          | true => exact .inl ⟨listed, rfl⟩
          | false =>
            have claim : claiming (s.pump p).state = true := same ▸ claim
            have waiting : (s.pump p).state = .startWait := by simpa [claiming, runs] using claim
            exact .inr (chosen p (waits waiting) runs)
        · exact absurd claim (by simp [select, ceased])
      have counted := (((core.once v).filter _).subperm covered).length_le
      have cap := limit.cap
      unfold Limit Cap at *
      rw [List.length_append, ← commandedRunning_eq] at counted
      rw [commandedOrWaiting_eq, maxRunning_of_setup (by exact setup), select, rotation]
      exact counted.trans (by omega)
    · obtain ⟨_, missed⟩ := each_treat (chosen := selected s w demand) (core.once w) s core.owners
      unfold Limit at *
      rw [commandedOrWaiting_eq, maxRunning_of_setup (by exact setup), select, rotation]
      refine (filter_states_le _ fun p listed claim => ?_).trans limit
      have away : p ∉ s.duty.rotation.get w := fun here =>
        same (Option.some.inj (((core.lists v p).mp listed).symm.trans ((core.lists w p).mp here)))
      exact missed p away ▸ claim
  · unfold Cap at *
    rw [commandedRunning_eq, maxRunning_of_setup (by exact setup), select, rotation]
    exact (filter_states_le _ fun p _ => commands core p).trans cap

/-! ## Evaluations and what follows a change (R49, R52) -/

theorem Paced.each {α : Type} {f : State → α → State} (step : ∀ s x, Paced s (f s x)) (xs : List α) (s : State) :
    Paced s (State.each f xs s) := by
  induction xs generalizing s with
  | nil => exact .refl s
  | cons x xs ih => exact (step s x).trans (ih (f s x))

theorem evaluateOnce_paced (s : State) (w : Well) (d : WellDelivery) : Paced s (evaluateOnce s w d) := by
  unfold evaluateOnce
  split
  · exact .refl s
  · split
    · refine Paced.trans (t := { s with duty := _ }) ?_ (select_paced _ w _)
      exact Calms.paced ⟨id, id, fun _ => .refl _, rfl, rfl⟩
    · exact .refl s

theorem rotate_perm {α : Type} (l : List α) : (rotate l).Perm l := by
  cases l with
  | nil => exact .refl _
  | cons x xs => exact List.perm_append_singleton x xs

/-- A rotation moves no pump. -/
theorem rotated_paced (s : State) (w : Well) (flags : PerWell Bool) : Paced s { s with duty := { s.duty with
    rotation := s.duty.rotation.set w (rotate (s.duty.rotation.get w)), rotationDue := flags } } := by
  have perm (v : Well) : ((s.duty.rotation.set w (rotate (s.duty.rotation.get w))).get v).Perm (s.duty.rotation.get v) := by
    rw [PerWell.get_set]
    split
    · next same => subst same; exact rotate_perm _
    · exact .refl _
  refine ⟨⟨.refl s, fun _ => id, rfl, perm, fun _ v limit => ?_⟩, fun _ v cap => ?_⟩
  · exact (((perm v).filter _).length_eq).le.trans limit
  · exact (((perm v).filter _).length_eq).le.trans cap

theorem rotateIfDue_paced (s : State) (w : Well) : Paced s (rotateIfDue s w) := by
  unfold rotateIfDue
  split
  · exact rotated_paced s w _
  · exact .refl s

theorem evaluateFuel_paced (n : Nat) (s : State) (w : Well) (d : WellDelivery) : Paced s (evaluateFuel n s w d) := by
  induction n generalizing s with
  | zero => exact .refl s
  | succ n ih =>
    have once := (evaluateOnce_paced s w d).trans (rotateIfDue_paced _ w)
    unfold evaluateFuel
    dsimp only
    split
    · exact once.trans (ih _)
    · exact once

theorem evaluate_paced (s : State) (w : Well) (d : WellDelivery) : Paced s (evaluate s w d) :=
  (rotateIfDue_paced s w).trans (evaluateFuel_paced 8 _ w d)

theorem evaluateLive_paced (s : State) (w : Well) : Paced s (evaluateLive s w) := evaluate_paced s w _

/-- All that follows a change keeps to the limit of R55. -/
theorem settle_paced (b a : State) : Paced a (settle b a) := by
  refine ((Paced.each (fun s w => ?_) _ _).trans (.each rotateIfDue_paced _ _)).trans
    ((Paced.each (fun s p => ?_) _ _).trans (.each (fun s p => ?_) _ _))
  · unfold evaluateChanged
    split
    · exact evaluateLive_paced s w
    · exact .refl s
  · unfold judgeChanged
    split
    · exact .refl s
    · exact (Calms.refl s).judgeDeadHead.paced
  · refine Calms.paced ?_
    unfold noticeFlow runTick
    dsimp only
    split
    · exact (Calms.refl s).raiseIf _ _
    · refine Calms.raiseIf ?_ _ _
      exact Calms.retouch (.refl s) rfl rfl rfl

/-! ## Back within the limit -/

/-- Withdrawing from the last of a list on ends within the limit, or with no pump of the list waiting. -/
theorem each_withdrawExcess (list : List Pump) (s : State) :
    Limit (State.each (withdrawExcess w) list s) w
    ∨ ∀ p ∈ list, ((State.each (withdrawExcess w) list s).pump p).state ≠ .startWait := by
  induction list generalizing s with
  | nil => exact .inr (by simp)
  | cons x xs ih =>
    have later : Calms (withdrawExcess w s x) (State.each (withdrawExcess w) xs (withdrawExcess w s x)) :=
      .each (fun _ _ h => h.withdrawExcess) xs (.refl _)
    rcases ih (withdrawExcess w s x) with within | free
    · exact .inl within
    · by_cases fits : Limit s w
      · exact .inl (later.limit ((Calms.refl s).withdrawExcess.limit fits))
      · refine .inr fun p member => ?_
        rcases List.mem_cons.mp member with rfl | among
        · have given : ((withdrawExcess w s p).pump p).state ≠ .startWait := by
            unfold withdrawExcess
            split
            · show ((enterOff (withdraw s p) p).pump p).state ≠ _
              unfold enterOff enter
              simp only [State.pump_setPump, if_true, inState]
              split
              · simp
              · split <;> simp
            · next stays => exact fun waits => stays ⟨waits, Nat.lt_of_not_le fits⟩
          intro waits
          rcases (later.pump p).state with same | ceased
          · exact given (same.symm.trans waits)
          · have no : claiming PumpState.startWait = false := by rw [← waits]; exact ceased
            cases no
        · exact free p among

theorem evaluateWithin_paced (s : State) (w : Well) : Paced s (evaluateWithin s w) :=
  (evaluateLive_paced s w).trans (Calms.paced (.each (fun _ _ h => h.withdrawExcess) _ (.refl _)))

/-- An evaluation that ends within the limit needs no more than a well that is not commanded beyond it. -/
theorem evaluateWithin_limit (core : Core s) (cap : Cap s w) : Limit (evaluateWithin s w) w := by
  have paced := evaluateWithin_paced s w
  rcases each_withdrawExcess (w := w) ((evaluateLive s w).duty.rotation.get w).reverse (evaluateLive s w) with within | free
  · exact within
  · have cap' := paced.cap core w cap
    unfold Limit Cap at *
    refine (filter_length_le fun p member claim => ?_).trans cap'
    have calm : Calms (evaluateLive s w) (evaluateWithin s w) := .each (fun _ _ h => h.withdrawExcess) _ (.refl _)
    rw [calm.rotation] at member
    have idle := free p (List.mem_reverse.mpr member)
    have claim : claiming ((evaluateWithin s w).pump p).state = true := claim
    simp only [claiming, Bool.or_eq_true, beq_iff_eq] at claim
    exact claim.resolve_left idle

end Relations

end Sys2Proof.Machine
end


section
/-! PROOF. The commands of DC keep the loop, the backoff generator, the owners and the limit of R55. -/

namespace Sys2Proof.Machine

section Commands

variable {s t u : State} {w : Well} {p : Pump}

theorem Evolves.then_calms (h : Evolves s t) (k : Calms t u) : Evolves s u := h.trans k.evolves
theorem Evolves.then_paced (h : Evolves s t) (k : Paced t u) : Evolves s u := h.trans k.toEvolves

theorem Evolves.each {α : Type} {f : State → α → State} (step : ∀ s x, Evolves s (f s x)) (xs : List α) (s : State) :
    Evolves s (State.each f xs s) := by
  induction xs generalizing s with
  | nil => exact .refl s
  | cons x xs ih => exact (step s x).trans (ih (f s x))

/-- A pump that claims already takes another state. -/
theorem enter_evolves (s : State) {st : PumpState} (before : claiming (s.pump p).state = true) : Evolves s (enter s p st) := by
  refine .of_claims (.refl s) (fun q law => ?_) rfl rfl fun q claim => ?_
  · by_cases same : q = p
    · subst same; simpa [enter] using ownerLaw_inState s (s.pump q) st
    · simpa [enter, same] using law
  · by_cases same : q = p
    · subst same; exact before
    · simpa [enter, same] using claim

/-! ## Confirming and granting (R71, R72) -/

theorem notifySurge_pumps (s : State) (p : Pump) : (notifySurge s p).pumps = s.pumps := by
  unfold notifySurge
  split <;> rfl

theorem confirmStart_evolves (starting : (s.pump p).state = .starting) : Evolves s (confirmStart s p) := by
  have confirmed (c : State) (calm : Calms s c) (still : (c.pump p).state = .starting) : Evolves s
      ((enter (notifyFlow (notifySurge c p) p) p .running).setPump p
        { (enter (notifyFlow (notifySurge c p) p) p .running).pump p with
          attempts := 0, runStart := some (enter (notifyFlow (notifySurge c p) p) p .running).now, stopDeferred := false }) := by
    have told : Calms s (notifyFlow (notifySurge c p) p) := calm.notifySurge
    have waits : ((notifyFlow (notifySurge c p) p).pump p).state = .starting := by
      show ((notifySurge c p).pumps.get p).state = _
      rw [notifySurge_pumps]; exact still
    exact (told.evolves.trans (enter_evolves _ (st := .running) (by rw [waits]; rfl))).then_calms
      (Calms.retouch (.refl _) rfl rfl rfl)
  unfold confirmStart
  dsimp only
  split
  · exact confirmed _ (Calms.retouch (.refl s) rfl rfl rfl) (by simpa [State.pump, State.setPump, State.raise] using starting)
  · exact confirmed s (.refl s) starting

theorem takeGrant_evolves (waiting : (s.pump p).state = .startWait) : Evolves s (takeGrant s p) := by
  have entered : Evolves s (enter s p .starting) := enter_evolves s (by rw [waiting]; rfl)
  unfold takeGrant
  refine entered.then_calms (Calms.buildCommand ?_)
  exact Calms.retouch (.refl _) rfl rfl rfl

/-! ## Deliveries, reports and silence -/

theorem takeDelivery_evolves (s : State) (w : Well) (d : WellDelivery) : Evolves s (takeDelivery s w d) := by
  unfold takeDelivery
  refine Evolves.then_paced (Calms.evolves ?_) (evaluate_paced _ w d)
  refine .each (fun _ _ h => h.judgeDeadHead) _ ?_
  have fitted : Calms s (State.each (evalInterlock d) (s.setup.pumpsOf w) s) := .each (fun _ _ h => h.evalInterlock) _ (.refl s)
  unfold restageWell
  split
  · exact fitted
  · exact fitted
  · exact .each (fun _ _ h => h.restage) _ fitted

theorem takeReport_evolves (s : State) (p : Pump) (d : DriveReport) : Evolves s (takeReport s p d) := by
  unfold takeReport
  split
  · refine Calms.evolves ?_
    dsimp only
    split
    · exact (Calms.refl s).takeTripped
    · exact .refl s
  · exact .refl s
  · split
    · exact (Calms.refl s).takeLocal.evolves
    · exact (Calms.refl s).leaveLocal.evolves
  · split
    · exact (Calms.refl s).takeLocal.evolves
    · exact (Calms.refl s).leaveLocal.evolves
  · split
    · exact (Calms.refl s).takeLocal.evolves
    · exact (Calms.refl s).takeTripped.evolves
    · next st => exact confirmStart_evolves st
    · exact (Calms.refl s).confirmStop.evolves
    · exact .refl s

/-! ## The exit from FALLBACK (R146, R147) -/

/-- The pumps after the names of an exit notice: each stays in its state, ceases to claim, or runs as the notice has it. -/
structure ExitTo (names : PerPump (Option ExitName)) (s t : State) : Prop where
  kept : Kept s t
  owner : ∀ p, OwnerLaw (s.pump p) → OwnerLaw (t.pump p)
  setup : t.setup = s.setup
  rotation : t.duty.rotation = s.duty.rotation
  state : ∀ p, (t.pump p).state = (s.pump p).state ∨ claiming (t.pump p).state = false
    ∨ namedAdopted names p = true ∧ (t.pump p).state = .running

theorem ExitTo.calms {names : PerPump (Option ExitName)} (h : ExitTo names s t) (k : Calms t u) : ExitTo names s u where
  kept := h.kept.trans k.kept
  owner p := (k.pump p).owner ∘ h.owner p
  setup := k.setup.trans h.setup
  rotation := k.rotation.trans h.rotation
  state p := by
    rcases (k.pump p).state with same | ceased
    · have same : (u.pump p).state = (t.pump p).state := same
      rw [same]; exact h.state p
    · exact .inr (.inl ceased)

theorem ExitTo.of_calms {names : PerPump (Option ExitName)} (h : Calms s t) : ExitTo names s t :=
  ⟨h.kept, fun p => (h.pump p).owner, h.setup, h.rotation, fun p => (h.pump p).state.imp_right .inl⟩

theorem ExitTo.adopted {names : PerPump (Option ExitName)} {r : PumpRecord} (h : ExitTo names s t)
    (named : namedAdopted names p = true) (running : r.state = .running) (law : OwnerLaw r) :
    ExitTo names s (t.setPump p r) where
  kept := h.kept
  owner q k := by
    by_cases same : q = p
    · subst same; simpa using law
    · simpa [same] using h.owner q k
  setup := h.setup
  rotation := h.rotation
  state q := by
    by_cases same : q = p
    · subst same; exact .inr (.inr ⟨named, by simpa using running⟩)
    · simpa [same] using h.state q

theorem ExitTo.each {α : Type} {names : PerPump (Option ExitName)} {f : State → α → State}
    (step : ∀ t x, ExitTo names s t → ExitTo names s (f t x)) (xs : List α) (h : ExitTo names s t) :
    ExitTo names s (State.each f xs t) := by
  induction xs generalizing t with
  | nil => exact h
  | cons x xs ih => exact ih (step t x h)

theorem ExitTo.adopt {names : PerPump (Option ExitName)} (h : ExitTo names s t) (named : namedAdopted names p = true) :
    ExitTo names s (adopt w t p) := by
  have running : ExitTo names s (enter t p .running) := h.adopted named rfl (ownerLaw_inState _ _ _)
  have taken : ExitTo names s ((enter t p .running).setPump p { (enter t p .running).pump p with
      owner := .auto, manualSource := none, manual := none
      runStart := some (enter t p .running).now, charge := .running
      history := adoptHistory (enter t p .running) p }) := by
    refine running.adopted named (by simp [enter, inState]) ⟨?_, ?_, ?_⟩ <;> simp [enter, inState]
  unfold Machine.adopt
  dsimp only
  split
  · exact taken.calms (Calms.offerCommand (Calms.retouch (Calms.restage (.refl _)) rfl rfl rfl))
  · exact taken.calms (Calms.offerCommand (Calms.retouch (.refl _) rfl rfl rfl))

theorem ExitTo.takeExitName {names : PerPump (Option ExitName)} (h : ExitTo names s t) :
    ExitTo names s (takeExitName w names t p) := by
  unfold Machine.takeExitName
  split
  · next name => exact h.adopt (by simp [namedAdopted, name])
  · exact h.calms (Calms.retouch (Calms.enter (.refl _) rfl) rfl rfl rfl)
  · exact h.calms (Calms.retouch (Calms.enter (.refl _) rfl) rfl rfl rfl)
  · exact h.calms (Calms.refl _).enterOff.buildCommand
  · exact h

theorem returnMoved_calms (w : Well) (names : PerPump (Option ExitName)) (s : State) (p : Pump) :
    Calms s (returnMoved w names s p) := (Calms.refl s).raiseIf _ _

/-- Stopping the excess from the last of a list on ends within max running, or with no adopted pump of the list running. -/
theorem each_stopExcess (names : PerPump (Option ExitName)) (list : List Pump) (s : State) :
    Cap (State.each (stopExcess names w) list s) w
    ∨ ∀ p ∈ list, namedAdopted names p = true → ((State.each (stopExcess names w) list s).pump p).state ≠ .running := by
  induction list generalizing s with
  | nil => exact .inr (by simp)
  | cons x xs ih =>
    have later : Calms (stopExcess names w s x) (State.each (stopExcess names w) xs (stopExcess names w s x)) :=
      .each (fun _ _ h => h.stopExcess) xs (.refl _)
    rcases ih (stopExcess names w s x) with within | free
    · exact .inl within
    · by_cases fits : Cap s w
      · exact .inl (later.cap ((Calms.refl s).stopExcess.cap fits))
      · refine .inr fun p member named => ?_
        rcases List.mem_cons.mp member with rfl | among
        · have given : ((stopExcess names w s p).pump p).state ≠ .running := by
            unfold stopExcess
            split
            · rw [stopPump_state]; simp
            · next stays =>
              intro runs
              exact stays (by simp [named, runs, Nat.lt_of_not_le fits])
          intro runs
          rcases (later.pump p).state with same | ceased
          · exact given (same.symm.trans runs)
          · have no : claiming PumpState.running = false := by rw [← runs]; exact ceased
            cases no
        · exact free p among named

/-! ## What is done to one pump leaves the others -/

variable {q : Pump}

theorem enter_other (st : PumpState) (apart : q ≠ p) : (enter s p st).pump q = s.pump q := by simp [enter, apart]
theorem enterOff_other (apart : q ≠ p) : (enterOff s p).pump q = s.pump q := enter_other _ apart
theorem restage_other (level : Int) (apart : q ≠ p) : (restage w level s p).pump q = s.pump q := by simp [restage, apart]

theorem interlockPump_other (apart : q ≠ p) : (interlockPump s p).pump q = s.pump q := by
  unfold interlockPump
  dsimp only
  split
  · exact enterOff_other apart
  · exact stopPump_other _ _ apart
  · exact stopPump_other _ _ apart
  · rfl

theorem evalInterlock_other (d : WellDelivery) (apart : q ≠ p) : (evalInterlock d s p).pump q = s.pump q := by
  unfold evalInterlock
  dsimp only
  split
  · rw [interlockPump_other apart]; simp [apart]
  · simp [apart]

theorem stopUnfit_other (names : PerPump (Option ExitName)) (apart : q ≠ p) : (stopUnfit names s p).pump q = s.pump q := by
  unfold stopUnfit
  split
  · exact stopPump_other _ _ apart
  · rfl

theorem adopt_other (apart : q ≠ p) : (adopt w s p).pump q = s.pump q := by
  unfold adopt
  dsimp only
  rw [offerCommand_other _ _ _ apart]
  split
  · simp [apart, restage, enter]
  · simp [apart, enter]

theorem takeExitName_other (names : PerPump (Option ExitName)) (apart : q ≠ p) :
    (takeExitName w names s p).pump q = s.pump q := by
  unfold takeExitName
  split
  · exact adopt_other apart
  · simp [enter, apart]
  · simp [enter, apart]
  · rw [buildCommand_other _ _ apart, enterOff_other apart]
  · rfl

theorem each_away {f : State → Pump → State} {xs : List Pump} (step : ∀ s p, q ≠ p → (f s p).pump q = s.pump q)
    (away : q ∉ xs) (s : State) : (State.each f xs s).pump q = s.pump q := by
  induction xs generalizing s with
  | nil => rfl
  | cons x xs ih =>
    rw [List.mem_cons, not_or] at away
    exact (ih away.2 _).trans (step s x away.1)

/-- An exit notice commands no well beyond its max running. -/
theorem exitTaken_evolves (s : State) (w : Well) (names : PerPump (Option ExitName)) (t : State)
    (named : ExitTo names s t) (away : ∀ p, s.wellOf p ≠ some w → (t.pump p).state = (s.pump p).state) :
    Evolves s (evaluateWithin (State.each (stopExcess names w) (t.duty.rotation.get w).reverse t) w) := by
  have calm : Calms t (State.each (stopExcess names w) (t.duty.rotation.get w).reverse t) :=
    .each (fun _ _ h => h.stopExcess) _ (.refl t)
  have stopped := named.calms calm
  have paced := evaluateWithin_paced (State.each (stopExcess names w) (t.duty.rotation.get w).reverse t) w
  have bare : Core s → Core (State.each (stopExcess names w) (t.duty.rotation.get w).reverse t) := fun core =>
    ⟨fun p => stopped.owner p (core.owners p),
      fun v p => by rw [stopped.rotation, wellOf_of_setup stopped.setup]; exact core.lists v p,
      fun v => by rw [stopped.rotation]; exact core.once v⟩
  refine ⟨stopped.kept.trans paced.kept, fun p => paced.owner p ∘ stopped.owner p, paced.setup.trans stopped.setup,
    fun v => (paced.rotation v).trans (by rw [stopped.rotation]), fun core v limit => ?_⟩
  by_cases here : v = w
  · subst here
    refine evaluateWithin_limit (bare core) ?_
    rcases each_stopExcess (w := v) names (t.duty.rotation.get v).reverse t with within | free
    · exact within
    · have cap := limit.cap
      unfold Cap at *
      rw [commandedRunning_eq, maxRunning_of_setup stopped.setup, stopped.rotation]
      refine (filter_states_le _ fun p member runs => ?_).trans cap
      rcases stopped.state p with same | ceased | ⟨adopted, running⟩
      · exact same ▸ runs
      · exact absurd (claiming_of_commanded runs) (by simp [ceased])
      · exact absurd running (free p (by rw [named.rotation]; exact List.mem_reverse.mpr member) adopted)
  · refine paced.limit (bare core) v (calm.limit ?_)
    unfold Limit at *
    rw [commandedOrWaiting_eq, maxRunning_of_setup named.setup, named.rotation]
    refine (filter_states_le _ fun p member claim => ?_).trans limit
    have elsewhere : s.wellOf p ≠ some w := by rw [(core.lists v p).mp member]; simpa using here
    exact away p elsewhere ▸ claim

theorem mem_pumpsOf (t : Setup) (w : Well) (p : Pump) : p ∈ t.pumpsOf w ↔ t.wellOf p = some w := by
  have all : p ∈ Pump.all := by cases p <;> decide
  simp [Setup.pumpsOf, all]

/-- The steps of an exit notice before the stop of an excess. -/
def exitNamed (s : State) (w : Well) (names : PerPump (Option ExitName)) : State :=
  let s := State.each (returnMoved w names) Pump.all s
  let s := State.each (takeExitName w names) (s.setup.pumpsOf w) s
  let s := State.each (stopUnfit names) (s.setup.pumpsOf w) s
  State.each (evalInterlock (deliveryOf (s.well w))) (s.setup.pumpsOf w) s

theorem returnMoved_pumps (w : Well) (names : PerPump (Option ExitName)) (xs : List Pump) (s : State) :
    (State.each (returnMoved w names) xs s).pumps = s.pumps := by
  induction xs generalizing s with
  | nil => rfl
  | cons x xs ih => exact (ih _).trans (State.raiseIf_pumps ..)

theorem exitNamed_to (s : State) (w : Well) (names : PerPump (Option ExitName)) :
    ExitTo names s (exitNamed s w names)
    ∧ ∀ q, s.wellOf q ≠ some w → ((exitNamed s w names).pump q).state = (s.pump q).state := by
  let s0 := State.each (returnMoved w names) Pump.all s
  let s1 := State.each (takeExitName w names) (s0.setup.pumpsOf w) s0
  let s2 := State.each (stopUnfit names) (s1.setup.pumpsOf w) s1
  let s3 := State.each (evalInterlock (deliveryOf (s2.well w))) (s2.setup.pumpsOf w) s2
  have to0 : ExitTo names s s0 := .of_calms (.each (fun s p h => h.trans (returnMoved_calms w names s p)) _ (.refl s))
  have to1 : ExitTo names s s1 := .each (fun _ _ h => h.takeExitName) _ to0
  have to2 : ExitTo names s s2 := to1.calms (.each (fun _ _ h => h.stopUnfit) _ (.refl s1))
  have to3 : ExitTo names s s3 := to2.calms (.each (fun _ _ h => h.evalInterlock) _ (.refl s2))
  refine ⟨to3, fun q elsewhere => ?_⟩
  have away (t : State) (same : t.setup = s.setup) : q ∉ t.setup.pumpsOf w := by
    rw [same, mem_pumpsOf]; exact elsewhere
  have pump3 : s3.pump q = s2.pump q := each_away (fun _ _ => evalInterlock_other _) (away s2 to2.setup) s2
  have pump2 : s2.pump q = s1.pump q := each_away (fun _ _ => stopUnfit_other names) (away s1 to1.setup) s1
  have pump1 : s1.pump q = s0.pump q := each_away (fun _ _ => takeExitName_other names) (away s0 to0.setup) s0
  have pump0 : s0.pump q = s.pump q := congrArg (·.get q) (returnMoved_pumps w names Pump.all s)
  show (s3.pump q).state = _
  rw [pump3, pump2, pump1, pump0]

/-! ## Every command of DC -/

theorem settled (h : Evolves s t) : Evolves s (settle s t) := h.then_paced (settle_paced s t)

variable {f : State → State}

theorem live_evolves (h : Evolves s (f s)) : Yields Evolves s (whenLive s f) := whenLive_yields (R := Evolves) (.refl s) h
theorem due_evolves {x : Option Ms} (h : Evolves s (f s)) : Yields Evolves s (whenDue s x f) :=
  whenDue_yields (R := Evolves) (.refl s) h
theorem dc_evolves (h : Evolves s (f s)) : Yields Evolves s (whenDc s f) := live_evolves (settled h)
theorem dueDc_evolves {x : Option Ms} (h : Evolves s (f s)) : Yields Evolves s (whenDueDc s x f) := due_evolves (settled h)

theorem exec_dc_evolves {c : Instr} (s : State) (block : blockOf c = .dc) : Yields Evolves s (exec c s) := by
  cases c <;> try cases block
  case curveSwitchNotice w =>
    apply live_evolves
    exact Calms.evolves ⟨id, id, fun _ => .refl _, rfl, rfl⟩
  case runSecondsTick p =>
    apply due_evolves
    exact Calms.evolves (Calms.retouch (.refl s) rfl rfl rfl)
  case wellRecordDeliveryDc w d =>
    apply dc_evolves
    exact (takeDelivery_evolves s w d)
  case stationStateToDc st =>
    apply dc_evolves
    exact (Paced.each evaluateLive_paced _ s).toEvolves
  case wellStateToDc w st =>
    apply dc_evolves
    exact (evaluateLive_paced s w).toEvolves
  case fallbackEntryDc w =>
    apply dc_evolves
    have floated : Calms s (State.each toFloat (s.setup.pumpsOf w) s) := .each (fun _ _ h => h.toFloat) _ (.refl s)
    exact Calms.evolves ⟨floated.loop, floated.backoff, floated.pump, floated.setup, floated.rotation⟩
  case fallbackExitDc w names =>
    apply dc_evolves
    obtain ⟨named, away⟩ := exitNamed_to s w names
    exact (exitTaken_evolves s w names _ named away).trans
      (.each (fun s p => by
        unfold takeLateReport
        split
        · exact takeReport_evolves s p _
        · exact .refl s) _ _)
  case driveStat src payload =>
    apply dc_evolves
    split
    · exact (Calms.refl s).recordReport.evolves.trans (takeReport_evolves _ _ _)
    · exact .refl s
  case pumpGrant p =>
    apply dc_evolves
    split
    · exact Calms.evolves (Calms.refl s)
    · next waits =>
      split
      · exact (Calms.enterOff (s := s.raise (.grantReturn (.pump p))) (.refl s)).evolves
      · exact takeGrant_evolves (not_not.mp waits)
  case pumpShed p =>
    apply dc_evolves
    refine Calms.evolves ?_
    dsimp only
    split
    · exact (Calms.refl s).stopPump
    · split
      · exact .refl s
      · exact .refl s
  case startDeadlineExpiry p =>
    apply dueDc_evolves
    refine Calms.evolves ?_
    split
    · exact (Calms.refl s).failStart
    · exact .refl s
  case stopDeadlineExpiry p =>
    apply dueDc_evolves
    refine Calms.evolves ?_
    dsimp only
    split
    · exact Calms.retouch (.refl s) rfl rfl rfl
    · exact .refl s
  case backoffEnd p | restEnd p =>
    apply dueDc_evolves
    refine Calms.evolves ?_
    split
    · exact (Calms.refl s).enterOff
    · exact .refl s
  case skipEnd p =>
    apply dueDc_evolves
    refine Calms.evolves ?_
    dsimp only
    split
    · exact Calms.enterOff (Calms.retouch (.refl s) rfl rfl rfl)
    · exact .refl s
  case statusDeadlineExpiry p =>
    apply dueDc_evolves
    refine Calms.evolves ?_
    have unknown : Calms s (s.setPump p { s.pump p with drive := .unknown, statusAt := none }) :=
      Calms.retouch (.refl s) rfl rfl rfl
    dsimp only
    split
    · exact unknown
    · exact unknown
    · exact unknown.fallSilent
  case minRunExpiry p =>
    apply dueDc_evolves
    split
    · exact (evaluateLive_paced s _).toEvolves
    · exact .refl s
  case startHistoryAging p =>
    apply dueDc_evolves
    have aged : Calms s (s.setPump p { s.pump p with history := agedHistory (s.pump p).history s.now }) :=
      Calms.retouch (.refl s) rfl rfl rfl
    dsimp only
    split
    · exact aged.evolves.then_paced (evaluateLive_paced _ _)
    · exact aged.evolves
  case refreshExpiry p =>
    apply dueDc_evolves
    exact (Calms.evolves (Calms.buildCommand (Calms.retouch (.refl s) rfl rfl rfl)))
  case commandRetry p =>
    apply dueDc_evolves
    exact (Calms.refl s).buildCommand.evolves
  case deadHeadExpiry p =>
    apply dueDc_evolves
    exact (Calms.evolves (Calms.retouch (.refl s) rfl rfl rfl))

end Commands

end Sys2Proof.Machine
end


section
/-! PROOF. The commands of the other blocks keep the loop, the backoff generator, the owners and the limit of R55. -/

namespace Sys2Proof.Machine

section Calming

variable {b s t : State} {q : Quantity} {k : Screen} {p : Pump}

/-! ## CU -/

theorem Calms.ite {c : Prop} [Decidable c] (h : Calms b s) (k : Calms b t) : Calms b (if c then s else t) := by
  split
  · exact h
  · exact k

theorem Calms.resetStale {node : Nat} {cls : StationState} (h : Calms b s) : Calms b (resetStale s node cls) := by
  refine Calms.each (fun s e h => ?_) _ h
  split <;> exact h

theorem Calms.cadencePlaced {node : Nat} {cls : StationState} (h : Calms b s) : Calms b (cadencePlaced s node cls) := by
  have stale : Calms b (if (match findNode s node with
      | some c => c.recorded != cls
      | none => false) then Machine.resetStale s node cls else s) := .ite h.resetStale h
  exact stale

theorem Calms.placeCadence {node : Nat} {ref : Option Nat} (h : Calms b s) (placed : placeCadence s node ref = some t) :
    Calms b t := by
  unfold Machine.placeCadence at placed
  obtain ⟨u, offered, rfl⟩ := Option.map_eq_some_iff.mp placed
  exact (h.offerControl offered).cadencePlaced

theorem Calms.offerCadence {node : Nat} (h : Calms b s) : Calms b (offerCadence s node) := by
  unfold Machine.offerCadence
  cases placed : Machine.placeCadence s node none with
  | some t => exact h.placeCadence placed
  | none => exact h

theorem Calms.offerCadenceAll (h : Calms b s) : Calms b (offerCadenceAll s) := .each (fun _ _ h => h.offerCadence) _ h

theorem Calms.requestReference {e : SampleEntry} (h : Calms b s) : Calms b (requestReference s q e) := by
  unfold Machine.requestReference
  split
  · next placed =>
    have after := h.placeCadence placed
    exact after
  · exact h

theorem Calms.enterSuspect {cause : SuspectCause} (h : Calms b s) : Calms b (enterSuspect s q cause) := .ite h h

theorem Calms.leaveSuspect {limit : Nat} (h : Calms b s) : Calms b (leaveSuspect s q limit) := .ite h (.ite h h)

theorem Calms.recoveryRecord {before after : Quality} (h : Calms b s) : Calms b (recoveryRecord s q before after) := .ite h h

theorem Calms.takeReference {e : SampleEntry} {rd : Reading} (h : Calms b s) : Calms b (takeReference s q e rd) := by
  unfold Machine.takeReference
  dsimp only
  split
  · exact .ite (Calms.enterSuspect h) (.ite (Calms.leaveSuspect h) h)
  · exact h

theorem Calms.rejectReading (h : Calms b s) : Calms b (rejectReading s q) := .ite (Calms.enterSuspect h) h

theorem Calms.takeAnalog {e : SampleEntry} {rd : Reading} (h : Calms b s) : Calms b (takeAnalog s q e rd) :=
  .ite h.takeReference (.ite h.rejectReading (.ite h (Calms.recoveryRecord h)))

theorem Calms.takeReading {src : Addr} {rd : Reading} (h : Calms b s) : Calms b (takeReading src s rd) := by
  unfold Machine.takeReading
  split
  · split
    · exact Calms.takeAnalog (s := arrive s _ src) h
    · exact h
  · exact h

theorem Calms.deliverEdge {before : Option Int} {after : Int} {changed : Bool} (h : Calms b s) :
    Calms b (deliverEdge s q before after changed) := by
  unfold Machine.deliverEdge
  split
  · have told : ∀ x, Calms b x → Calms b (if (changed || before.isNone) = true then deliver x q true else x) :=
      fun _ h => .ite h h
    exact told _ (.ite h (.ite h h))
  · exact h

theorem Calms.takeEdge {e : SampleEntry} {st : Bool} {count : BitVec 8} (h : Calms b s) : Calms b (takeEdge s q e st count) :=
  Calms.recoveryRecord (.ite (Calms.deliverEdge h) (.ite h h))

theorem Calms.contradict {reported : Bool} (h : Calms b s) : Calms b (contradict s q reported) := .ite h.enterSuspect h

/-! ## SC -/

theorem Calms.buildRake {change : Bool} (h : Calms b s) : Calms b (buildRake s k change) := by
  unfold Machine.buildRake
  split
  · split
    · next placed =>
      have after := h.offerControl placed
      exact after
    · exact .ite h h
  · exact h

theorem Calms.setScreen {r : ScreenRecord} (h : Calms b s) : Calms b (s.setScreen k r) := h
theorem Calms.rakeEnter {st : RakeState} (h : Calms b s) : Calms b (rakeEnter s k st) := h
theorem Calms.rakeWithdraw (h : Calms b s) : Calms b (rakeWithdraw s k) := h
theorem Calms.clearCycle (h : Calms b s) : Calms b (clearCycle s k) := h
theorem Calms.rakeRelease (h : Calms b s) : Calms b (rakeRelease s k) := .ite h h
theorem Calms.reblind (h : Calms b s) : Calms b (reblind s k) := .ite h h
theorem Calms.rakeTrigger (h : Calms b s) : Calms b (rakeTrigger s k) := .ite h h
theorem Calms.retestClass (h : Calms b s) : Calms b (retestClass s k) := .ite h h

theorem Calms.evaluateScreen (h : Calms b s) : Calms b (evaluateScreen s k) := by
  unfold Machine.evaluateScreen
  dsimp only
  split
  · exact .ite h.rakeTrigger h
  · exact h.retestClass
  · exact h.retestClass
  · exact h

theorem Calms.recomputeDifferential {up : ChannelUpdate} {level : Option Int} {quality : LevelQuality} (h : Calms b s) :
    Calms b (recomputeDifferential s k up level quality) := by
  rw [recomputeDifferential_eq]
  exact h

theorem Calms.screenDelivery {d : WellDelivery} (h : Calms b s) : Calms b (screenDelivery d s k) :=
  Calms.reblind h.recomputeDifferential.evaluateScreen

theorem Calms.cycleStart {continuation : Bool} (h : Calms b s) : Calms b (cycleStart s k continuation) :=
  .ite h (Calms.buildRake h)

theorem Calms.confirmRake (h : Calms b s) : Calms b (confirmRake s k) := .ite h h

theorem Calms.captureCycle {at_ : Ms} (h : Calms b s) : Calms b (captureCycle s k at_) := by
  obtain ⟨after, es, captured, _⟩ := captureCycle_eq (s := s) (k := k) at_
  rw [captured]
  exact h

theorem Calms.parkRake (h : Calms b s) : Calms b (parkRake s k) :=
  Calms.rakeRelease (Calms.buildRake (s := Machine.rakeEnter s k .parked) h)

theorem Calms.completeCycle {at_ : Ms} (h : Calms b s) : Calms b (completeCycle s k at_) := by
  unfold Machine.completeCycle
  have captured := Calms.captureCycle (at_ := at_) (k := k) (s := restartInterval (s.setScreen k { s.screen k with
    cycleAt := none, consecutive := satInc 8 (s.screen k).consecutive
    cyclesThisHour := satInc 65535 (s.screen k).cyclesThisHour }) k) (b := b) h
  exact .ite captured.cycleStart captured.parkRake

theorem Calms.endReverse (h : Calms b s) : Calms b (endReverse s k) := Calms.buildRake (k := k) h

theorem Calms.giveUp {cause : JamCause} (h : Calms b s) : Calms b (giveUp s k cause) :=
  Calms.rakeRelease (Calms.buildRake (s := Machine.rakeEnter s k .jammed) h)

theorem Calms.declareJam {cause : JamCause} (h : Calms b s) : Calms b (declareJam s k cause) :=
  .ite (Calms.buildRake (k := k) h) (Calms.giveUp h)

theorem Calms.rakeFault {cause : TripCause} (h : Calms b s) : Calms b (rakeFault s k cause) := Calms.giveUp h

theorem Calms.holdLocal (h : Calms b s) : Calms b (holdLocal s k) := by
  have held := h.setScreen (k := k) (r := { s.screen k with localHold := true, refreshAt := none, retryAt := none })
  unfold Machine.holdLocal
  exact .ite held.rakeWithdraw.rakeEnter
    (.ite (Calms.rakeEnter (Calms.setScreen held.rakeRelease.clearCycle)) held)

theorem Calms.liftLocal (h : Calms b s) : Calms b (liftLocal s k) := .ite h h

theorem Calms.rakeTripped {cause : TripCause} (h : Calms b s) : Calms b (rakeTripped s k cause) := by
  unfold Machine.rakeTripped
  split
  · split
    · exact h.declareJam
    · exact h.endReverse
    · exact h
  · exact .ite h.rakeFault h

theorem Calms.takeRakeReport {d : DriveReport} (h : Calms b s) : Calms b (takeRakeReport s k d) := by
  unfold Machine.takeRakeReport
  split
  · exact h.holdLocal
  · exact h.liftLocal.confirmRake
  · exact h.liftLocal.rakeTripped
  all_goals exact h.liftLocal

theorem Calms.disableRake (h : Calms b s) : Calms b (disableRake s k) := by
  have out := h.setScreen (k := k) (r := { s.screen k with outOfService := true })
  unfold Machine.disableRake
  have freed {c c' c'' : Prop} [Decidable c] [Decidable c'] [Decidable c''] {x : State} (k' : Calms b x) :
      Calms b (let s := Machine.rakeEnter (if c then Machine.rakeWithdraw x k else x) k .outOfService
        let s := if c' then s else Machine.buildRake s k true
        if c'' then Machine.clearCycle (Machine.rakeRelease s k) k else s) := by
    have entered : Calms b (Machine.rakeEnter (if c then Machine.rakeWithdraw x k else x) k .outOfService) :=
      Calms.rakeEnter (.ite k'.rakeWithdraw k')
    have told := Calms.ite (c := c') entered (entered.buildRake (k := k) (change := true))
    exact .ite told.rakeRelease.clearCycle told
  exact freed out

/-! ## ELR and MU -/

theorem Calms.trySendFuel (n : Nat) (h : Calms b s) : Calms b (trySendFuel n s) := by
  induction n generalizing s with
  | zero => exact h
  | succ n ih =>
    unfold Machine.trySendFuel
    split
    · exact h
    · split
      · exact h
      · split
        · next placed =>
          have after := h.offerGeneral placed
          exact ih after
        · exact h

theorem Calms.trySend (h : Calms b s) : Calms b (trySend s) := h.trySendFuel 5

theorem Calms.judgeRecord {body : RecordBody} (h : Calms b s) : Calms b (judgeRecord s body) := .ite (Calms.trySend h) h

theorem Calms.tryLost (h : Calms b s) : Calms b (tryLost s) := .ite (.ite (Calms.trySend h) h) h

theorem Calms.placeAck {n : BitVec 16} (h : Calms b s) : Calms b (placeAck s n) := .ite (Calms.trySend h) (.ite h h)

theorem Calms.offerParts (n part : Nat) (h : Calms b s) : Calms b (offerParts n part s) := by
  induction n generalizing s part with
  | zero => exact h
  | succ n ih =>
    unfold Machine.offerParts
    split
    · next placed => exact ih (part + 1) (h.offerGeneral placed)
    · exact h

theorem Calms.respond {g : ReqHead} {result : ResultCode} {data : RspData} (h : Calms b s) :
    Calms b (respond s g result data) := by
  unfold Machine.respond
  cases placed : Machine.offerGeneral s g.source (some g.frameSeq) (.mgmtRsp g.tag result data) with
  | some t => exact h.offerGeneral placed
  | none => exact ⟨fun law => { h.loop law with drops := satInc_le (h.loop law).drops }, h.backoff, h.pump, h.setup, h.rotation⟩

theorem Calms.clearCounts (h : Calms b s) : Calms b (clearCounts s) :=
  ⟨fun law => { h.loop law with
    checks := Nat.zero_le _, headers := Nat.zero_le _, overruns := Nat.zero_le _, drops := Nat.zero_le _
    broadcasts := Nat.zero_le _ }, h.backoff, h.pump, h.setup, h.rotation⟩

end Calming

end Sys2Proof.Machine
end


section
/-! PROOF. Every step keeps the Loop Record, the backoff generator, the owners and the limit of R55. -/

namespace Sys2Proof.Machine

section Police

variable {b s t : State} {w : Well} {p : Pump}

/-! ## A manual RUN that passes (R65) -/

/-- A state in which a manual command is recorded for a pump that starts or runs. -/
structure ManualTo (p : Pump) (s t : State) : Prop where
  kept : Kept s t
  setup : t.setup = s.setup
  rotation : t.duty.rotation = s.duty.rotation
  others : ∀ q, q ≠ p → t.pump q = s.pump q
  commanded : startingOrRunning (t.pump p).state = true
  law : OwnerLaw (t.pump p)

theorem ManualTo.owner (h : ManualTo p s t) (q : Pump) (law : OwnerLaw (s.pump q)) : OwnerLaw (t.pump q) := by
  by_cases same : q = p
  · subst same; exact h.law
  · rw [h.others q same]; exact law

theorem ManualTo.core (h : ManualTo p s t) (core : Core s) : Core t where
  owners q := h.owner q (core.owners q)
  lists v q := by rw [h.rotation, wellOf_of_setup h.setup]; exact core.lists v q
  once v := by rw [h.rotation]; exact core.once v

/-- A pump that claims already takes no new place. -/
theorem ManualTo.evolves (h : ManualTo p s t) (before : claiming (s.pump p).state = true) : Evolves s t := by
  refine .of_claims h.kept h.owner h.setup h.rotation fun q claim => ?_
  by_cases same : q = p
  · subst same; exact before
  · rw [← h.others q same]; exact claim

/-- Elsewhere nothing changes. -/
theorem ManualTo.limit (h : ManualTo p s t) (core : Core s) (away : s.wellOf p ≠ some w) (limit : Limit s w) : Limit t w := by
  unfold Limit at *
  rw [commandedOrWaiting_eq, maxRunning_of_setup h.setup, h.rotation]
  refine (filter_states_le _ fun q member claim => ?_).trans limit
  have apart : q ≠ p := fun same => away (same ▸ (core.lists w q).mp member)
  rw [← h.others q apart]; exact claim

/-- One pump more is commanded to run. -/
theorem ManualTo.cap (h : ManualTo p s t) (core : Core s) (room : commandedRunning s w < maxRunning s w) : Cap t w := by
  have covered : ((s.duty.rotation.get w).filter fun q => startingOrRunning (t.pump q).state)
      ⊆ p :: ((s.duty.rotation.get w).filter fun q => startingOrRunning (s.pump q).state) := by
    intro q member
    obtain ⟨listed, runs⟩ := List.mem_filter.mp member
    by_cases same : q = p
    · exact same ▸ List.mem_cons_self
    · exact List.mem_cons_of_mem _ (List.mem_filter.mpr ⟨listed, by rw [← h.others q same]; exact runs⟩)
  have counted := (((core.once w).filter _).subperm covered).length_le
  rw [List.length_cons, ← commandedRunning_eq] at counted
  unfold Cap
  rw [commandedRunning_eq, maxRunning_of_setup h.setup, h.rotation]
  exact counted.trans room

theorem recorded_manualTo (s : State) (p : Pump) (src : Addr) (act : DriveAction) (speed : Nat) : ManualTo p s
    (recordManual (if startingOrRunning (s.pump p).state then s.setPump p { s.pump p with stopDeferred := false }
      else startManual s p) p src act speed) := by
  have law (r : PumpRecord) (manual : r.owner = .manual) (commanded : startingOrRunning r.state = true) : OwnerLaw r := by
    have states : r.state = .starting ∨ r.state = .running := by simpa [startingOrRunning] using commanded
    refine ⟨⟨fun no => ?_, fun no => ?_⟩, fun _ => states, fun _ => manual⟩
    · rw [manual] at no; cases no
    · rcases states with st | st <;> rw [no] at st <;> cases st
  split
  · next commanded =>
    exact ⟨.refl s, rfl, rfl, fun q apart => by simp [recordManual, apart], by simp [recordManual, commanded],
      law _ (by simp [recordManual]) (by simp [recordManual, commanded])⟩
  · exact ⟨.refl s, rfl, rfl, fun q apart => by simp [recordManual, startManual, enter, apart],
      by simp [recordManual, startManual, enter, inState, startingOrRunning],
      law _ (by simp [recordManual]) (by simp [recordManual, startManual, enter, inState, startingOrRunning])⟩

/-- A manual RUN keeps within max running where the well had room for one pump more. -/
theorem passRun_evolves (src : Addr) (act : DriveAction) (speed : Nat)
    (room : startingOrRunning (s.pump p).state = true ∨ ∀ w, s.wellOf p = some w → commandedRunning s w < maxRunning s w) :
    Evolves s (passRun s p src act speed) := by
  have recorded := recorded_manualTo s p src act speed
  unfold passRun
  dsimp only
  generalize recordManual (if startingOrRunning (s.pump p).state then s.setPump p { s.pump p with stopDeferred := false }
      else startManual s p) p src act speed = u at recorded
  rw [wellOf_of_setup recorded.setup]
  split
  · next w well =>
    have paced := evaluateWithin_paced u w
    rcases room with commanded | room
    · exact (recorded.evolves (claiming_of_commanded commanded)).then_paced paced
    · refine ⟨recorded.kept.trans paced.kept, fun q => paced.owner q ∘ recorded.owner q, paced.setup.trans recorded.setup,
        fun v => (paced.rotation v).trans (by rw [recorded.rotation]), fun core v limit => ?_⟩
      by_cases here : v = w
      · subst here
        exact evaluateWithin_limit (recorded.core core) (recorded.cap core (room v well))
      · refine paced.limit (recorded.core core) v (recorded.limit core ?_ limit)
        rw [well]
        exact fun same => here (Option.some.inj same).symm
  · next none =>
    exact ⟨recorded.kept, recorded.owner, recorded.setup, fun v => by rw [recorded.rotation],
      fun core v limit => recorded.limit core (by simp [none]) limit⟩

/-! ## Policing (R63 to R67) -/

theorem refuse_calms (src : Addr) (seq : BitVec 6) (act : DriveAction) (why : RefusalReason) :
    Calms s (refuse s p src seq act why) := by
  unfold refuse
  cases placed : offerControl s src (some seq) (.refusal (driveOf s p) act why) with
  | some t =>
    have after := (Calms.refl s).offerControl placed
    exact after
  | none => exact Calms.refl s

theorem runRefusal_room (fresh : startingOrRunning (s.pump p).state = false) (passes : runRefusal s p = none) :
    ∀ w, s.wellOf p = some w → commandedRunning s w < maxRunning s w := by
  intro w well
  by_contra full
  have full : maxRunning s w ≤ commandedRunning s w := Nat.le_of_not_lt full
  simp [runRefusal, fresh, well, full] at passes
  repeat' split at passes
  all_goals cases passes

theorem police_evolves (src : Addr) (claimed : Nat) (seq : BitVec 6) (act : DriveAction) (speed : Nat) :
    Evolves s (police s p src claimed seq act speed).1 := by
  unfold police
  split
  · exact (refuse_calms ..).evolves
  · cases act with
    | stop | float => exact settled (Calms.refl s).passStop.evolves
    | run | reverse =>
      dsimp only
      split
      · exact (refuse_calms ..).evolves
      · next passes =>
        split
        · next commanded => exact settled (passRun_evolves _ _ _ (.inl commanded))
        · next fresh =>
          split
          · next s' charged =>
            obtain ⟨budget, rfl⟩ : ∃ x, s' = { s with budget := x } := by
              unfold immediateCharge at charged
              dsimp only at charged
              split at charged
              · exact ⟨_, (Option.some.inj charged).symm⟩
              · cases charged
            have room : ∀ w, s.wellOf p = some w → commandedRunning s w < maxRunning s w :=
              runRefusal_room (Bool.not_eq_true _ ▸ fresh) passes
            have charging : Evolves s { s with budget := budget } := Calms.evolves (Calms.refl s)
            exact (charging.trans (passRun_evolves _ _ _ (.inr room))).then_paced (settle_paced s _)
          · exact (refuse_calms ..).evolves

/-! ## LP -/

theorem Calms.countHeader (h : Calms b s) : Calms b (countHeader s) :=
  ⟨fun law => { h.loop law with headers := satInc_le (h.loop law).headers }, h.backoff, h.pump, h.setup, h.rotation⟩
theorem Calms.countCheck (h : Calms b s) : Calms b (countCheck s) :=
  ⟨fun law => { h.loop law with checks := satInc_le (h.loop law).checks }, h.backoff, h.pump, h.setup, h.rotation⟩
theorem Calms.countBroadcast (h : Calms b s) : Calms b (countBroadcast s) :=
  ⟨fun law => { h.loop law with broadcasts := satInc_le (h.loop law).broadcasts }, h.backoff, h.pump, h.setup, h.rotation⟩

theorem Calms.joinForward {f : RawFrame} (h : Calms b s) : Calms b (joinForward s f) := by
  unfold Machine.joinForward
  split
  · next room =>
    have joined : Calms b { s with lp := { s.lp with forward := s.lp.forward ++ [f] } } :=
      ⟨fun law => { h.loop law with forward := by simp; omega }, h.backoff, h.pump, h.setup, h.rotation⟩
    exact joined.raiseIf _ _
  · exact ⟨fun law => { h.loop law with overruns := satInc_le (h.loop law).overruns }, h.backoff, h.pump, h.setup, h.rotation⟩

theorem Calms.noteGood (h : Calms b s) : Calms b (noteGood s) :=
  ⟨fun law => { h.loop law with }, fun law => backoffStep_ne_zero (h.backoff law), h.pump, h.setup, h.rotation⟩

theorem Calms.handFrame {f : RawFrame} (h : Calms b s) : Calms b (handFrame s f) := by
  unfold Machine.handFrame
  split
  case h_3 => exact (h.raiseIf _ _).raiseIf _ _
  all_goals exact h

theorem policeFrame_evolves (p : Pump) (f : RawFrame) : Evolves s (policeFrame s p f).1 := by
  unfold policeFrame
  split
  · exact police_evolves ..
  · exact (Calms.refl s).countHeader.evolves

theorem disposeFrame_evolves (f : RawFrame) : Evolves s (disposeFrame s f) := by
  have handed : Evolves s (handFrame s f) := (Calms.refl s).handFrame.evolves
  have forwarded : Evolves s (joinForward (handFrame s f) f) := (Calms.refl s).handFrame.joinForward.evolves
  have consumed : Evolves s (consumeFrame s f) := by
    unfold consumeFrame handRequest
    split
    · split
      · exact Calms.evolves (Calms.refl s)
      · exact .refl s
    · exact Calms.evolves (Calms.refl s)
    · exact policeFrame_evolves _ f
    · exact handed
  have broadcast : Evolves s (broadcastFrame s f) := by
    unfold broadcastFrame
    split
    · exact (Calms.refl s).countBroadcast.evolves
    · exact forwarded
  have passed : Evolves s (passFrame s f) := by
    unfold passFrame
    split
    · dsimp only
      split
      · exact (policeFrame_evolves _ f).then_calms (Calms.refl _).joinForward
      · exact policeFrame_evolves _ f
    · exact forwarded
  unfold disposeFrame
  split
  · exact .refl s
  · split
    · exact consumed
    · split
      · exact broadcast
      · exact passed

theorem arriveFrame_evolves (f : RawFrame) : Evolves s (arriveFrame s f) := by
  have noted : Calms s (noteGood s) := (Calms.refl s).noteGood
  unfold arriveFrame
  dsimp only
  split
  · split
    · exact noted.countHeader.evolves
    · exact noted.evolves.trans (disposeFrame_evolves f)
  · exact (Calms.refl s).countCheck.evolves

theorem LoopLaw.sendInserted {l : Loop} (h : LoopLaw l) : LoopLaw (sendInserted l) := by
  unfold Machine.sendInserted
  split
  · next queue => exact { h with
      control := by have := h.control; rw [queue, List.length_cons] at this; dsimp only; omega
      turns := Nat.zero_le _ }
  · next queue => exact { h with
      general := by have := h.general; rw [queue, List.length_cons] at this; dsimp only; omega
      turns := Nat.zero_le _ }
  · exact h

theorem LoopLaw.chooseFrame {l : Loop} (h : LoopLaw l) : LoopLaw (chooseFrame l) := by
  unfold Machine.chooseFrame
  split
  · next queue =>
    have forward := h.forward
    rw [queue, List.length_cons] at forward
    split
    · split
      · exact { h with forward := by dsimp only; omega, turns := by dsimp only; omega }
      · exact h.sendInserted
    · exact { h with forward := by dsimp only; omega, turns := Nat.zero_le _ }
  · exact h.sendInserted

end Police

end Sys2Proof.Machine
end


section
/-! PROOF. Every command but a commit, a restart and the supply's own keeps the laws of LP and DC. -/

namespace Sys2Proof.Machine

section Evolving

variable {b s t : State}

theorem calms_of_parts (lp : t.lp = s.lp) (duty : t.duty = s.duty) (pumps : t.pumps = s.pumps) (setup : t.setup = s.setup) :
    Calms s t := by
  unfold Calms
  rw [lp, duty, pumps]
  exact ⟨id, id, fun _ => .refl _, setup, rfl⟩

/-- A command that leaves LP, DC and the active setup. -/
theorem calms_of_mask (mask : State → State) (lp : ∀ u, (mask u).lp = u.lp) (duty : ∀ u, (mask u).duty = u.duty)
    (pumps : ∀ u, (mask u).pumps = u.pumps) (h : mask t = mask s) (setup : t.setup = s.setup) : Calms s t :=
  calms_of_parts (eq_of_mask mask State.lp lp h) (eq_of_mask mask State.duty duty h) (eq_of_mask mask State.pumps pumps h) setup

variable {f : State → State}

theorem live_calms (h : Calms s (f s)) : Yields Evolves s (whenLive s f) := live_evolves h.evolves
theorem due_calms {x : Option Ms} (h : Calms s (f s)) : Yields Evolves s (whenDue s x f) := due_evolves h.evolves

theorem exec_cu_evolves {c : Instr} (s : State) (block : blockOf c = .cu) : Yields Evolves s (exec c s) := by
  have here : Calms s s := .refl s
  cases c <;> try cases block
  case sampleFrame src payload =>
    apply live_calms
    split
    · exact .each (fun _ _ h => h.takeReading) _ here
    · exact here
  case edgeFrame src payload =>
    apply live_calms
    repeat' split
    all_goals first | exact here | exact here.takeEdge
  case stalenessDeadline q =>
    apply due_calms
    exact .ite here here
  case holdDeadline q =>
    apply due_calms
    exact .ite here here
  case floatContradiction w first second =>
    apply live_calms
    exact here.contradict.contradict
  case surgeNotice w =>
    apply live_calms
    exact here
  case referenceIntervalExpiry q =>
    apply due_calms
    split
    · exact .ite here (Calms.requestReference here)
    · exact here
  case referenceRetry q =>
    apply due_calms
    split
    · exact here.requestReference
    · exact here
  case referenceTimeout q =>
    apply due_calms
    exact here
  case cadenceRepeatExpiry node =>
    apply due_calms
    exact Calms.offerCadence here
  case cadenceRetry node =>
    apply due_calms
    exact here.offerCadence
  case stationStateToCu st =>
    apply live_calms
    exact here.offerCadenceAll

theorem exec_sc_evolves {c : Instr} (s : State) (block : blockOf c = .sc) : Yields Evolves s (exec c s) := by
  have here : Calms s s := .refl s
  cases c <;> try cases block
  case wellRecordDeliverySc w d =>
    apply live_calms
    exact .each (fun _ _ h => h.screenDelivery) _ here
  case upstreamLevelUpdate k u =>
    apply live_calms
    exact here.recomputeDifferential.evaluateScreen.reblind
  case homeOffEdge k at_ =>
    apply live_calms
    refine Calms.reblind ?_
    dsimp only
    split
    · exact .ite here.confirmRake here.confirmRake
    · exact .ite here.confirmRake here.confirmRake
    · exact .ite here.confirmRake here.confirmRake
    · exact here.confirmRake
  case homeOnEdge k at_ =>
    apply live_calms
    refine Calms.reblind ?_
    dsimp only
    split
    · exact .ite here.completeCycle here
    · exact here.endReverse
    · exact here
  case homeQualityNotice k u =>
    apply live_calms
    exact Calms.reblind (.ite here.evaluateScreen here)
  case rakeGrant k =>
    apply live_calms
    exact Calms.reblind (.ite (Calms.cycleStart here) here)
  case rakeDriveStat src payload =>
    apply live_calms
    split
    · exact Calms.reblind (Calms.takeRakeReport here)
    · exact here
  case rakeShed k =>
    apply live_calms
    refine Calms.reblind (.ite here ?_)
    have freed := (Calms.buildRake (k := k) (change := true) (s := rakeEnter s k .shed) here).rakeRelease (k := k)
    exact freed
  case leaveDeadlineExpiry k =>
    apply due_calms
    exact Calms.reblind (.ite here.declareJam here)
  case cycleDeadlineExpiry k =>
    apply due_calms
    exact Calms.reblind (.ite here.declareJam here)
  case reverseEnd k =>
    apply due_calms
    exact Calms.reblind (.ite here.endReverse here)
  case pauseEnd k =>
    apply due_calms
    exact Calms.reblind (.ite here.cycleStart here)
  case intervalTimerExpiry k =>
    apply due_calms
    have restarted : Calms s (restartInterval s k) := here
    exact Calms.reblind (.ite restarted.rakeTrigger restarted)
  case hourTimerExpiry =>
    apply due_calms
    refine Calms.each (fun s k h => ?_) _ ?_
    · exact h
    · exact here
  case rakeRefreshExpiry k =>
    apply due_calms
    exact Calms.reblind (Calms.buildRake here)
  case rakeCommandRetry k =>
    apply due_calms
    exact Calms.reblind here.buildRake
  case stationStateToSc st =>
    apply live_calms
    split
    · refine Calms.each (fun s k h => ?_) _ here
      exact h
    · exact here

theorem exec_elr_evolves {c : Instr} (s : State) (block : blockOf c = .elr) : Yields Evolves s (exec c s) := by
  have here : Calms s s := .refl s
  cases c <;> try cases block
  case recordSubmission body =>
    apply live_calms
    exact here.tryLost.judgeRecord
  case reportRetry =>
    apply due_calms
    exact here.trySend
  case reportAck src payload =>
    apply live_calms
    split
    · exact here.placeAck
    · exact here
  case reportTimerExpiry =>
    apply due_calms
    exact Calms.trySend here
  case statusTimerExpiry =>
    apply due_calms
    exact Calms.offerParts 4 1 here
  case statusPartRetry =>
    apply due_calms
    split
    · exact here.offerParts _ _
    · exact here
  case stationStateToElr st =>
    apply live_calms
    exact Calms.offerParts 4 1 here

theorem exec_lp_evolves {c : Instr} (s : State) (block : blockOf c = .lp) (steady : ¬ powers c) :
    Yields Evolves s (exec c s) := by
  cases c <;> try cases block
  case powerOn strap => exact absurd (.inl ⟨strap, rfl⟩) steady
  case powerLoss => exact absurd (.inr rfl) steady
  case frameArrival f =>
    apply live_evolves
    exact arriveFrame_evolves f
  case forwardOnlyArrival f => exact yields_ite (R := Evolves) (.refl s) (Calms.refl s).joinForward.evolves
  case loopOutFree finished =>
    refine yields_ite (R := Evolves) (.refl s) (Calms.evolves ?_)
    have chosen (l : Loop) (law : LoopLaw s.lp → LoopLaw l) : Calms s (s.setLp (chooseFrame l)) :=
      ⟨fun h => (law h).chooseFrame, id, fun _ => .refl _, rfl, rfl⟩
    split
    · exact chosen _ fun h => { h with }
    · exact .ite (chosen _ id) (.refl s)
  case silenceTimerExpiry =>
    apply due_calms
    exact ⟨fun h => { h with }, id, fun _ => .refl _, rfl, rfl⟩

/-! ## Gates and requests of MU -/

theorem dutyGate_evolves {x : State × Bool} (h : Evolves s x.1) : Evolves s (dutyGate s x).1 := by
  unfold dutyGate
  split
  · exact settled h
  · exact .refl s

theorem rotateGate_evolves (w : Well) : Evolves s (rotateGate s w).1 := by
  unfold rotateGate
  dsimp only
  split
  · exact (rotated_paced s w _).toEvolves.then_paced (evaluateLive_paced _ w)
  · exact .refl s

theorem applyGate_evolves (a : GateAction) (g : GateTarget) : Evolves s (applyGate s a g).1 := by
  have here : Calms s s := .refl s
  unfold applyGate
  split
  · exact dutyGate_evolves here.pumpEnable.evolves
  · exact dutyGate_evolves here.pumpDisable.evolves
  · exact dutyGate_evolves here.pumpClear.evolves
  · exact dutyGate_evolves here.pumpRelease.evolves
  · exact dutyGate_evolves (rotateGate_evolves _)
  · refine Calms.evolves ?_
    unfold rakeRun
    split
    · exact here
    · exact here.rakeTrigger.reblind
  · refine Calms.evolves ?_
    unfold rakeEnable
    split
    · exact Calms.reblind here
    · exact here
  · refine Calms.evolves ?_
    unfold rakeDisable
    split
    · exact here
    · exact here.disableRake.reblind
  · refine Calms.evolves ?_
    unfold screenClear
    split
    · exact Calms.reblind here
    · exact here
  · refine Calms.evolves ?_
    unfold channelClear
    split
    · split
      · exact here.leaveSuspect
      · exact here
    · exact here
  · refine Calms.evolves ?_
    unfold refCheck
    split
    · split
      · exact here.requestReference
      · exact here
    · exact here
  · exact (calms_of_mask ssuMask (fun _ => rfl) (fun _ => rfl) (fun _ => rfl) (forceStorm_su s)
      (eq_of_mask ssuMask State.setup (fun _ => rfl) (forceStorm_su s))).evolves
  · exact (calms_of_mask ssuMask (fun _ => rfl) (fun _ => rfl) (fun _ => rfl) (allowDry_su s)
      (eq_of_mask ssuMask State.setup (fun _ => rfl) (allowDry_su s))).evolves
  · exact .refl s

/-! ## Commits of tables other than the Station Setup -/

theorem completeCommit_calms {id : TableId} (other : id ≠ .stationSetup) (h : Calms b s) : Calms b (completeCommit s id) := by
  unfold completeCommit
  split
  · refine ⟨h.loop, h.backoff, h.pump, ?_, h.rotation⟩
    have same : (exchangeTable s.tables id).setup = s.tables.setup := exchangeTable_setup _ other
    exact (congrArg Banks.active same).trans h.setup
  · exact h

theorem updateSlot_calms {o : Point} {f : Slot → Slot} (h : Calms b s) : Calms b (updateSlot s o f) := h

theorem takeWeir_calms {o : Point} (h : Calms b s) : Calms b (takeWeir s o) := by
  unfold takeWeir
  dsimp only
  split
  · split
    · exact completeCommit_calms (by decide) (updateSlot_calms h)
    · exact updateSlot_calms h
  · exact h

theorem takeSampleMap_calms (old : List SampleEntry) (h : Calms b s) : Calms b (takeSampleMap old s) := by
  have switched : Calms b (State.each (switchChannel old (mapEntries s)) Quantity.all s) := by
    refine .each (fun s q h => ?_) _ h
    unfold switchChannel keepChannel
    repeat' split
    all_goals exact h
  exact .each (fun _ _ h => h.offerCadence) _ switched

theorem arrange_calms {id : TableId} (other : id ≠ .stationSetup) (h : Calms b s) : Calms b (arrange s id) := by
  unfold arrange
  split
  · exact takeSampleMap_calms _ (completeCommit_calms other h)
  · exact absurd rfl other
  · exact completeCommit_calms other h
  · exact completeCommit_calms other h
  · exact h
  · exact ⟨h.loop, h.backoff, h.pump, h.setup, h.rotation⟩
  · refine .each (fun s o h => ?_) _ h
    split
    · exact takeWeir_calms h
    · exact h

end Evolving

end Sys2Proof.Machine
end


section
/-! PROOF. A Station Setup switch, a restart and the supply keep the laws of LP and DC; every step does. -/

namespace Sys2Proof.Machine

section Switch

variable {b s t u : State} {w : Well} {p : Pump} {old : Setup}

/-! ## The switch in DC (R47) -/

theorem Calms.switchSilent (h : Calms b s) : Calms b (switchSilent s p) := Calms.retouch (Calms.enter h rfl) rfl rfl rfl

theorem Calms.moveWell (h : Calms b s) : Calms b (moveWell s p) := by
  unfold Machine.moveWell
  split
  · exact h.releaseCharge.enter rfl
  · split
    · exact h.releaseCharge.toFloat
    · split
      · exact Calms.retouch h.switchSilent rfl rfl rfl
      · exact Calms.retouch h.switchSilent rfl rfl rfl
      · exact h

theorem Calms.moveDrive (h : Calms b s) : Calms b (moveDrive s p) := by
  unfold Machine.moveDrive
  split
  · exact h.retouch rfl rfl rfl
  · exact h.retouch rfl rfl rfl
  · exact Calms.retouch h.switchSilent rfl rfl rfl

theorem Calms.switchPump (h : Calms b s) : Calms b (switchPump old s p) := by
  have moved : Calms b (if old.wellOf p = s.wellOf p then s else Machine.moveWell s p) := .ite h h.moveWell
  unfold Machine.switchPump
  dsimp only
  generalize (if old.wellOf p = s.wellOf p then s else Machine.moveWell s p) = x at moved
  have driven : Calms b (if old.drive.get p = x.setup.drive.get p then x else Machine.moveDrive x p) := .ite moved moved.moveDrive
  generalize (if old.drive.get p = x.setup.drive.get p then x else Machine.moveDrive x p) = y at driven
  have kinded : Calms b (if old.kind.get p = y.setup.kind.get p then y else moveKind y p) :=
    .ite driven (Calms.retouch driven rfl rfl rfl)
  generalize (if old.kind.get p = y.setup.kind.get p then y else moveKind y p) = z at kinded
  exact kinded.retouch rfl rfl rfl

theorem Calms.stopOver (h : Calms b s) : Calms b (stopOver w s p) := .ite h.stopPump h

theorem Calms.lowerMaximum (h : Calms b s) : Calms b (lowerMaximum old s w) := .ite (.each (fun _ _ h => h.stopOver) _ h) h

theorem Calms.refitWell (h : Calms b s) : Calms b (refitWell old s w) := by
  have fitted : Calms b (State.each (Machine.evalInterlock (deliveryOf (s.well w))) (s.setup.pumpsOf w) s) :=
    .each (fun _ _ h => h.evalInterlock) _ h
  unfold Machine.refitWell
  dsimp only
  split
  · exact fitted
  · exact .each (fun _ _ h => .ite h.restage h) _ fitted

/-- Stopping over a list ends within max running, or with no pump of the list commanded to run. -/
theorem each_stopOver (list : List Pump) (s : State) :
    Cap (State.each (stopOver w) list s) w
    ∨ ∀ p ∈ list, startingOrRunning ((State.each (stopOver w) list s).pump p).state = false := by
  induction list generalizing s with
  | nil => exact .inr (by simp)
  | cons x xs ih =>
    have later : Calms (stopOver w s x) (State.each (stopOver w) xs (stopOver w s x)) :=
      .each (fun _ _ h => h.stopOver) xs (.refl _)
    rcases ih (stopOver w s x) with within | free
    · exact .inl within
    · by_cases fits : Cap s w
      · exact .inl (later.cap ((Calms.refl s).stopOver.cap fits))
      · refine .inr fun p member => ?_
        rcases List.mem_cons.mp member with rfl | among
        · have given : (stopOver w s p).pump p = (stopPump s p true).pump p := by
            unfold stopOver
            rw [if_pos (Nat.lt_of_not_le fits)]
          have stopped : ((stopOver w s p).pump p).state = .stopping := by rw [given]; exact stopPump_state s p true
          rcases (later.pump p).state with same | ceased
          · exact congrArg startingOrRunning (same.trans stopped)
          · exact idle_of_unclaimed ceased
        · exact free p among

/-- The pumps that a lowered max running may stop are all those commanded to run. -/
theorem mem_stopOrder (core : Core s) (listed : p ∈ s.duty.rotation.get w) (commanded : startingOrRunning (s.pump p).state = true) :
    p ∈ stopOrder s w := by
  have states : (s.pump p).state = .starting ∨ (s.pump p).state = .running := by simpa [startingOrRunning] using commanded
  have owners : (s.pump p).owner = .auto ∨ (s.pump p).owner = .manual := by
    cases h : (s.pump p).owner with
    | auto => exact .inl rfl
    | manual => exact .inr rfl
    | float =>
      have st := (core.owners p).float.mp h
      rcases states with r | r <;> rw [st] at r <;> cases r
  unfold stopOrder
  rcases states with st | st <;> rcases owners with ow | ow <;> simp [listed, st, ow]

theorem lowerMaximum_cap (core : Core s) (before : commandedRunning s w ≤ (old.maxRunning.get w).toNat) :
    Cap (lowerMaximum old s w) w := by
  unfold lowerMaximum
  split
  · have calm : Calms s (State.each (stopOver w) (stopOrder s w) s) := .each (fun _ _ h => h.stopOver) _ (.refl s)
    rcases each_stopOver (w := w) (stopOrder s w) s with within | free
    · exact within
    · have nobody : commandedRunning (State.each (stopOver w) (stopOrder s w) s) w = 0 := by
        rw [commandedRunning_eq, calm.rotation, List.length_eq_zero_iff, List.filter_eq_nil_iff]
        intro p listed commanded
        have before := calm.claim (fun _ => idle_of_unclaimed) p commanded
        have stopped := free p (mem_stopOrder core listed before)
        rw [commanded] at stopped
        cases stopped
      unfold Cap
      omega
  · next kept =>
    unfold Cap maxRunning
    omega

/-- What a switch keeps of LP and DC, and that the part ends within the limit of R55 where it began there. -/
structure Lawful (s t : State) : Prop where
  kept : Kept s t
  owner : (∀ p, OwnerLaw (s.pump p)) → ∀ p, OwnerLaw (t.pump p)
  limit : RunningLaw s → RunningLaw t

theorem Evolves.lawful (h : Evolves s t) : Lawful s t := ⟨h.kept, fun law p => h.owner p (law p), h.runningLaw⟩

theorem Lawful.evolves (h : Lawful s t) (k : Evolves t u) : Lawful s u :=
  ⟨h.kept.trans k.kept, fun law p => k.owner p (h.owner law p), fun law => k.runningLaw (h.limit law)⟩

theorem Lawful.trans (h : Lawful s t) (k : Lawful t u) : Lawful s u :=
  ⟨h.kept.trans k.kept, k.owner ∘ h.owner, k.limit ∘ h.limit⟩

/-- The Rotation Lists after the switch (R48). -/
theorem mem_switchList {new : Setup} {list : List Pump} (listed : ∀ p, p ∈ list ↔ old.wellOf p = some w) (p : Pump) :
    p ∈ switchList old new w list ↔ new.wellOf p = some w := by
  have all : p ∈ Pump.all := by cases p <;> decide
  simp only [switchList, List.mem_append, List.mem_filter, listed, all, true_and, Bool.and_eq_true, beq_iff_eq, bne_iff_ne]
  tauto

theorem switchList_nodup {new : Setup} {list : List Pump} (listed : ∀ p, p ∈ list → old.wellOf p = some w) (once : list.Nodup) :
    (switchList old new w list).Nodup := by
  refine (once.filter _).append (List.Nodup.filter _ (by decide)) ?_
  intro p here there
  have was := listed p (List.mem_filter.mp here).1
  simp [was] at there

/-- The pumps that a new setup assigns otherwise are in a state that allows it (R46). -/
def Assignable (s : State) (new : Setup) : Prop :=
  ∀ p, new.well.get p ≠ s.setup.well.get p → pumpMayChange (s.pump p).state = true

theorem claiming_of_mayChange {st : PumpState} (h : pumpMayChange st = true) : startingOrRunning st = false := by
  cases st <;> simp_all [pumpMayChange, startingOrRunning]

/-- The state as DC begins to take a switch: the Rotation Lists are those of the new setup. -/
def relisted (old : Setup) (s : State) : State :=
  { s with duty := { s.duty with
    rotation := ⟨switchList old s.setup .a s.duty.rotation.a, switchList old s.setup .b s.duty.rotation.b⟩ } }

theorem relisted_get (w : Well) :
    (relisted old s).duty.rotation.get w = switchList old s.setup w (s.duty.rotation.get w) := by cases w <;> rfl

theorem relisted_core (core : Core b) (was : b.setup = old) (pumps : s.pumps = b.pumps) (duty : s.duty = b.duty) :
    Core (relisted old s) := by
  subst was
  refine ⟨fun p => ?_, fun w p => ?_, fun w => ?_⟩
  · show OwnerLaw (s.pumps.get p)
    rw [pumps]; exact core.owners p
  · rw [relisted_get, duty]
    exact mem_switchList (core.lists w) p
  · rw [relisted_get, duty]
    exact switchList_nodup (fun p => (core.lists w p).mp) (core.once w)

/-- A pump that the switch moves is not commanded to run, so the switch commands no more pumps of a well. -/
theorem relisted_count (core : Core b) (was : b.setup = old) (pumps : s.pumps = b.pumps) (duty : s.duty = b.duty)
    (assignable : Assignable b s.setup) (w : Well) : commandedRunning (relisted old s) w ≤ commandedRunning b w := by
  have core' := relisted_core core was pumps duty
  rw [commandedRunning_eq, commandedRunning_eq]
  refine (((core'.once w).filter _).subperm fun p member => ?_).length_le
  obtain ⟨listed, commanded⟩ := List.mem_filter.mp member
  have commanded : startingOrRunning (b.pump p).state = true := by
    have same : (relisted old s).pump p = b.pump p := congrArg (·.get p) pumps
    rw [same] at commanded; exact commanded
  have stays : s.setup.well.get p = b.setup.well.get p := by
    by_contra moved
    rw [claiming_of_mayChange (assignable p moved)] at commanded
    cases commanded
  have well : b.wellOf p = some w := by
    rw [← (core'.lists w p).mp listed]
    show setupWellOf b.setup p = setupWellOf s.setup p
    unfold setupWellOf
    rw [stays]
  exact List.mem_filter.mpr ⟨(core.lists w p).mpr well, commanded⟩

theorem Calms.core (h : Calms s t) (core : Core s) : Core t := h.evolves.core core

theorem Calms.count (h : Calms s t) (w : Well) : commandedRunning t w ≤ commandedRunning s w := by
  rw [commandedRunning_eq, commandedRunning_eq, h.rotation]
  exact filter_states_le _ fun p _ => h.claim (fun _ => idle_of_unclaimed) p

theorem each_wells (f : State → Well → State) (s : State) : State.each f Well.all s = f (f s .a) .b := rfl

/-- The stops for a lowered max running, the refitting and the evaluation: what they keep, and that they end within the limit. -/
theorem lowered_lawful {x y : State} (old : Setup) (calm1 : Calms x y) :
    Paced x (State.each evaluateWithin Well.all (State.each (refitWell old) Well.all (State.each (lowerMaximum old) Well.all y)))
    ∧ (Core x → (∀ w, commandedRunning x w ≤ (old.maxRunning.get w).toNat) →
        RunningLaw (State.each evaluateWithin Well.all
          (State.each (refitWell old) Well.all (State.each (lowerMaximum old) Well.all y)))) := by
  rw [each_wells evaluateWithin, each_wells (lowerMaximum old)]
  have calmA : Calms y (lowerMaximum old y .a) := (Calms.refl y).lowerMaximum
  have calmB : Calms (lowerMaximum old y .a) (lowerMaximum old (lowerMaximum old y .a) .b) := (Calms.refl _).lowerMaximum
  have capA := fun core => lowerMaximum_cap (s := y) (old := old) (w := .a) core
  have capB := fun core => lowerMaximum_cap (s := lowerMaximum old y .a) (old := old) (w := .b) core
  generalize lowerMaximum old y .a = ya at *
  generalize lowerMaximum old ya .b = yb at *
  have calmC : Calms yb (State.each (refitWell old) Well.all yb) := .each (fun _ _ h => h.refitWell) _ (.refl yb)
  generalize State.each (refitWell old) Well.all yb = yc at *
  have pacedA := evaluateWithin_paced yc .a
  have limitA := fun core => evaluateWithin_limit (s := yc) (w := .a) core
  generalize evaluateWithin yc .a = yd at *
  have pacedB := evaluateWithin_paced yd .b
  have limitB := fun core => evaluateWithin_limit (s := yd) (w := .b) core
  generalize evaluateWithin yd .b = ye at *
  have calm : Calms x yc := ((calm1.trans calmA).trans calmB).trans calmC
  refine ⟨(calm.paced.trans pacedA).trans pacedB, fun core count => ?_⟩
  have core1 := calm1.core core
  have within_a : Cap yc .a := calmC.cap (calmB.cap (capA core1 ((calm1.count .a).trans (count .a))))
  have within_b : Cap yc .b := calmC.cap (capB (calmA.core core1) (((calm1.trans calmA).count .b).trans (count .b)))
  have core3 := calm.core core
  have core4 := pacedA.core core3
  refine runningLaw_iff.mpr ⟨pacedB.core core4, fun w => ?_⟩
  cases w with
  | a => exact pacedB.limit core4 .a (limitA core3 within_a)
  | b => exact limitB core4 (pacedA.cap core3 .b within_b)

/-- DC's part of the switch, from the state with the new lists. -/
theorem switchDuty_lawful (old : Setup) (s : State) : Kept s (switchDuty old s)
    ∧ (∀ p, OwnerLaw (s.pump p) → OwnerLaw ((switchDuty old s).pump p))
    ∧ (Core (relisted old s) → (∀ w, commandedRunning (relisted old s) w ≤ (old.maxRunning.get w).toNat) →
        RunningLaw (switchDuty old s)) := by
  have calm : Calms (relisted old s) (State.each (switchPump old) Pump.all (relisted old s)) :=
    .each (fun _ _ h => h.switchPump) _ (.refl _)
  obtain ⟨paced, limited⟩ := lowered_lawful old calm
  exact ⟨Kept.trans (t := relisted old s) (.refl s) paced.kept, paced.owner, limited⟩

/-- The parts of SB, SC and SSU leave DC. -/
theorem takeSetup_rest (s : State) : Calms s (switchStation (switchScreens old (switchBudget old s))) := by
  have budget : Calms s (switchBudget old s) := calms_of_mask sbMask (fun _ => rfl) (fun _ => rfl) (fun _ => rfl)
    (switchBudget_sb old s) (eq_of_mask sbMask State.setup (fun _ => rfl) (switchBudget_sb old s))
  have screens : Calms s (switchScreens old (switchBudget old s)) := by
    refine .each (fun s k h => ?_) _ budget
    exact Calms.reblind (Calms.evaluateScreen h)
  exact screens.trans (calms_of_mask ssuMask (fun _ => rfl) (fun _ => rfl) (fun _ => rfl)
    (switchStation_su _) (eq_of_mask ssuMask State.setup (fun _ => rfl) (switchStation_su _)))

/-- The switch of all blocks, in a state that differs from the one before in tables, MU's record and free values. -/
theorem takeSetup_lawful (lp : s.lp = b.lp) (duty : s.duty = b.duty) (pumps : s.pumps = b.pumps)
    (assignable : Assignable b s.setup) : Lawful b (takeSetup b s) := by
  let s1 := State.each (switchWell b.setup) Well.all s
  have wells : s1.lp = b.lp ∧ s1.duty = b.duty ∧ s1.pumps = b.pumps ∧ s1.setup = s.setup := by
    have one : s1 = switchWell b.setup (switchWell b.setup s .a) .b := rfl
    rw [one, switchWell_keeps b.setup (switchWell b.setup s .a) .b, switchWell_keeps b.setup s .a]
    exact ⟨lp, duty, pumps, rfl⟩
  obtain ⟨lp1, duty1, pumps1, setup1⟩ := wells
  obtain ⟨kept, owner, law⟩ := switchDuty_lawful b.setup s1
  have rest : Evolves (switchDuty b.setup s1) (takeSetup b s) :=
    (settle_paced b (switchDuty b.setup s1)).toEvolves.then_calms (takeSetup_rest _)
  have from_b : Kept b s1 := by
    unfold Kept
    rw [lp1, duty1]
    exact ⟨id, id⟩
  have lawful : Lawful b (switchDuty b.setup s1) := by
    refine ⟨from_b.trans kept, fun before p => owner p ?_, fun before => ?_⟩
    · show OwnerLaw (s1.pumps.get p)
      rw [pumps1]; exact before p
    · obtain ⟨core, limit⟩ := runningLaw_iff.mp before
      refine law (relisted_core core rfl pumps1 duty1) fun w => ?_
      exact (relisted_count core rfl pumps1 duty1 (by rw [setup1]; exact assignable) w).trans (limit w).cap
  exact lawful.evolves rest

theorem assignable_of_conflict (none : setupConflict s = none) : Assignable s s.tables.setup.inactive := by
  intro p moved
  by_contra no
  have found : pumpConflict s s.tables.setup.inactive ≠ Option.none := by
    unfold pumpConflict
    rw [Ne, List.find?_eq_none]
    intro free
    exact free p (by cases p <;> decide) (by simp [moved, no])
  unfold setupConflict at none
  cases h : pumpConflict s s.tables.setup.inactive with
  | none => exact found h
  | some p => rw [h] at none; cases none

theorem awaited (m : Management) : Calms s { s with mu := m } := Calms.refl s

/-- The Station Setup's own switch: the banks are exchanged, and every block takes the new setup. -/
theorem takeSetup_commit_lawful (h : ReqHead) (free : setupConflict s = none) :
    Lawful s (scheduleCommit s h .stationSetup) := by
  have switched : Lawful { s with mu := { s.mu with commit := .scheduled .stationSetup h } }
      (scheduleCommit s h .stationSetup) :=
    takeSetup_lawful rfl rfl rfl (assignable_of_conflict free)
  exact (awaited _).evolves.lawful.trans switched

theorem commitTable_lawful (h : ReqHead) (id : TableId) : Lawful s (commitTable s h id) := by
  have answer (r : ResultCode) (d : RspData) : Lawful s (respond s h r d) := (Calms.refl s).respond.evolves.lawful
  have scheduled {id : TableId} (other : id ≠ .stationSetup) : Lawful s (scheduleCommit s h id) :=
    (arrange_calms (s := { s with mu := { s.mu with commit := .scheduled id h } }) other (awaited _)).evolves.lawful
  unfold commitTable
  split
  · exact answer _ _
  · split
    · exact answer _ _
    · split
      · split
        · exact answer _ _
        · next free => exact takeSetup_commit_lawful h free
      · next other => exact scheduled fun same => other same

end Switch

end Sys2Proof.Machine
end


section
/-! PROOF. The supply, a restart and every command keep the laws of LP and DC. -/

namespace Sys2Proof.Machine

section Fresh

variable {s t u : State}

/-- DC as a reset leaves it, but for what its blocks originate: no pump runs or waits, and the lists are those of the setup. -/
structure Fresh (s : State) : Prop where
  owner : ∀ p, OwnerLaw (s.pump p)
  idle : ∀ p, claiming (s.pump p).state = false
  rotation : ∀ w, s.duty.rotation.get w = s.setup.pumpsOf w
  backoff : s.duty.backoff ≠ 0

theorem mem_setupPumps (setup : Setup) (w : Well) (p : Pump) : p ∈ setup.pumpsOf w ↔ setup.wellOf p = some w := by
  have all : p ∈ Pump.all := by cases p <;> decide
  simp [Setup.pumpsOf, all]

theorem Fresh.runningLaw (h : Fresh s) : RunningLaw s := by
  refine runningLaw_iff.mpr ⟨⟨h.owner, fun w p => ?_, fun w => ?_⟩, fun w => ?_⟩
  · rw [h.rotation]
    exact mem_setupPumps _ w p
  · rw [h.rotation]
    exact List.Nodup.filter _ (by decide)
  · have nobody : commandedOrWaiting s w = 0 := by
      rw [commandedOrWaiting_eq, List.length_eq_zero_iff, List.filter_eq_nil_iff]
      intro p _ claims
      rw [h.idle p] at claims
      cases claims
    unfold Limit
    omega

theorem Fresh.lawful (h : Fresh t) (loop : LoopLaw s.lp → LoopLaw t.lp) : Lawful s t :=
  ⟨⟨loop, fun _ => h.backoff⟩, fun _ => h.owner, fun _ => h.runningLaw⟩

theorem fresh_resetBlocks (s : State) (l : Loop) : Fresh (resetBlocks s l) := by
  have record (p : Pump) : (resetBlocks s l).pump p = PumpRecord.reset (resetBlocks s l).setup 0 p := PerPump.get_make _ p
  refine ⟨fun p => ?_, fun p => ?_, fun w => by cases w <;> rfl, (by decide : (0xACE1#16) ≠ 0)⟩
  · rw [record]
    unfold PumpRecord.reset
    split <;> constructor <;> simp
  · rw [record]
    unfold PumpRecord.reset
    split <;> rfl

theorem fresh_stopTimers (h : Fresh s) : Fresh (stopTimers s) := by
  have record (p : Pump) : (stopTimers s).pump p = { s.pump p with statusAt := none, refreshAt := none } := PerPump.get_make _ p
  refine ⟨fun p => ?_, fun p => ?_, h.rotation, h.backoff⟩
  · rw [record]
    exact { h.owner p with }
  · rw [record]
    exact h.idle p

theorem Calms.bootFrames (h : Calms s t) : Calms s (bootFrames t) := by
  have reported : Calms s (reportFaults t) := h
  refine .each (fun u p k => ?_) _ reported.offerCadenceAll
  split
  · exact k.buildCommand
  · exact k

theorem loopLaw_of_reset {a : Nat} (address : a ≤ 63) : LoopLaw (Loop.reset a 0) := by
  constructor <;> first | exact address | exact Nat.zero_le _

theorem losePower_lawful : Lawful s (losePower s) := by
  have fresh := fresh_stopTimers (fresh_resetBlocks (tearStore s) (Loop.reset 0 0))
  exact Fresh.lawful (t := losePower s) { fresh with }
    fun _ => { loopLaw_of_reset (Nat.zero_le 63) with }

theorem bootPart_lawful (strap : BitVec 6) : Lawful s (bootPart s strap) := by
  have address : LoopLaw (Loop.reset strap.toNat 0) := loopLaw_of_reset (by omega)
  have fresh := fresh_resetBlocks s (Loop.reset strap.toNat 0)
  unfold bootPart
  split
  · have started : Lawful s { resetBlocks s (Loop.reset strap.toNat 0) with powered := true, mode := .full } :=
      Fresh.lawful { fresh with } fun _ => address
    exact started.evolves (Calms.refl _).bootFrames.evolves
  · exact Fresh.lawful (t := { stopTimers (resetBlocks s (Loop.reset strap.toNat 0)) with powered := true, mode := .forwardOnly })
      { fresh_stopTimers fresh with } fun _ => { address with }

theorem Lawful.refl (s : State) : Lawful s s := (Evolves.refl s).lawful

theorem restartNow_lawful (h : ReqHead) : Lawful s (restartNow s h) := by
  have reset : Lawful s (restartBlocks s) := (fresh_resetBlocks s _).lawful fun law =>
    ⟨law.address, (List.length_filter_le _ _).trans law.forward, Nat.zero_le _, Nat.zero_le _, Nat.zero_le _, Nat.zero_le _,
      Nat.zero_le _, Nat.zero_le _, Nat.zero_le _, Nat.zero_le _⟩
  have choice : Calms (restartBlocks s) ((restartBlocks s).raiseIf (choiceDue (restartBlocks s).lp) (.loopOutFree false)) :=
    (Calms.refl _).raiseIf _ _
  exact reset.evolves choice.bootFrames.respond.evolves

theorem finishStore_calms (id : TableId) (h : ReqHead) : Calms s (finishStore s id h) := by
  unfold finishStore
  dsimp only
  split
  · exact Calms.refl s
  · exact Calms.respond (s := { writeStore s id with mu := { s.mu with commit := .none } }) (Calms.refl s)

end Fresh

section Every

variable {s : State}

theorem exec_powers_lawful {c : Instr} (power : powers c) : Yields Lawful s (exec c s) := by
  have lost : Lawful s (if s.powered then losePower s else s) := by
    split
    · exact losePower_lawful
    · exact .refl s
  obtain ⟨strap, rfl⟩ | rfl := power
  · exact ⟨_, exec_powerOn s strap, lost.trans (bootPart_lawful strap)⟩
  · exact ⟨_, exec_powerLoss s, lost⟩

theorem exec_mu_lawful {c : Instr} (block : blockOf c = .mu) : Yields Lawful s (exec c s) := by
  have same : Lawful s s := .refl s
  by_cases restart : restarts c
  · exact exec_restarts_of (P := Lawful s) restart same (fun h r => (Calms.refl s).respond.evolves.lawful)
      (fun h => Calms.evolves (t := { s with mu := { s.mu with restartWaiting := some h } }) (.refl s) |>.lawful)
      fun h => restartNow_lawful h
  by_cases store : c = .storeWriteComplete
  · subst store
    apply whenLive_yields (R := Lawful) same
    split
    · exact (finishStore_calms _ _).evolves.lawful
    · exact same
  exact exec_mu_of (P := Lawful s) block restart store same
    (fun u h r d k => k.evolves (Calms.refl u).respond.evolves)
    (fun t active => (calms_of_parts (s := s) (t := { s with tables := t }) rfl rfl rfl active).evolves.lawful)
    (fun m => Calms.evolves (t := { s with mu := m }) (.refl s) |>.lawful)
    (Calms.refl s).clearCounts.evolves.lawful (fun a g => (applyGate_evolves a g).lawful)
    commitTable_lawful

/-- A command of a block that leaves LP, DC and the active setup. -/
theorem exec_elsewhere_lawful {c : Instr} {mask : State → State} (kept : Yields (Agree mask) s (exec c s))
    (lp : ∀ u, (mask u).lp = u.lp) (duty : ∀ u, (mask u).duty = u.duty) (pumps : ∀ u, (mask u).pumps = u.pumps)
    (mu : blockOf c ≠ .mu) (power : ¬ powers c) : Yields Lawful s (exec c s) := by
  obtain ⟨t, out, agree⟩ := kept
  have setup : t.setup = s.setup := by
    refine (exec_keeps_setup ?_ ?_ power).of_next out
    · rintro h args rfl
      exact mu rfl
    · rintro (⟨h, args, rfl⟩ | rfl) <;> exact mu rfl
  exact ⟨t, out, (calms_of_mask mask lp duty pumps agree setup).evolves.lawful⟩

theorem exec_lawful (c : Instr) (s : State) : Yields Lawful s (exec c s) := by
  have weaken : Yields Evolves s (exec c s) → Yields Lawful s (exec c s) := fun h => h.mono fun _ => Evolves.lawful
  by_cases power : powers c
  · exact exec_powers_lawful power
  cases block : blockOf c with
  | cu => exact weaken (exec_cu_evolves s block)
  | dc => exact weaken (exec_dc_evolves s block)
  | sc => exact weaken (exec_sc_evolves s block)
  | elr => exact weaken (exec_elr_evolves s block)
  | lp => exact weaken (exec_lp_evolves s block power)
  | mu => exact exec_mu_lawful block
  | wmu => exact exec_elsewhere_lawful (exec_wmu s block) (fun _ => rfl) (fun _ => rfl) (fun _ => rfl) (by simp [block]) power
  | sb => exact exec_elsewhere_lawful (exec_sb s block) (fun _ => rfl) (fun _ => rfl) (fun _ => rfl) (by simp [block]) power
  | oa => exact exec_elsewhere_lawful (exec_oa s block) (fun _ => rfl) (fun _ => rfl) (fun _ => rfl) (by simp [block]) power
  | ssu => exact exec_elsewhere_lawful (exec_ssu s block) (fun _ => rfl) (fun _ => rfl) (fun _ => rfl) (by simp [block]) power

/-- Settles O5. -/
theorem everyStepKeepsLoopAndBackoff : Obligations.EveryStepKeepsLoopAndBackoff := fun _ _ out =>
  ⟨fun law => step_keeps (law := fun s => LoopLaw s.lp) (fun _ _ _ => id)
      (fun c s law => (exec_lawful c s).mono fun _ h => h.kept.1 law) law out,
    fun law => step_keeps (law := fun s => s.duty.backoff ≠ 0) (fun _ _ _ => id)
      (fun c s law => (exec_lawful c s).mono fun _ h => h.kept.2 law) law out⟩

/-- Settles O6. -/
theorem everyStepKeepsRunningLimit : Obligations.EveryStepKeepsRunningLimit := fun _ _ out =>
  ⟨fun law => step_keeps (law := fun s => ∀ p, OwnerLaw (s.pump p)) (fun _ _ _ => id)
      (fun c s law => (exec_lawful c s).mono fun _ h => h.owner law) law out,
    fun law => step_keeps (law := RunningLaw) (fun _ _ _ h => { h with })
      (fun c s law => (exec_lawful c s).mono fun _ h => h.limit law) law out⟩

end Every

end Sys2Proof.Machine
end


section
/-! PROOF. Entries of the tables: what a write leaves of each bank, and what a read returns (R178, R179). -/

namespace Sys2Proof.Machine

section Entries

variable {t : Tables} {id : TableId} {sect : Section} {dir : Direction} {e : TableEntry} {i : Nat}

/-! ## One entry -/

theorem setupKeys_nodup : SetupKey.all.Nodup := by decide +kernel

theorem setupKeys_length : SetupKey.all.length = 185 := by decide +kernel

/-- The numbers of a series are 1 to 4. -/
theorem setupKeys_series : ∀ key ∈ SetupKey.all, ∀ w n, key = .startLevels w n ∨ key = .stopLevels w n →
    n = 1 ∨ n = 2 ∨ n = 3 ∨ n = 4 := by
  have all : SetupKey.all.all (fun key => match key with
      | .startLevels _ n | .stopLevels _ n => n == 1 || n == 2 || n == 3 || n == 4
      | _ => true) = true := by decide +kernel
  rintro key member w n (rfl | rfl) <;> simpa [or_assoc] using List.all_eq_true.mp all _ member

/-- The number of a value of a series is 1 to 4. -/
def InSeries : SetupKey → Prop
  | .startLevels _ n | .stopLevels _ n => n = 1 ∨ n = 2 ∨ n = 3 ∨ n = 4
  | _ => True

theorem Four.get_set (q : Four Int) {n m : Nat} (x : Int) (hn : n = 1 ∨ n = 2 ∨ n = 3 ∨ n = 4)
    (hm : m = 1 ∨ m = 2 ∨ m = 3 ∨ m = 4) : (q.set n x).get m = if m = n then x else q.get m := by
  rcases hn with rfl | rfl | rfl | rfl <;> rcases hm with rfl | rfl | rfl | rfl <;> rfl

theorem series_get_set_other (f : PerWell (Four Int)) {w u : Well} {n m : Nat} (x : Int)
    (hn : n = 1 ∨ n = 2 ∨ n = 3 ∨ n = 4) (hm : m = 1 ∨ m = 2 ∨ m = 3 ∨ m = 4) (apart : u = w → m ≠ n) :
    ((f.set w ((f.get w).set n x)).get u).get m = (f.get u).get m := by
  rw [PerWell.get_set]
  split
  · next same =>
    rw [Four.get_set _ x hn hm, if_neg (apart same), same]
  · rfl

/-- Writing a value leaves the others. -/
theorem setupGet_setupPut_other (s : Setup) (v : SetupValue) {key other : SetupKey} (apart : other ≠ key)
    (inKey : InSeries key) (inOther : InSeries other) : setupGet (setupPut s key v) other = setupGet s other := by
  cases key <;> cases other <;>
    first
    | rfl
    | exact absurd rfl apart
    | exact congrArg SetupValue.num (series_get_set_other _ _ inKey inOther fun wells numbers => apart (by rw [wells, numbers]))
    | simp_all [setupGet, setupPut]

/-- A value of its own kind is stored. -/
theorem setupGet_setupPut_same (s : Setup) {v : SetupValue} {key : SetupKey} (kind : sameKind v (setupGet s key))
    (inKey : InSeries key) : setupGet (setupPut s key v) key = v := by
  cases key with
  | startLevels w n | stopLevels w n =>
    cases v <;> first
    | exact absurd kind id
    | simp [setupGet, setupPut, setupNum, Four.get_set _ _ inKey inKey]
  | _ =>
    cases v <;> first
    | exact absurd kind id
    | simp [setupGet, setupPut, setupNum, setupWell, setupKind, setupPolicy]

theorem inSeries_of_key {key : SetupKey} (h : SetupKey.all[i]? = some key) : InSeries key := by
  have member := List.mem_of_getElem? h
  have all := setupKeys_series key member
  cases key with
  | startLevels w n => exact all w n (.inl rfl)
  | stopLevels w n => exact all w n (.inr rfl)
  | _ => trivial

theorem setupKey_of_lt (h : i < 185) : ∃ key, SetupKey.all[i]? = some key :=
  ⟨_, List.getElem?_eq_getElem (by rw [setupKeys_length]; exact h)⟩

/-- A name or a number of one kind of setting fits a Station Setup index. -/
def Kindred (t : Tables) (id : TableId) (sect : Section) (i : Nat) (e : TableEntry) : Prop :=
  ∀ v x, e = .setup v → readEntry t id .inactive sect i = some (.setup x) → sameKind v x

theorem putSetup_get {s : Setup} {v : SetupValue} {key : SetupKey} (at_i : SetupKey.all[i]? = some key)
    (kind : sameKind v (setupGet s key)) : setupGet (putSetup s i v) key = v := by
  simp only [putSetup, at_i]
  exact setupGet_setupPut_same s kind (inSeries_of_key at_i)

theorem putSetup_get_other {s : Setup} {v : SetupValue} {j : Nat} {key : SetupKey} (at_j : SetupKey.all[j]? = some key)
    (apart : i ≠ j) : setupGet (putSetup s i v) key = setupGet s key := by
  unfold putSetup
  split
  · next other at_i =>
    refine setupGet_setupPut_other s v (fun same => apart ?_) (inSeries_of_key at_i) (inSeries_of_key at_j)
    rw [same, ← at_i] at at_j
    have bound : j < SetupKey.all.length := by
      by_contra beyond
      rw [List.getElem?_eq_none (by omega), at_i] at at_j
      cases at_j
    exact ((List.getElem?_inj bound setupKeys_nodup).mp at_j).symm
  · rfl

/-- The entry written stands where it was written. -/
theorem readEntry_putEntry_same (full : FullContents (inactiveContents t id)) (fits : entryFits id sect e = true)
    (inside : i < sectionLength id sect) (kindred : Kindred t id sect i e) :
    readEntry (putEntry t id sect i e) id .inactive sect i = some e := by
  cases id <;> cases sect <;> cases e <;> simp_all [entryFits, sectionLength, inactiveContents, FullContents, readEntry,
    putEntry, Banks.bank, Banks.write, putVolume, putWeir]
  case stationSetup.main.setup v =>
    obtain ⟨key, at_i⟩ := setupKey_of_lt inside
    exact ⟨key, at_i, putSetup_get at_i (kindred v _ rfl (by simp [readEntry, at_i, Banks.bank]))⟩

/-- Where an index of the WEIR header lies. -/
theorem headerPoint_inj {j : Nat} (hi : i ≤ 1) (hj : j ≤ 1)
    (same : (if i = 0 then Point.one else Point.two) = if j = 0 then Point.one else Point.two) : i = j := by
  split at same <;> split at same <;> first | omega | cases same

theorem readEntry_putEntry_other {sect' : Section} {j : Nat} (within : i < sectionLength id sect)
    (inside : j < sectionLength id sect') (apart : sect' ≠ sect ∨ j ≠ i) :
    readEntry (putEntry t id sect i e) id .inactive sect' j = readEntry t id .inactive sect' j := by
  cases id <;> cases sect <;> cases sect' <;> cases e <;> simp_all [sectionLength, readEntry,
    putEntry, Banks.bank, Banks.write, putVolume, putWeir, eq_comm]
  case weir.header.header.flow v => exact fun same => absurd (headerPoint_inj within inside same) apart
  case stationSetup.main.main.setup v =>
    obtain ⟨key, at_j⟩ := setupKey_of_lt inside
    simp [at_j, putSetup_get_other at_j apart]

theorem putEntry_other {other : TableId} (apart : other ≠ id) :
    inactiveContents (putEntry t id sect i e) other = inactiveContents t other := by
  unfold putEntry
  split <;> cases other <;> simp_all [inactiveContents, Banks.write]

theorem putEntry_emptyMark (other : TableId) : emptyMark (putEntry t id sect i e) other = emptyMark t other := by
  unfold putEntry
  split <;> cases other <;> simp [emptyMark, Banks.write] <;> split <;> simp_all

theorem readEntry_isSome {bank : BankName} (full : FullTables t) (inside : i < sectionLength id sect) :
    ∃ e, readEntry t id bank sect i = some e := by
  have lists {α : Type} {f : α → TableEntry} {xs : List α} (bound : i < xs.length) : ∃ e, xs[i]?.map f = some e :=
    ⟨_, by rw [List.getElem?_eq_getElem bound]; rfl⟩
  have both := full id
  cases id <;> cases sect <;> cases bank <;> first
    | exact absurd inside (Nat.not_lt_zero _)
    | exact lists (lt_of_lt_of_eq inside both.1.symm)
    | exact lists (lt_of_lt_of_eq inside both.2.symm)
    | exact lists (lt_of_lt_of_eq inside setupKeys_length.symm)
    | exact ⟨_, rfl⟩

/-! ## A run of entries -/

/-- How many entries of a run that has come to an index, or below 0, lie within the section. -/
def runInside (id : TableId) (sect : Section) (dir : Direction) (start : Option Nat) (count : Nat) : Nat :=
  match start with
  | some i => entriesInside id sect dir i count
  | none => 0

theorem entriesInside_zero : entriesInside id sect dir i 0 = 0 := by
  unfold entriesInside
  split
  · exact Nat.zero_min _
  · rfl

theorem runInside_some (count : Nat) : runInside id sect dir (some i) count = entriesInside id sect dir i count := rfl

theorem entriesInside_succ (count : Nat) : entriesInside id sect dir i (count + 1)
    = if i < sectionLength id sect then runInside id sect dir (nextIndex dir i) count + 1 else 0 := by
  by_cases within : i < sectionLength id sect
  · rw [if_pos within]
    cases dir with
    | up =>
      simp only [nextIndex, runInside_some, entriesInside, within, if_true]
      split <;> omega
    | down =>
      cases i with
      | zero => simp only [nextIndex, runInside, entriesInside, within, if_true]; omega
      | succ i =>
        simp only [nextIndex, runInside_some, entriesInside, within, if_true, Nat.lt_of_succ_lt within]
        omega
  · rw [if_neg within]
    exact if_neg within

/-- The index of the entry after the first is that of the run that follows it. -/
theorem entryIndex_succ {j : Nat} (next : nextIndex dir i = some j) (k : Nat) :
    entryIndex dir i (k + 1) = entryIndex dir j k ∧ entryIndex dir i (k + 1) ≠ i := by
  cases dir with
  | up => cases next; simp only [entryIndex]; omega
  | down =>
    cases i with
    | zero => cases next
    | succ i => cases next; simp only [entryIndex]; omega

theorem entryIndex_zero : entryIndex dir i 0 = i := by cases dir <;> rfl

theorem runInside_pos {start : Option Nat} {count k : Nat} (h : k < runInside id sect dir start count) :
    ∃ j, start = some j ∧ k < entriesInside id sect dir j count := by
  cases start with
  | none => exact absurd h (Nat.not_lt_zero _)
  | some j => exact ⟨j, rfl, h⟩

/-- An entry of the run lies within the section. -/
theorem entryIndex_lt {count k : Nat} (h : k < entriesInside id sect dir i count) : entryIndex dir i k < sectionLength id sect := by
  unfold entriesInside at h
  split at h
  · cases dir <;> simp only [entryIndex] at * <;> omega
  · cases h

theorem writeEntries_count (start : Option Nat) (es : List TableEntry) (t : Tables) :
    (writeEntries id sect dir start es t).2 = runInside id sect dir start es.length := by
  induction es generalizing start t with
  | nil => cases start with
    | none => rfl
    | some i => exact entriesInside_zero.symm
  | cons e es ih =>
    cases start with
    | none => rfl
    | some i =>
      rw [runInside_some, List.length_cons, entriesInside_succ, ← ih _ (putEntry t id sect i e), writeEntries]
      split <;> rfl

/-- A run of writes changes the inactive bank of its table alone. -/
theorem writeEntries_keeps (start : Option Nat) (es : List TableEntry) (t : Tables) (other : TableId) :
    activeContents (writeEntries id sect dir start es t).1 other = activeContents t other
    ∧ emptyMark (writeEntries id sect dir start es t).1 other = emptyMark t other
    ∧ (other ≠ id → inactiveContents (writeEntries id sect dir start es t).1 other = inactiveContents t other) := by
  induction es generalizing start t with
  | nil => cases start <;> exact ⟨rfl, rfl, fun _ => rfl⟩
  | cons e es ih =>
    cases start with
    | none => exact ⟨rfl, rfl, fun _ => rfl⟩
    | some i =>
      unfold writeEntries
      split
      · obtain ⟨active, empty, inactive⟩ := ih (nextIndex dir i) (putEntry t id sect i e)
        exact ⟨active.trans (putEntry_active ..), empty.trans (putEntry_emptyMark ..),
          fun apart => (inactive apart).trans (putEntry_other apart)⟩
      · exact ⟨rfl, rfl, fun _ => rfl⟩

/-- A run of writes leaves the entries outside it. -/
theorem writeEntries_other {sect' : Section} {j : Nat} (inside : j < sectionLength id sect') (start : Option Nat)
    (es : List TableEntry) (t : Tables)
    (apart : sect' ≠ sect ∨ ∀ i, start = some i → ∀ k, k < entriesInside id sect dir i es.length → j ≠ entryIndex dir i k) :
    readEntry (writeEntries id sect dir start es t).1 id .inactive sect' j = readEntry t id .inactive sect' j := by
  induction es generalizing start t with
  | nil => cases start <;> rfl
  | cons e es ih =>
    cases start with
    | none => rfl
    | some i =>
      unfold writeEntries
      split
      · next within =>
        rw [ih, readEntry_putEntry_other within inside]
        · refine apart.imp (fun h => h) fun free => ?_
          have first := free i rfl 0 (by rw [List.length_cons, entriesInside_succ, if_pos within]; omega)
          rwa [entryIndex_zero] at first
        · refine apart.imp (fun h => h) fun free j' next k below => ?_
          rw [← (entryIndex_succ next k).1]
          refine free i rfl (k + 1) ?_
          rw [List.length_cons, entriesInside_succ, if_pos within, next]
          exact Nat.succ_lt_succ below
      · rfl

/-- Each entry of the run stands where it was written. -/
theorem writeEntries_same {es : List TableEntry} {t : Tables} {k : Nat} (full : FullTables t)
    (fits : ∀ e ∈ es, entryFits id sect e = true) (below : k < entriesInside id sect dir i es.length)
    (at_k : es[k]? = some e) (kindred : Kindred t id sect (entryIndex dir i k) e) :
    readEntry (writeEntries id sect dir (some i) es t).1 id .inactive sect (entryIndex dir i k) = some e := by
  induction es generalizing i k t with
  | nil => cases at_k
  | cons x es ih =>
    have within : i < sectionLength id sect := by
      by_contra beyond
      rw [List.length_cons, entriesInside_succ, if_neg beyond] at below
      cases below
    simp only [writeEntries, within, if_true]
    rw [List.length_cons, entriesInside_succ, if_pos within] at below
    cases k with
    | zero =>
      cases at_k
      rw [entryIndex_zero] at kindred ⊢
      rw [writeEntries_other within _ es _ (.inr fun j next k _ => ?_)]
      · exact readEntry_putEntry_same (full id).2 (fits e (.head _)) within kindred
      · rw [← (entryIndex_succ next k).1]
        exact (entryIndex_succ next k).2.symm
    | succ k =>
      obtain ⟨j, next, later⟩ := runInside_pos (Nat.lt_of_succ_lt_succ below)
      obtain ⟨index, apart⟩ := entryIndex_succ next k
      rw [next, index]
      refine ih (putEntry_full id sect i x full) (fun e member => fits e (.tail _ member)) later at_k fun v y num read => ?_
      rw [readEntry_putEntry_other within (entryIndex_lt later) (.inr (index ▸ apart)), ← index] at read
      exact kindred v y num read

theorem readEntries_succ {bank : BankName} {e : TableEntry} (within : i < sectionLength id sect)
    (found : readEntry t id bank sect i = some e) (count : Nat) :
    readEntries t id bank sect dir (count + 1) (some i) = e :: readEntries t id bank sect dir count (nextIndex dir i) := by
  simp only [readEntries, within, if_true, found]

theorem readEntries_outside {bank : BankName} (beyond : ¬ i < sectionLength id sect) (count : Nat) :
    readEntries t id bank sect dir count (some i) = [] := by
  cases count <;> simp [readEntries, beyond]

theorem readEntries_length {bank : BankName} (full : FullTables t) (count : Nat) (start : Option Nat) :
    (readEntries t id bank sect dir count start).length = runInside id sect dir start count := by
  induction count generalizing start with
  | zero =>
    cases start with
    | none => rfl
    | some i => exact entriesInside_zero.symm
  | succ count ih =>
    cases start with
    | none => rfl
    | some i =>
      rw [runInside_some, entriesInside_succ]
      by_cases within : i < sectionLength id sect
      · obtain ⟨e, found⟩ := readEntry_isSome (bank := bank) full within
        rw [readEntries_succ within found, List.length_cons, ih, if_pos within]
      · rw [readEntries_outside within, if_neg within]
        rfl

/-- A run of reads gives each entry of the bank within the section. -/
theorem readEntries_at {bank : BankName} (full : FullTables t) {count k : Nat}
    (below : k < entriesInside id sect dir i count) :
    (readEntries t id bank sect dir count (some i))[k]? = readEntry t id bank sect (entryIndex dir i k) := by
  induction count generalizing i k with
  | zero => rw [entriesInside_zero] at below; cases below
  | succ count ih =>
    have within : i < sectionLength id sect := by
      by_contra beyond
      rw [entriesInside_succ, if_neg beyond] at below
      cases below
    rw [entriesInside_succ, if_pos within] at below
    obtain ⟨e, found⟩ := readEntry_isSome (bank := bank) full within
    rw [readEntries_succ within found]
    cases k with
    | zero => rw [entryIndex_zero, found]; rfl
    | succ k =>
      obtain ⟨j, next, later⟩ := runInside_pos (Nat.lt_of_succ_lt_succ below)
      rw [(entryIndex_succ next k).1, List.getElem?_cons_succ, next]
      exact ih later

end Entries

/-! ## The commands -/

section Commands

variable {s : State} {h : ReqHead}

theorem onRequest_permitted {α : Type} {args : α} {form : α → Bool} {f : State → α → State}
    (permitted : Permitted s h) (formed : form args = true) :
    onRequest s h (some args) form .trusted (fun s _ a => f s a) = f s args := by
  obtain ⟨_, taken⟩ := onRequest_of_permitted (form := form) (fun s _ a => f s a) permitted formed
  exact taken

theorem onRequest_managed {α : Type} {args : α} {form : α → Bool} {f : State → α → State} {e : SourceEntry}
    (entry : sourceEntry s h.source = some e) (manage : e.manage = true) (formed : form args = true) :
    onRequest s h (some args) form .manage (fun s _ a => f s a) = f s args := by
  simp [onRequest, checkRequest, needMet, entry, manage, formed]

theorem tableWrite_next {a : WriteArgs} (live : s.live = true) (permitted : Permitted s h) (formed : writeForm a = true) :
    exec (.tableWrite h (some a)) s = .next (writeTable s h a) := by
  apply whenLive_next live
  exact onRequest_permitted permitted formed

theorem tableDiscard_next {id : TableId} (live : s.live = true) (permitted : Permitted s h) :
    exec (.tableDiscard h (some id)) s = .next (if commitHolds s id then respond s h .busy .none
      else respond { s with tables := discardTable s.tables id } h .ok .none) := by
  apply whenLive_next live
  exact onRequest_permitted permitted rfl

theorem discardTable_emptyMark (t : Tables) (id other : TableId) : emptyMark (discardTable t id) other = emptyMark t other := by
  cases id <;> cases other <;> simp [discardTable, emptyMark, Banks.discard] <;> split <;> simp_all

@[simp] theorem answered_tables (s : State) (h : ReqHead) (r : ResultCode) (d : RspData) :
    (answered s h r d).tables = s.tables := by
  unfold answered
  split <;> rfl

theorem writeForm_spec {a : WriteArgs} (formed : writeForm a = true) : a.entries.length = a.count
    ∧ ∀ e ∈ a.entries, entryFits a.table a.sect e = true := by
  simp only [writeForm, Bool.and_eq_true, beq_iff_eq, List.all_eq_true] at formed
  exact ⟨formed.1.2, formed.2⟩

/-- A write that is done: the run of entries, and its answer. -/
theorem tableWrite_done {a : WriteArgs} (live : s.live = true) (permitted : Permitted s h) (formed : writeForm a = true)
    (free : commitHolds s a.table = false) :
    exec (.tableWrite h (some a)) s = .next (answered
      { s with tables := (writeEntries a.table a.sect a.direction (some a.start) a.entries s.tables).1 } h
      (if entriesInside a.table a.sect a.direction a.start a.count = a.count then .ok else .outOfRange)
      (.written (entriesInside a.table a.sect a.direction a.start a.count))) := by
  have written := writeEntries_count (id := a.table) (sect := a.sect) (dir := a.direction) (some a.start) a.entries s.tables
  rw [runInside_some, (writeForm_spec formed).1] at written
  rw [tableWrite_next live permitted formed, writeTable, if_neg (by simp [free]), respond_eq, countResult, written]

theorem standingOf_eq (s : State) (id : TableId) (bank : BankName) : standingOf s id bank
    = if commitHolds s id = true then .pending
      else if bank = .active ∧ emptyMark s.tables id = true then .empty else .valid := by
  unfold standingOf
  split
  · rfl
  · cases bank <;> simp

/-- Settles O53. -/
theorem tablesAreWrittenAndRead : Obligations.TablesAreWrittenAndRead := by
  intro h s live law
  have full : FullTables s.tables := ((tablesLaw_iff s).mp law).1
  refine ⟨?write, ?discard, ?busy, ?read⟩
  case write =>
    rintro a _ permitted formed free rfl
    obtain ⟨count, fits⟩ := writeForm_spec formed
    refine ⟨_, tableWrite_done live permitted formed free, by rw [answered_tables], fun k e below at_k kindred => ?_,
      fun sect i inside apart => ?_, fun id => ?_⟩
    · rw [answered_tables]
      exact writeEntries_same full fits (by rwa [count]) at_k kindred
    · rw [answered_tables]
      refine writeEntries_other inside _ _ _ (apart.imp (fun h => h) fun free j start k below => ?_)
      cases start
      rw [count] at below
      exact free k below
    · rw [answered_tables]
      exact writeEntries_keeps ..
  case discard =>
    intro id permitted free
    have done : exec (.tableDiscard h (some id)) s
        = .next (answered { s with tables := discardTable s.tables id } h .ok .none) := by
      rw [tableDiscard_next live permitted, if_neg (by simp [free]), respond_eq]
    refine ⟨_, done, by rw [answered_tables], ?_, fun other => ⟨?_, ?_, fun apart => ?_⟩⟩ <;> rw [answered_tables]
    · rw [(discardTable_contents ..).2, if_pos rfl]
    · exact (discardTable_contents ..).1
    · exact discardTable_emptyMark ..
    · rw [(discardTable_contents ..).2, if_neg apart]
  case busy =>
    rintro c id permitted held (rfl | ⟨a, rfl, formed, rfl⟩)
    · rw [tableDiscard_next live permitted, if_pos held, respond_eq]
    · rw [tableWrite_next live permitted formed, writeTable, if_pos held, respond_eq]
  case read =>
    rintro a e _ entry manage formed rfl
    have long := readEntries_length (id := a.table) (sect := a.sect) (dir := a.direction) (bank := a.bank) full a.count (some a.start)
    rw [runInside_some] at long
    refine ⟨readEntries s.tables a.table a.bank a.sect a.direction a.count (some a.start), ?_, long,
      fun k below => readEntries_at full below⟩
    apply whenLive_next live
    rw [onRequest_managed entry manage formed, readTable, respond_eq, countResult, long, standingOf_eq]

end Commands

end Sys2Proof.Machine
end


section
/-! PROOF. Commits: what turns them away, the switches that are taken at once or wait, and the completed store write. -/

namespace Sys2Proof.Machine

section Completing

variable {s t : State} {id : TableId} {o : Point} {h : ReqHead}

/-! ## The switch and the store write (R181, R182) -/

/-- A commit of a table that is scheduled is complete: its banks are exchanged and its store write is under way. -/
structure Switched (s t : State) (id : TableId) (h : ReqHead) : Prop where
  tables : t.tables = exchangeTable s.tables id
  mu : ∃ d, t.mu = { s.mu with commit := .storing id h d } ∧ s.now ≤ d ∧ d ≤ s.now + 200

theorem completeCommit_switched (scheduled : s.mu.commit = .scheduled id h) : Switched s (completeCommit s id) id h := by
  have req : scheduledReq s id = some h := by simp [scheduledReq, scheduled]
  unfold completeCommit
  rw [req]
  have brief := Nat.mod_lt (Config.storeWriteMs s.free) (by decide : 0 < 201)
  exact ⟨rfl, s.now + Config.storeWriteMs s.free % 201, rfl, Nat.le_add_right .., Nat.add_le_add_left (Nat.le_of_lt_succ brief) _⟩

theorem copyPasses_makeCopy (contents : TableContents) (generation : BitVec 32) :
    copyPasses (some (makeCopy contents generation)) = true := beq_self_eq_true _

theorem generationOf_makeCopy (contents : TableContents) (generation : BitVec 32) :
    generationOf (some (makeCopy contents generation)) = generation := rfl

theorem contents_makeCopy (contents : TableContents) (generation : BitVec 32) :
    (some (makeCopy contents generation)).map (·.contents) = some contents := rfl

/-- A written pair is loaded as it was written. -/
theorem loadCopy_writePair (c : CopyPair) (contents : TableContents) : loadCopy (writePair c contents) = some contents := by
  have behind (g : BitVec 32) : higherGeneration g (g + 1) = false := by
    have apart : g - (g + 1) = -1 := by ring
    rw [higherGeneration, apart]
    decide
  have ahead (g : BitVec 32) : higherGeneration (g + 1) g = true := by
    have apart : g + 1 - g = 1 := by ring
    rw [higherGeneration, apart]
    decide
  unfold writePair
  dsimp only
  split
  · next first =>
    cases second : copyPasses c.second with
    | true =>
      have next : nextGeneration c = generationOf c.second + 1 := by simp [nextGeneration, first, second]
      simp only [loadCopy, copyPasses_makeCopy, second, generationOf_makeCopy, next, behind, contents_makeCopy, Bool.false_eq_true,
        if_false]
    | false => simp only [loadCopy, copyPasses_makeCopy, second, contents_makeCopy]
  · next first =>
    have passes : copyPasses c.first = true := by
      by_contra fails
      rw [Bool.not_eq_true] at fails
      simp only [overwritesFirst, fails] at first
      exact first trivial
    have next : nextGeneration c = generationOf c.first + 1 := by simp [nextGeneration, first, passes]
    simp only [loadCopy, copyPasses_makeCopy, passes, generationOf_makeCopy, next, ahead, contents_makeCopy, if_true]

theorem answered_answered (s : State) (h : ReqHead) (r : ResultCode) (d : RspData) : Answered s (answered s h r d) h r d := by
  unfold Answered answered
  split <;> simp

@[simp] theorem answered_mu (s : State) (h : ReqHead) (r : ResultCode) (d : RspData) : (answered s h r d).mu = s.mu := by
  unfold answered
  split <;> rfl

@[simp] theorem answered_store (s : State) (h : ReqHead) (r : ResultCode) (d : RspData) :
    (answered s h r d).store = s.store := by
  unfold answered
  split <;> rfl

/-- What a completed store write leaves (R181, R182). -/
theorem finishStore_spec (s : State) (id : TableId) (h : ReqHead) :
    (finishStore s id h).mu = { s.mu with commit := .none } ∧ (finishStore s id h).tables = s.tables
    ∧ (finishStore s id h).store = setPair s.store id (writePair (storePair s.store id) (activeContents s.tables id))
    ∧ (s.mu.restartWaiting = none → Answered s (finishStore s id h) h .ok .none
        ∧ ∃ g, .recordSubmission (.tableCommit id g) ∈ (finishStore s id h).raised)
    ∧ (s.mu.restartWaiting ≠ none → .deferredRestart ∈ (finishStore s id h).raised ∧ (finishStore s id h).lp = s.lp) := by
  unfold finishStore
  cases waiting : s.mu.restartWaiting with
  | some r =>
    rw [if_pos (by simp [writeStore, waiting])]
    refine ⟨rfl, rfl, rfl, nofun, fun _ => ⟨?_, rfl⟩⟩
    simp [State.raise]
  | none =>
    rw [if_neg (by simp [writeStore, waiting]), respond_eq]
    refine ⟨?_, ?_, ?_, fun _ => ⟨?_, nextGeneration (storePair s.store id), ?_⟩, fun no => absurd rfl no⟩
    · exact answered_mu ..
    · exact answered_tables ..
    · exact answered_store ..
    · exact answered_answered { writeStore s id with mu := { s.mu with commit := .none } } h .ok .none
    · exact List.mem_append_right _ (.head _)

theorem exchangeTable_emptyMark (t : Tables) (id other : TableId) :
    emptyMark (exchangeTable t id) other = if other = id then false else emptyMark t other := by
  cases id <;> cases other <;> simp [exchangeTable, emptyMark, exchange] <;> split <;> simp_all

/-! ## The WEIR switch of the points (R133) -/

theorem updateSlot_weirTaken (f : Slot → Slot) :
    weirTaken (updateSlot (s.setPoint o { s.point o with pendingSwitch := false }) o f) = true
      ↔ ∀ x, x ≠ o → (s.point x).pendingSwitch = false := by
  have split_points (P : Point → Prop) : (∀ x, P x) ↔ P .one ∧ P .two :=
    ⟨fun h => ⟨h _, h _⟩, fun ⟨one, two⟩ x => by cases x; exacts [one, two]⟩
  cases o <;> rw [split_points] <;> simp [weirTaken, updateSlot, State.setPoint, State.point, PerPoint.set, PerPoint.get]

theorem takeWeir_waits (pending : (s.point o).pendingSwitch = true)
    (other : ∃ x, x ≠ o ∧ (s.point x).pendingSwitch = true) : (takeWeir s o).tables = s.tables ∧ (takeWeir s o).mu = s.mu := by
  obtain ⟨x, apart, waits⟩ := other
  unfold takeWeir
  rw [if_pos pending]
  dsimp only
  rw [if_neg]
  · exact ⟨rfl, rfl⟩
  · rw [updateSlot_weirTaken]
    intro all
    rw [all x apart] at waits
    cases waits

theorem takeWeir_switched (scheduled : s.mu.commit = .scheduled .weir h) (pending : (s.point o).pendingSwitch = true)
    (others : ∀ x, x ≠ o → (s.point x).pendingSwitch = false) : Switched s (takeWeir s o) .weir h := by
  unfold takeWeir
  rw [if_pos pending]
  dsimp only
  rw [if_pos ((updateSlot_weirTaken _).mpr others)]
  obtain ⟨tables, mu⟩ := completeCommit_switched (id := .weir) (h := h) (s := updateSlot
    (s.setPoint o { s.point o with pendingSwitch := false }) o fun x => { x with flags := { x.flags with tableChanged := true } })
    scheduled
  exact ⟨tables, mu⟩

/-- A level update of a point takes its pending switch, and does no more to tables and commit. -/
theorem overflowLevelUpdate_takes {u : ChannelUpdate} (live : s.live = true)
    (usable : u.quality = .lost ∨ u.quality = .suspect ∨ u.quality = .good ∧ u.stored = true ∧ u.value.isSome) :
    ∃ t, exec (.overflowLevelUpdate o u) s = .next t ∧ t.tables = (takeWeir s o).tables ∧ t.mu = (takeWeir s o).mu := by
  have notice {q : Quality} (bad : q = .lost ∨ q = .suspect) :
      (takeNotice s o q).tables = (takeWeir s o).tables ∧ (takeNotice s o q).mu = (takeWeir s o).mu := by
    have no : q ≠ .good := by rintro rfl; rcases bad with h | h <;> cases h
    unfold takeNotice
    rw [if_neg no]
    dsimp only
    rw [if_pos bad]
    exact ⟨rfl, rfl⟩
  have sample (level : Int) (time : Ms) : (takeSample s o level time).tables = (takeWeir s o).tables
      ∧ (takeSample s o level time).mu = (takeWeir s o).mu := by
    have state (t : State) (v : SpillSample) : (sampleByState t o v).tables = t.tables ∧ (sampleByState t o v).mu = t.mu := by
      unfold sampleByState sampleTentative sampleOpen sampleClosing sampleDry
      dsimp only
      repeat' split
      all_goals exact ⟨rfl, rfl⟩
    obtain ⟨tables, mu⟩ := state (observed s o (spillSample (takeWeir s o) o level time)) (spillSample (takeWeir s o) o level time)
    exact ⟨tables, mu⟩
  rcases usable with bad | bad | ⟨good, stored, value⟩
  · refine ⟨takeNotice s o u.quality, ?_, notice (.inl bad)⟩
    apply whenLive_next live
    simp [bad]
  · refine ⟨takeNotice s o u.quality, ?_, notice (.inr bad)⟩
    apply whenLive_next live
    simp [bad]
  · obtain ⟨level, value⟩ := Option.isSome_iff_exists.mp value
    refine ⟨takeSample s o level (u.storedAt.getD s.now), ?_, sample _ _⟩
    apply whenLive_next live
    simp [good, stored, value]

/-! ## What turns a commit away (R46, R100, R180) -/

theorem find_pump {f : Pump → Bool} {p : Pump} (found : f p = true) (lower : ∀ q, q.index < p.index → f q = false) :
    Pump.all.find? f = some p := by
  rw [List.find?_eq_some_iff_append]
  refine ⟨found, Pump.all.take p.index, Pump.all.drop (p.index + 1), by cases p <;> rfl, fun q among => ?_⟩
  rw [lower q (by revert among; cases p <;> cases q <;> decide)]
  rfl

theorem find_screen {f : Screen → Bool} {k : Screen} (found : f k = true) (lower : ∀ j, j.index < k.index → f j = false) :
    Screen.all.find? f = some k := by
  rw [List.find?_eq_some_iff_append]
  refine ⟨found, Screen.all.take k.index, Screen.all.drop (k.index + 1), by cases k <;> rfl, fun j among => ?_⟩
  rw [lower j (by revert among; cases k <;> cases j <;> decide)]
  rfl

theorem pumpMayChange_eq_false {st : PumpState} : pumpMayChange st = false
    ↔ st ≠ .off ∧ st ≠ .resting ∧ st ≠ .float ∧ ∀ why, st ≠ .unavailable why := by
  cases st <;> simp [pumpMayChange]

theorem rakeMayChange_eq_false {st : RakeState} : rakeMayChange st = false
    ↔ st ≠ .parked ∧ st ≠ .jammed ∧ st ≠ .outOfService := by
  cases st <;> simp [rakeMayChange]

/-! ## What a commit does -/

theorem tableCommit_next (live : s.live = true) (permitted : Permitted s h) :
    exec (.tableCommit h (some id)) s = .next (commitTable s h id) := by
  apply whenLive_next live
  exact onRequest_permitted permitted rfl

/-- The state in which a commit is SCHEDULED. -/
def awaiting (s : State) (h : ReqHead) (id : TableId) : State := { s with mu := { s.mu with commit := .scheduled id h } }

theorem commitTable_busy (held : s.mu.commit ≠ .none) : commitTable s h id = respond s h .busy .none := if_pos held

theorem commitTable_invalid {sect : Section} {i : Nat} (free : s.mu.commit = .none) (bad : failing s.tables id = some (sect, i)) :
    commitTable s h id = respond s h .invalidTable (.failing sect i) := by
  unfold commitTable
  rw [if_neg (by simp [free]), bad]

theorem commitTable_conflict {data : RspData} (free : s.mu.commit = .none) (valid : failing s.tables .stationSetup = none)
    (conflict : setupConflict s = some data) : commitTable s h .stationSetup = respond s h .conflict data := by
  unfold commitTable
  rw [if_neg (by simp [free]), valid]
  simp only [conflict]

theorem commitTable_arranged (free : s.mu.commit = .none) (valid : failing s.tables id = none)
    (clear : id = .stationSetup → setupConflict s = none) : commitTable s h id = arrange (awaiting s h id) id := by
  unfold commitTable
  rw [if_neg (by simp [free]), valid]
  cases id with
  | stationSetup => simp only [clear rfl]; rfl
  | _ => rfl

theorem arrange_switched (immediate : id = .sampleMap ∨ id = .gates ∨ id = .sources ∨ id = .stationSetup) :
    Switched s (arrange (awaiting s h id) id) id h := by
  have done : Switched s (completeCommit (awaiting s h id) id) id h := by
    obtain ⟨tables, mu⟩ := completeCommit_switched (s := awaiting s h id) (id := id) (h := h) rfl
    exact ⟨tables, mu⟩
  have keeps {t : State} (tables : t.tables = (completeCommit (awaiting s h id) id).tables)
      (mu : t.mu = (completeCommit (awaiting s h id) id).mu) : Switched s t id h := ⟨tables ▸ done.tables, mu ▸ done.mu⟩
  rcases immediate with rfl | rfl | rfl | rfl
  · exact keeps (eq_of_mask cuMask State.tables (fun _ => rfl) (takeSampleMap_cu _ _))
      (eq_of_mask cuMask State.mu (fun _ => rfl) (takeSampleMap_cu _ _))
  · exact done
  · exact done
  · exact keeps
      (takeSetup_keeps State.tables (fun _ _ _ => rfl) (fun _ => rfl) (fun _ => rfl) (fun _ => rfl) (fun _ => rfl) _ _)
      (takeSetup_keeps State.mu (fun _ _ _ => rfl) (fun _ => rfl) (fun _ => rfl) (fun _ => rfl) (fun _ => rfl) _ _)

theorem pointBlind_iff : pointBlind s o = true ↔ (s.chan (pointQuantity o)).quality = .lost
    ∨ (s.chan (pointQuantity o)).quality = .suspect ∨ entryFor s (pointQuantity o) = none := by
  simp [pointBlind, or_assoc]

/-- The points when a WEIR switch has just been scheduled. -/
def weirAwaited (s : State) (h : ReqHead) : State :=
  { awaiting s h .weir with
    points := ⟨{ s.points.one with pendingSwitch := true }, { s.points.two with pendingSwitch := true }⟩ }

theorem weirAwaited_point : (weirAwaited s h).point o = { s.point o with pendingSwitch := true } := by cases o <;> rfl

/-- A blind point takes the switch at once. -/
def takeBlind (s : State) (o : Point) : State := if pointBlind s o then takeWeir s o else s

theorem takeBlind_chans (s : State) (o x : Point) : pointBlind (takeBlind s o) x = pointBlind s x := by
  have accounted : Accounted s (takeBlind s o) := by
    unfold takeBlind
    split
    · exact takeWeir_accounted s o
    · exact .refl s
  have channels : (takeBlind s o).channels = s.channels := eq_of_mask oaMask State.channels (fun _ => rfl) accounted.frame
  have map : (takeBlind s o).tables.sampleMap = s.tables.sampleMap := by
    unfold takeBlind
    split
    · have kept : (takeWeir s o).tables.sampleMap = s.tables.sampleMap := by
        unfold takeWeir
        dsimp only
        split
        · split
          · unfold completeCommit
            split <;> rfl
          · rfl
        · rfl
      exact kept
    · rfl
  simp only [pointBlind, State.chan, channels, entryFor, mapEntries, map]

end Completing

section Settling

variable {s : State}

theorem arrange_weir (h : ReqHead) :
    arrange (awaiting s h .weir) .weir = takeBlind (takeBlind (weirAwaited s h) .one) .two := rfl

theorem takeBlind_point (s : State) (o p : Point) : (takeBlind s o).point p = if p = o ∧ pointBlind s o = true then
      { s.point o with
        pendingSwitch := false
        slot := (s.point o).slot.map fun x =>
          { x with flags := { x.flags with tableChanged := x.flags.tableChanged || (s.point o).pendingSwitch } } }
    else s.point p := by
  unfold takeBlind
  split
  · next blind =>
    rw [takeWeir_point]
    simp [blind]
  · next sees => simp [sees]

theorem arrange_weir_point (h : ReqHead) (o : Point) :
    (pointBlind s o = true → (arrange (awaiting s h .weir) .weir).point o = { s.point o with
        pendingSwitch := false
        slot := (s.point o).slot.map fun x => { x with flags := { x.flags with tableChanged := true } } })
    ∧ (¬ pointBlind s o = true →
        (arrange (awaiting s h .weir) .weir).point o = { s.point o with pendingSwitch := true }) := by
  have same (p : Point) : pointBlind (weirAwaited s h) p = pointBlind s p := rfl
  have later : pointBlind (takeBlind (weirAwaited s h) .one) .two = pointBlind s .two := takeBlind_chans ..
  rw [arrange_weir]
  refine ⟨fun blind => ?_, fun sees => ?_⟩ <;> rw [takeBlind_point, later, takeBlind_point, same] <;>
    cases o <;> simp_all [takeBlind_point, weirAwaited_point]

/-- The switch waits while a point has still to take it, and is complete when both have taken it at once. -/
theorem arrange_weir_switch (h : ReqHead) :
    ((∃ o, ¬ pointBlind s o = true) → (arrange (awaiting s h .weir) .weir).tables = s.tables
      ∧ (arrange (awaiting s h .weir) .weir).mu = (awaiting s h .weir).mu)
    ∧ ((∀ o, pointBlind s o = true) → Switched s (arrange (awaiting s h .weir) .weir) .weir h) := by
  have later : pointBlind (takeBlind (weirAwaited s h) .one) .two = pointBlind s .two := takeBlind_chans ..
  have pending (o : Point) : ((weirAwaited s h).point o).pendingSwitch = true := by rw [weirAwaited_point]
  have first : (takeBlind (weirAwaited s h) .one).tables = s.tables
      ∧ (takeBlind (weirAwaited s h) .one).mu = (awaiting s h .weir).mu
      ∧ (takeBlind (weirAwaited s h) .one).now = s.now := by
    unfold takeBlind
    split
    · obtain ⟨tables, mu⟩ := takeWeir_waits (pending .one) ⟨.two, by decide, pending .two⟩
      exact ⟨tables, mu, eq_of_mask oaMask State.now (fun _ => rfl) (takeWeir_oa ..)⟩
    · exact ⟨rfl, rfl, rfl⟩
  obtain ⟨tables, mu, now⟩ := first
  have stands : ((takeBlind (weirAwaited s h) .one).point .two).pendingSwitch = true := by
    rw [takeBlind_point, if_neg (by simp), pending]
  have taken : ((takeBlind (weirAwaited s h) .one).point .one).pendingSwitch = !pointBlind s .one := by
    rw [takeBlind_point]
    have same : pointBlind (weirAwaited s h) .one = pointBlind s .one := rfl
    rw [same]
    cases blind : pointBlind s .one <;> simp [pending]
  rw [arrange_weir]
  rw [show takeBlind (takeBlind (weirAwaited s h) .one) .two = if pointBlind s .two then
    takeWeir (takeBlind (weirAwaited s h) .one) .two else takeBlind (weirAwaited s h) .one by rw [takeBlind, later]]
  refine ⟨fun ⟨o, sees⟩ => ?_, fun blind => ?_⟩
  · split
    · next second =>
      have one : o = .one := by cases o <;> simp_all
      obtain ⟨tables', mu'⟩ := takeWeir_waits stands ⟨.one, by decide, by rw [taken]; simpa [one] using sees⟩
      exact ⟨tables'.trans tables, mu'.trans mu⟩
    · exact ⟨tables, mu⟩
  · rw [if_pos (blind .two)]
    have others (x : Point) (apart : x ≠ .two) : ((takeBlind (weirAwaited s h) .one).point x).pendingSwitch = false := by
      cases x with
      | one => rw [taken, blind .one]; rfl
      | two => exact absurd rfl apart
    obtain ⟨tables', d, mu', low, high⟩ :=
      takeWeir_switched (h := h) (by rw [mu]; rfl) stands others
    exact ⟨by rw [tables', tables], d, by rw [mu', mu]; rfl, now ▸ low, now ▸ high⟩

/-- What MU finds of a new Station Setup: the first pump, and then the first screen, that it may not change. -/
theorem setupConflict_eq {clash : Pump → Prop} {bar : Screen → Prop}
    (clashes : ∀ p, clash p ↔ (s.tables.setup.inactive.well.get p ≠ s.setup.well.get p
        ∨ s.tables.setup.inactive.drive.get p ≠ s.setup.drive.get p
        ∨ s.tables.setup.inactive.kind.get p ≠ s.setup.kind.get p)
      ∧ (s.pump p).state ≠ .off ∧ (s.pump p).state ≠ .resting ∧ (s.pump p).state ≠ .float
      ∧ ∀ why, (s.pump p).state ≠ .unavailable why)
    (bars : ∀ k, bar k ↔ s.tables.setup.inactive.rakeDrive.get k ≠ s.setup.rakeDrive.get k
      ∧ (s.screen k).state ≠ .parked ∧ (s.screen k).state ≠ .jammed ∧ (s.screen k).state ≠ .outOfService) :
    (∀ p, clash p → (∀ q, q.index < p.index → ¬ clash q) → setupConflict s = some (.pump p))
    ∧ ((∀ p, ¬ clash p) → (∀ k, bar k → (∀ j, j.index < k.index → ¬ bar j) → setupConflict s = some (.screen k))
      ∧ ((∀ k, ¬ bar k) → setupConflict s = none)) := by
  have pump (p : Pump) : ((s.tables.setup.inactive.well.get p != s.setup.well.get p
      || s.tables.setup.inactive.drive.get p != s.setup.drive.get p
      || s.tables.setup.inactive.kind.get p != s.setup.kind.get p) && !(pumpMayChange (s.pump p).state)) = true ↔ clash p := by
    rw [clashes, ← pumpMayChange_eq_false]
    simp [or_assoc]
  have rake (k : Screen) : (s.tables.setup.inactive.rakeDrive.get k != s.setup.rakeDrive.get k
      && !(rakeMayChange (s.screen k).state)) = true ↔ bar k := by
    rw [bars, ← rakeMayChange_eq_false]
    simp
  have nobody (free : ∀ p, ¬ clash p) : pumpConflict s s.tables.setup.inactive = none :=
    List.find?_eq_none.mpr fun p _ found => free p ((pump p).mp found)
  have rakes (k : Screen) (found : bar k) (lower : ∀ j, j.index < k.index → ¬ bar j) :
      rakeConflict s s.tables.setup.inactive = some k :=
    find_screen ((rake k).mpr found) fun j below => Bool.eq_false_iff.mpr (mt (rake j).mp (lower j below))
  refine ⟨fun p found lower => ?_, fun free => ⟨fun k found lower => ?_, fun none => ?_⟩⟩
  · have first : pumpConflict s s.tables.setup.inactive = some p :=
      find_pump ((pump p).mpr found) fun q below => Bool.eq_false_iff.mpr (mt (pump q).mp (lower q below))
    simp [setupConflict, first]
  · simp [setupConflict, nobody free, rakes k found lower]
  · have clear : rakeConflict s s.tables.setup.inactive = Option.none :=
      List.find?_eq_none.mpr fun k _ found => none k ((rake k).mp found)
    simp [setupConflict, nobody free, clear]

/-- Settles O54. -/
theorem commitsSwitchAndStore : Obligations.CommitsSwitchAndStore := by
  intro h id clash bar blind s live clashes bars blinds
  obtain ⟨pumps, clear⟩ := setupConflict_eq clashes bars
  refine ⟨fun permitted held => ?_, fun permitted free sect i bad => ?_, fun data permitted free setup valid found => ?_,
    fun permitted free valid immediate => ?_, fun permitted free valid => ⟨fun w same => ?_, fun same => ?_, fun same => ?_⟩,
    fun o u scheduled pending usable => ?_, fun d storing => ?_⟩
  · rw [tableCommit_next live permitted, commitTable_busy held, respond_eq]
  · rw [tableCommit_next live permitted, commitTable_invalid free bad, respond_eq]
  · subst setup
    have conflict : setupConflict s = some data := by
      obtain ⟨p, found, lower, rfl⟩ | ⟨none, k, found, lower, rfl⟩ := found
      · exact pumps p found lower
      · exact (clear none).1 k found lower
    rw [tableCommit_next live permitted, commitTable_conflict free valid conflict, respond_eq]
  · have alone : id = .stationSetup → setupConflict s = none := by
      rintro rfl
      rcases immediate with h | h | h | ⟨_, none, free⟩
      · cases h
      · cases h
      · cases h
      · exact (clear none).2 free
    obtain ⟨tables, d, mu, low, high⟩ := arrange_switched (s := s) (h := h) (id := id)
      (by rcases immediate with h | h | h | h <;> simp [h])
    refine ⟨_, d, (tableCommit_next live permitted).trans (by rw [commitTable_arranged free valid alone]), mu, low, high, ?_⟩
    rw [tables]
    simp only [exchangeTable_contents, exchangeTable_emptyMark, if_true, true_and]
    exact fun other apart => by simp [apart]
  · subst same
    rw [tableCommit_next live permitted, commitTable_arranged free valid (by simp)]
    rfl
  · subst same
    refine ⟨arrange (awaiting s h .pumpCurves) .pumpCurves,
      (tableCommit_next live permitted).trans (by rw [commitTable_arranged free valid (by simp)]), rfl, rfl, fun w => ?_⟩
    cases w <;> rfl
  · subst same
    have see (o : Point) : blind o ↔ pointBlind s o = true := (blinds o).trans pointBlind_iff.symm
    simp only [see]
    refine ⟨_, (tableCommit_next live permitted).trans (by rw [commitTable_arranged free valid (by simp)]),
      arrange_weir_point h, (arrange_weir_switch h).1, fun all => ?_⟩
    obtain ⟨tables, mu⟩ := (arrange_weir_switch h).2 all
    exact ⟨tables, mu⟩
  · obtain ⟨t, out, tables, mu⟩ := overflowLevelUpdate_takes (o := o) live usable
    refine ⟨t, out, fun other => ?_, fun others => ?_⟩
    · obtain ⟨tables', mu'⟩ := takeWeir_waits pending other
      exact ⟨tables.trans tables', mu.trans mu'⟩
    · obtain ⟨tables', d, mu', bounds⟩ := takeWeir_switched scheduled pending others
      exact ⟨tables.trans tables', d, mu.trans mu', bounds⟩
  · obtain ⟨mu, tables, store, answer⟩ := finishStore_spec s id h
    have out : exec .storeWriteComplete s = .next (finishStore s id h) := by
      apply whenLive_next live
      rw [storing]
    refine ⟨_, out, mu, tables, ?_, fun other apart => ?_, answer⟩
    · rw [store, storePair_setPair, if_pos rfl, loadCopy_writePair]
    · rw [store, storePair_setPair, if_neg apart]

end Settling

end Sys2Proof.Machine
end


section
/-! PROOF. The validation of a commit finds the first entry that breaks a condition of its table (R180). -/

namespace Sys2Proof.Machine

section Finding

/-- From an index on, the first index found is the first at which a condition fails. -/
def FindsFrom (i : Nat) (found : Option Nat) (P : Nat → Prop) : Prop :=
  match found with
  | none => ∀ j, i ≤ j → P j
  | some k => i ≤ k ∧ ¬ P k ∧ ∀ j, i ≤ j → j < k → P j

variable {i : Nat} {found : Option Nat} {P Q : Nat → Prop}

theorem FindsFrom.here (fails : ¬ P i) : FindsFrom i (some i) P := ⟨Nat.le_refl i, fails, fun _ low high => by omega⟩

theorem FindsFrom.later (holds : P i) (h : FindsFrom (i + 1) found P) : FindsFrom i found P := by
  cases found with
  | none => exact fun j low => (Nat.eq_or_lt_of_le low).elim (fun e => e ▸ holds) (h j)
  | some k =>
    obtain ⟨low, fails, before⟩ := h
    exact ⟨Nat.le_of_succ_le low, fails,
      fun j from_i below => (Nat.eq_or_lt_of_le from_i).elim (fun e => e ▸ holds) fun after => before j after below⟩

/-- The two conditions may differ behind a failure. -/
theorem FindsFrom.congr (same : ∀ j, (∀ k, k < j → Q k) → (P j ↔ Q j)) (h : FindsFrom 0 found P) : FindsFrom 0 found Q := by
  have upto (n : Nat) (below : ∀ j, j < n → P j) : ∀ j, j < n → Q j := by
    intro j
    induction j using Nat.strong_induction_on with
    | _ j ih => exact fun inside => (same j fun k lower => ih k lower (lower.trans inside)).mp (below j inside)
  cases found with
  | none => exact fun j _ => upto (j + 1) (fun k _ => h k (Nat.zero_le k)) j j.lt_succ_self
  | some k =>
    obtain ⟨low, fails, before⟩ := h
    have lower := upto k fun j inside => before j (Nat.zero_le j) inside
    exact ⟨low, mt (same k lower).mpr fails, fun j _ inside => lower j inside⟩

theorem FindsFrom.iff (same : ∀ j, P j ↔ Q j) (h : FindsFrom 0 found P) : FindsFrom 0 found Q := h.congr fun j _ => same j

theorem findIdx?_finds {α : Type} (l : List α) (f : α → Bool) :
    FindsFrom 0 (l.findIdx? f) fun j => ∀ x, l[j]? = some x → f x = false := by
  cases found : l.findIdx? f with
  | none => exact fun j _ x at_j => List.findIdx?_eq_none_iff.mp found x (List.mem_of_getElem? at_j)
  | some k =>
    obtain ⟨inside, holds, before⟩ := List.findIdx?_eq_some_iff_getElem.mp found
    refine ⟨Nat.zero_le k, fun all => ?_, fun j _ below x at_j => ?_⟩
    · rw [all _ (List.getElem?_eq_getElem inside)] at holds
      cases holds
    · obtain ⟨_, rfl⟩ := List.getElem?_eq_some_iff.mp at_j
      simpa using before j below

/-! ## Numbered values, each judged with the one before it -/

/-- The value before an index. -/
def valueBefore (l : List Nat) (j : Nat) : Nat := if j = 0 then 0 else l[j - 1]?.getD 0

theorem firstFailing_finds (ok : Nat → Nat → Nat → Bool) (l rest : List Nat) (i : Nat) (drop : l.drop i = rest) :
    FindsFrom i (firstFailing ok i (valueBefore l i) rest) fun j => ∀ v, l[j]? = some v → ok j (valueBefore l j) v = true := by
  induction rest generalizing i with
  | nil =>
    intro j low v at_j
    rw [List.getElem?_eq_none (Nat.le_trans (List.drop_eq_nil_iff.mp drop) low)] at at_j
    cases at_j
  | cons v rest ih =>
    have at_i : l[i]? = some v := by rw [← List.head?_drop, drop]; rfl
    have next : valueBefore l (i + 1) = v := by simp [valueBefore, at_i]
    unfold firstFailing
    split
    · next holds =>
      refine FindsFrom.later (fun u at_u => ?_) (next ▸ ih (i + 1) (by rw [← List.tail_drop, drop]; rfl))
      rw [at_i] at at_u
      cases at_u
      exact holds
    · next fails => exact FindsFrom.here fun all => fails (all v at_i)

/-! ## Slots, each judged with the entries of those before it -/

variable {α : Type}

/-- The entries of the slots before an index, nearest first. -/
def entriesBefore (l : List (Option α)) (i : Nat) : List α := ((l.take i).reduceOption).reverse

theorem entriesBefore_succ {l : List (Option α)} {x : Option α} (at_i : l[i]? = some x) :
    entriesBefore l (i + 1) = x.toList ++ entriesBefore l i := by
  have bound := (List.getElem?_eq_some_iff.mp at_i).1
  have last : l.take (i + 1) = l.take i ++ [x] := by
    rw [List.take_add_one, at_i]; rfl
  rw [entriesBefore, last, List.reduceOption_append, List.reverse_append]
  cases x <;> simp [entriesBefore, List.reduceOption_cons_of_some, List.reduceOption_cons_of_none]

theorem mem_entriesBefore {l : List (Option α)} {x : α} : x ∈ entriesBefore l i ↔ ∃ j, j < i ∧ l[j]? = some (some x) := by
  rw [entriesBefore, List.mem_reverse, List.reduceOption_mem_iff, List.mem_iff_getElem?]
  constructor
  · rintro ⟨j, at_j⟩
    rw [List.getElem?_take] at at_j
    split at at_j
    · next low => exact ⟨j, low, at_j⟩
    · cases at_j
  · rintro ⟨j, low, at_j⟩
    exact ⟨j, by rw [List.getElem?_take, if_pos low, at_j]⟩

/-- The first slot whose entry does not follow those before it; empty slots are passed over. -/
def slotWalk (ok : List α → α → Bool) : List α → Nat → List (Option α) → Option Nat
  | _, _, [] => none
  | before, i, none :: rest => slotWalk ok before (i + 1) rest
  | before, i, some e :: rest => if ok before e then slotWalk ok (e :: before) (i + 1) rest else some i

theorem slotWalk_finds (ok : List α → α → Bool) (l rest : List (Option α)) (i : Nat) (drop : l.drop i = rest) :
    FindsFrom i (slotWalk ok (entriesBefore l i) i rest) fun j =>
      ∀ e, l[j]? = some (some e) → ok (entriesBefore l j) e = true := by
  induction rest generalizing i with
  | nil =>
    intro j low v at_j
    rw [List.getElem?_eq_none (Nat.le_trans (List.drop_eq_nil_iff.mp drop) low)] at at_j
    cases at_j
  | cons x rest ih =>
    have at_i : l[i]? = some x := by rw [← List.head?_drop, drop]; rfl
    have walked := ih (i + 1) (by rw [← List.tail_drop, drop]; rfl)
    rw [entriesBefore_succ at_i] at walked
    cases x with
    | none => exact FindsFrom.later (fun e at_e => by rw [at_i] at at_e; cases at_e) walked
    | some e =>
      unfold slotWalk
      split
      · next holds =>
        refine FindsFrom.later (fun u at_u => ?_) walked
        rw [at_i] at at_u
        cases at_u
        exact holds
      · next fails => exact FindsFrom.here fun all => fails (all e at_i)

end Finding

section Tables

variable {i : Nat}

theorem inRange_iff {lo hi v : Int} : inRange lo hi v = true ↔ Within lo hi v := by simp [inRange, Within]

/-! ## The Sample Map (R2) -/

theorem analogOk_iff (e : SampleEntry) : analogOk e = true ↔ Within (-5000) 15000 e.zero ∧ Within 1 20000 e.span
    ∧ e.windowLow ≤ e.windowHigh ∧ e.windowHigh ≤ 4095 ∧ (e.expected.isSome ↔ e.tolerance.isSome)
    ∧ (∀ x, e.expected = some x → x ≤ 4095) ∧ (∀ x, e.tolerance = some x → x ≤ 4095) := by
  unfold analogOk
  cases e.expected <;> cases e.tolerance <;> simp [inRange_iff, and_assoc]

theorem sampleOk_iff (e : SampleEntry) : sampleOk e = true ↔ SampleEntryValid e := by
  unfold sampleOk SampleEntryValid
  simp only [Bool.and_eq_true, inRange_iff, decide_eq_true_eq, and_assoc]
  refine and_congr_right fun _ => and_congr_right fun _ => and_congr_right fun _ => ?_
  cases e.quantity <;> cases e.kind <;> simp [analogOk_iff]

theorem keyBefore_iff (a b : SampleEntry) :
    keyBefore a b = true ↔ a.node < b.node ∨ a.node = b.node ∧ a.channel < b.channel := by simp [keyBefore]

theorem keyBefore_trans {a b c : SampleEntry} (ab : keyBefore a b = true) (bc : keyBefore b c = true) : keyBefore a c = true := by
  rw [keyBefore_iff] at *
  omega

theorem sampleFailing_eq (before : List SampleEntry) (i : Nat) (l : SampleMap) :
    sampleFailing before i l = slotWalk sampleFollows before i l := by
  induction l generalizing before i with
  | nil => rfl
  | cons x l ih => cases x <;> simp [sampleFailing, slotWalk, ih]

/-- The entries before a slot ascend when each of their slots is valid. -/
theorem entriesBefore_ascend {l : SampleMap} (valid : ∀ j, j < i → MapSlotValid l j) :
    (entriesBefore l i).Pairwise fun later x => keyBefore x later = true := by
  induction i with
  | zero => exact List.Pairwise.nil
  | succ i ih =>
    have lower := ih fun j below => valid j (Nat.lt_succ_of_lt below)
    cases at_i : l[i]? with
    | none =>
      have same : entriesBefore l (i + 1) = entriesBefore l i := by
        rw [entriesBefore, entriesBefore, List.take_of_length_le, List.take_of_length_le] <;>
          have := List.getElem?_eq_none_iff.mp at_i <;> omega
      exact same ▸ lower
    | some x =>
      rw [entriesBefore_succ at_i]
      cases x with
      | none => exact lower
      | some e =>
        refine List.pairwise_cons.mpr ⟨fun x earlier => ?_, lower⟩
        obtain ⟨j, below, at_j⟩ := mem_entriesBefore.mp earlier
        rw [keyBefore_iff]
        exact ((valid i i.lt_succ_self e at_i).2 j x below at_j).1

theorem sampleFollows_iff {l : SampleMap} (valid : ∀ j, j < i → MapSlotValid l j) (e : SampleEntry) :
    sampleFollows (entriesBefore l i) e = true ↔ SampleEntryValid e
      ∧ ∀ x ∈ entriesBefore l i, keyBefore x e = true ∧ x.quantity ≠ e.quantity := by
  have ascend := entriesBefore_ascend valid
  generalize entriesBefore l i = before at *
  cases before with
  | nil => simp [sampleFollows, sampleOk_iff]
  | cons y ys =>
    have nearest : keyBefore y e = true ↔ ∀ x ∈ y :: ys, keyBefore x e = true := by
      refine ⟨fun first x member => ?_, fun all => all y (.head _)⟩
      rcases List.mem_cons.mp member with rfl | among
      · exact first
      · exact keyBefore_trans ((List.pairwise_cons.mp ascend).1 x among) first
    simp only [sampleFollows, Bool.and_eq_true, sampleOk_iff, nearest, List.all_eq_true, and_assoc, bne_iff_ne, ← forall₂_and]

theorem sampleFailing_finds (l : SampleMap) : FindsFrom 0 (sampleFailing [] 0 l) (MapSlotValid l) := by
  rw [sampleFailing_eq]
  refine (slotWalk_finds sampleFollows l l 0 rfl).congr fun j valid => ?_
  refine forall₂_congr fun e at_j => ?_
  rw [sampleFollows_iff valid]
  refine and_congr_right fun _ => ?_
  simp only [mem_entriesBefore, keyBefore_iff, forall_exists_index, and_imp]
  exact ⟨fun h k x => h x k, fun h x k => h k x⟩

/-! ## Volumes and curves (R26, R31, R121) -/

theorem valueBefore_of {l : List Nat} {j v : Nat} (at_j : l[j]? = some v) (j0 : j ≠ 0) : l[j - 1]? = some (valueBefore l j) := by
  have bound := (List.getElem?_eq_some_iff.mp at_j).1
  rw [valueBefore, if_neg j0, List.getElem?_eq_getElem (by omega)]
  rfl

theorem volumes_find (l : List Nat) :
    FindsFrom 0 (firstFailing (fun i before v => decide (v ≤ 4000000) && (i == 0 || decide (before ≤ v))) 0 0 l)
      fun i => ∀ v, l[i]? = some v → v ≤ 4000000 ∧ ∀ u, i ≠ 0 → l[i - 1]? = some u → u ≤ v := by
  refine (firstFailing_finds _ l l 0 rfl).iff fun j => forall₂_congr fun v at_j => ?_
  by_cases j0 : j = 0
  · simp [j0]
  · simp [j0, valueBefore_of at_j j0]

theorem flows_find (l : List Nat) {n : Nat} (top : Nat) (falls : Bool) :
    FindsFrom 0 (firstFailing (fun i before v => decide (v ≤ top)
      && (i % n == 0 || if falls then decide (v ≤ before) else decide (before ≤ v))) 0 0 l) (FlowValid l n top falls) := by
  refine (firstFailing_finds _ l l 0 rfl).iff fun j => forall₂_congr fun v at_j => ?_
  by_cases start : j % n = 0
  · simp [start]
  · have j0 : j ≠ 0 := by rintro rfl; exact start (Nat.zero_mod n)
    cases falls <;> simp [start, valueBefore_of at_j j0]

/-! ## SOURCES and GATES (R175, R183) -/

theorem slotFailing_eq (before : List SourceEntry) (i : Nat) (l : Sources) : slotFailing before i l
    = slotWalk (fun before e => inRange 1 62 e.address && decide (e.ceiling ≤ 3) && before.all fun x => x.address != e.address)
      before i l := by
  induction l generalizing before i with
  | nil => rfl
  | cons x l ih => cases x <;> simp [slotFailing, slotWalk, ih]

/-- What R175 asks of a slot by itself. -/
def SlotValid (l : Sources) (i : Nat) : Prop :=
  ∀ e, l[i]? = some (some e) → Within 1 62 e.address ∧ e.ceiling ≤ 3
    ∧ ∀ j x, j < i → l[j]? = some (some x) → x.address ≠ e.address

theorem slotFailing_finds (l : Sources) : FindsFrom 0 (slotFailing [] 0 l) (SlotValid l) := by
  rw [slotFailing_eq]
  refine (slotWalk_finds _ l l 0 rfl).iff fun j => forall₂_congr fun e _ => ?_
  simp only [Bool.and_eq_true, inRange_iff, decide_eq_true_eq, List.all_eq_true, bne_iff_ne, mem_entriesBefore, and_assoc,
    forall_exists_index, and_imp]
  exact and_congr_right fun _ => and_congr_right fun _ => ⟨fun h k x => h x k, fun h x k => h k x⟩

theorem sourcesFailing_finds {l : Sources} (short : l.length ≤ 16) : FindsFrom 0 (sourcesFailing l) (SourceSlotValid l) := by
  have slots := slotFailing_finds l
  have manager : (l.filterMap id).any canManage = true ↔ ∃ e, some e ∈ l ∧ e.ceiling = 0 ∧ e.manage = true := by
    simp only [List.any_eq_true, List.mem_filterMap, id, canManage, Bool.and_eq_true, beq_iff_eq]
    exact ⟨fun ⟨e, ⟨x, member, same⟩, may⟩ => ⟨e, same ▸ member, may⟩, fun ⟨e, member, may⟩ => ⟨e, ⟨_, member, rfl⟩, may⟩⟩
  unfold sourcesFailing
  cases found : slotFailing [] 0 l with
  | some k =>
    rw [found] at slots
    obtain ⟨low, fails, before⟩ := slots
    have inside : k < 16 := by
      by_contra beyond
      refine fails fun e at_k => ?_
      rw [List.getElem?_eq_none (by omega)] at at_k
      cases at_k
    exact ⟨low, fun all => fails all.1, fun j from_0 below => ⟨before j from_0 below, by omega⟩⟩
  | none =>
    rw [found] at slots
    dsimp only
    split
    · next someone => exact fun j low => ⟨slots j low, fun _ => manager.mp someone⟩
    · next nobody =>
      exact ⟨Nat.zero_le _, fun all => nobody (manager.mpr (all.2 rfl)), fun j low below => ⟨slots j low, by omega⟩⟩

theorem targetFits_iff (a : GateAction) (g : GateTarget) : targetFits a g = true ↔ TargetTaken a g := by
  cases a <;> cases g <;> simp [targetFits, TargetTaken]

theorem preconditionOk_iff (x : Precondition) : preconditionOk x = true ↔
    (∃ q, x.quantity = .name q) ∧ (∃ c, x.comparison = .name c) ∧ Within (-5000) 15000 x.constant := by
  unfold preconditionOk
  cases x.quantity <;> cases x.comparison <;> simp [inRange_iff]

theorem gateOk_iff (g : GateEntry) : gateOk g = true ↔ (∃ a, g.action = .name a ∧ TargetTaken a g.target) ∧ g.authority ≤ 3
    ∧ (∃ b, g.enabled = .name b)
    ∧ ∀ x, g.precondition = some x → (∃ q, x.quantity = .name q) ∧ (∃ c, x.comparison = .name c)
      ∧ Within (-5000) 15000 x.constant := by
  simp only [← preconditionOk_iff, ← targetFits_iff]
  unfold gateOk
  cases g.action <;> cases g.enabled <;> cases g.precondition <;> simp [and_assoc]

theorem gatesFailing_finds (l : Gates) : FindsFrom 0 (gatesFailing l) (GateValid l) := by
  refine (findIdx?_finds l _).iff fun j => ?_
  refine ⟨fun all g at_j => (gateOk_iff g).mp (by simpa using all (some g) at_j), fun all x at_j => ?_⟩
  cases x with
  | none => rfl
  | some g => simpa using (gateOk_iff g).mpr (all g at_j)

/-! ## The Station Setup (R20, R46, R68, R100) -/

theorem setupInRange_iff (t : Setup) (key : SetupKey) : setupInRange t key = true ↔ SetupValueValid t key := by
  unfold setupInRange SetupValueValid
  cases setupGet t key with
  | num v =>
    cases key.range with
    | none => simp
    | some r => exact ⟨fun h => ⟨r.1, r.2, rfl, inRange_iff.mp h⟩, fun ⟨_, _, same, h⟩ => by cases same; exact inRange_iff.mpr h⟩
  | well c | kind c | policy c => cases c <;> simp

theorem pumpsBefore_eq (p : Pump) : pumpsBefore p = Pump.all.filter fun q => decide (q.index < p.index) := by
  cases p <;> decide

theorem screensBefore_eq (k : Screen) : screensBefore k = Screen.all.filter fun j => decide (j.index < k.index) := by
  cases k <;> decide

theorem setupFitted_iff (t : Setup) (p : Pump) : setupFitted t p = (t.wellOf p).isSome := by
  unfold setupFitted Setup.wellOf setupWellOf
  split <;> simp_all

theorem mem_pumpsBefore (p q : Pump) : q ∈ pumpsBefore p ↔ q.index < p.index := by cases p <;> cases q <;> decide

theorem mem_screensBefore (k j : Screen) : j ∈ screensBefore k ↔ j.index < k.index := by cases k <;> cases j <;> decide

theorem drivePair_iff (t : Setup) (p : Pump) :
    setupPairHolds t (.drive p) = true ↔ SetupPairValid t (.drive p) := by
  simp only [setupPairHolds, SetupPairValid, setupFitted_iff, Bool.or_eq_true, Bool.not_eq_true', List.all_eq_true,
    mem_pumpsBefore, bne_iff_ne]
  cases (t.wellOf p).isSome with
  | false => simp
  | true =>
    simp only [Bool.true_eq_false, false_or, true_imp_iff]
    exact forall₂_congr fun q _ => by cases (t.wellOf q).isSome <;> simp

theorem rakeDrivePair_iff (t : Setup) (k : Screen) :
    setupPairHolds t (.rakeDrive k) = true ↔ SetupPairValid t (.rakeDrive k) := by
  have pumps (p : Pump) : p ∈ Pump.all := by cases p <;> decide
  simp only [setupPairHolds, SetupPairValid, setupFitted_iff, Bool.and_eq_true, Bool.or_eq_true, Bool.not_eq_true',
    List.all_eq_true, mem_screensBefore, bne_iff_ne, pumps, true_imp_iff, and_assoc]
  refine and_congr_right fun _ => and_congr_left fun _ => forall_congr' fun p => ?_
  cases (t.wellOf p).isSome <;> simp

theorem wellPair_iff (t : Setup) (p : Pump) : setupPairHolds t (.well p) = true ↔ SetupPairValid t (.well p) := by
  have ahead (w : Well) : (pumpsBefore p).filter (fun q => setupWellOf t q == some w)
      = Pump.all.filter fun q => decide (q.index < p.index ∧ t.wellOf q = some w) := by
    rw [pumpsBefore_eq, List.filter_filter]
    exact List.filter_congr fun q _ => by
      rw [Bool.decide_and, Bool.and_comm]
      congr 1
      exact Bool.beq_eq_decide_eq _ _
  simp only [setupPairHolds, SetupPairValid]
  show _ ↔ ∀ w, setupWellOf t p = some w → _
  cases setupWellOf t p with
  | none => simp
  | some w => simp [ahead]

theorem setupPairHolds_iff {key : SetupKey} (series : InSeries key) (t : Setup) :
    setupPairHolds t key = true ↔ SetupPairValid t key := by
  have later {n : Nat} (h : n = 1 ∨ n = 2 ∨ n = 3 ∨ n = 4) {P : Prop} : (n = 1 ∨ P) ↔ (1 < n → P) := by
    rcases h with rfl | rfl | rfl | rfl <;> simp
  cases key with
  | lowFloat w | runWeight p | rakeRunWeight k | stopDiff k | criticalDiff k | blindingDiff k =>
    simp [setupPairHolds, SetupPairValid]
  | well p => exact wellPair_iff t p
  | drive p => exact drivePair_iff t p
  | startLevels w n => simp [setupPairHolds, SetupPairValid, later series]
  | stopLevels w n => simp [setupPairHolds, SetupPairValid, later series]
  | rakeDrive k => exact rakeDrivePair_iff t k
  | _ => simp [setupPairHolds, SetupPairValid]

theorem setupFirstFailing_finds (t : Setup) : FindsFrom 0 (setupFirstFailing t) fun i =>
    ∀ key, SetupKey.all[i]? = some key → SetupValueValid t key ∧ SetupPairValid t key := by
  refine (findIdx?_finds SetupKey.all _).iff fun i => forall₂_congr fun key at_i => ?_
  simp [setupInRange_iff, setupPairHolds_iff (inSeries_of_key at_i)]

/-! ## The tables -/

/-- What a validation finds is the first failing entry, the main section before the header (R180). -/
def Judges (found : Option (Section × Nat)) (V : Section → Nat → Prop) : Prop :=
  match found with
  | none => ∀ sect i, V sect i
  | some (sect, i) => ¬ V sect i ∧ ∀ b j, EntryBefore (b, j) (sect, i) → V b j

/-- The failing entry of the main section, and otherwise that of the header. -/
def inOrder (main header : Option Nat) : Option (Section × Nat) :=
  match main with
  | some i => some (.main, i)
  | none => header.map (Section.header, ·)

/-- A main section that is judged first, and then the header. -/
theorem judges_of {V : Section → Nat → Prop} {main : Option Nat} {header : Option Nat}
    (first : FindsFrom 0 main (V .main)) (second : FindsFrom 0 header (V .header)) :
    Judges (inOrder main header) V := by
  cases main with
  | some i =>
    obtain ⟨_, fails, before⟩ := first
    refine ⟨fails, fun b j lower => ?_⟩
    rcases lower with ⟨same, below⟩ | ⟨_, no⟩
    · cases same
      exact before j (Nat.zero_le j) below
    · cases no
  | none =>
    cases header with
    | none => exact fun sect i => by cases sect; exacts [first i (Nat.zero_le i), second i (Nat.zero_le i)]
    | some i =>
      obtain ⟨_, fails, before⟩ := second
      refine ⟨fails, fun b j lower => ?_⟩
      cases b with
      | main => exact first j (Nat.zero_le j)
      | header =>
        rcases lower with ⟨_, below⟩ | ⟨no, _⟩
        · exact before j (Nat.zero_le j) below
        · cases no

theorem judges_main {V : Section → Nat → Prop} {main : Option Nat} (first : FindsFrom 0 main (V .main))
    (header : ∀ i, V .header i) : Judges (main.map (Section.main, ·)) V := by
  have both := judges_of (header := none) first fun i _ => header i
  cases main <;> exact both

/-- The header entry of a level-volume bank that fails. -/
def volumeHeader (t : LevelVolume) : Option Nat :=
  if inRange (-5000) 15000 t.base && inRange 10 1000 t.stepSize then none else some 0

/-- The header entry of a WEIR bank that fails. -/
def weirHeader (t : Weir) : Option Nat :=
  if !(inRange 5 200 t.steps.one) then some 0 else if !(inRange 5 200 t.steps.two) then some 1 else none

theorem volumeFailing_eq (t : LevelVolume) : volumeFailing t = inOrder
    (firstFailing (fun i before v => decide (v ≤ 4000000) && (i == 0 || decide (before ≤ v))) 0 0 t.volumes) (volumeHeader t) := by
  unfold volumeFailing volumeHeader inOrder
  cases firstFailing (fun i before v => decide (v ≤ 4000000) && (i == 0 || decide (before ≤ v))) 0 0 t.volumes with
  | some part => rfl
  | none =>
    dsimp only
    split <;> rfl

theorem weirFailing_eq (t : Weir) : weirFailing t = inOrder
    (firstFailing (fun i before v => decide (v ≤ 20000)
      && (i % 17 == 0 || if false then decide (v ≤ before) else decide (before ≤ v))) 0 0 t.flows) (weirHeader t) := by
  unfold weirFailing weirHeader inOrder
  simp only [Bool.false_eq_true, if_false]
  cases firstFailing (fun i before v => decide (v ≤ 20000) && (i % 17 == 0 || decide (before ≤ v))) 0 0 t.flows with
  | some part => rfl
  | none =>
    dsimp only
    split
    · rfl
    · split <;> rfl

theorem failing_judges (t : Tables) (id : TableId) (short : t.sources.inactive.length ≤ 16) :
    Judges (failing t id) (EntryValid t id) := by
  cases id with
  | sampleMap => exact judges_main (sampleFailing_finds _) fun _ => trivial
  | pumpCurves => exact judges_main (flows_find t.pumpCurves.inactive 5000 true) fun _ => trivial
  | stationSetup => exact judges_main (setupFirstFailing_finds _) fun _ => trivial
  | gates => exact judges_main (gatesFailing_finds _) fun _ => trivial
  | sources => exact judges_main (sourcesFailing_finds short) fun _ => trivial
  | levelVolume w =>
    have header : FindsFrom 0 (volumeHeader (t.levelVolume.get w).inactive) (EntryValid t (.levelVolume w) .header) := by
      unfold volumeHeader
      split
      · next both =>
        simp only [Bool.and_eq_true, inRange_iff] at both
        exact fun _ _ _ => both
      · next fails =>
        simp only [Bool.and_eq_true, inRange_iff] at fails
        exact FindsFrom.here fun all => fails (all rfl)
    have both := judges_of (V := EntryValid t (.levelVolume w)) (volumes_find _) header
    rwa [← volumeFailing_eq] at both
  | weir =>
    have header : FindsFrom 0 (weirHeader t.weir.inactive) (EntryValid t .weir .header) := by
      have out {v : Int} : (!inRange 5 200 v) = true ↔ ¬ Within 5 200 v := by rw [← inRange_iff, Bool.not_eq_true', Bool.not_eq_true]
      unfold weirHeader
      split
      · next fails => exact FindsFrom.here fun all => out.mp fails (all.1 rfl)
      · next one =>
        have one : Within 5 200 t.weir.inactive.steps.one := not_not.mp (mt out.mpr one)
        split
        · next fails =>
          have first : EntryValid t .weir .header 0 := ⟨fun _ => one, nofun⟩
          exact FindsFrom.later first (FindsFrom.here fun all => out.mp fails (all.2 rfl))
        · next two => exact fun _ _ => ⟨fun _ => one, fun _ => not_not.mp (mt out.mpr two)⟩
    have both := judges_of (V := EntryValid t .weir) (flows_find _ _ _) header
    rwa [← weirFailing_eq] at both

/-- Settles O55. -/
theorem tablesAreValidated : Obligations.TablesAreValidated := by
  intro t id short
  have judged := failing_judges t id short
  cases found : failing t id with
  | none =>
    rw [found] at judged
    exact ⟨⟨fun _ => judged, fun _ => rfl⟩, nofun⟩
  | some x =>
    rw [found] at judged
    obtain ⟨fails, before⟩ := judged
    exact ⟨⟨nofun, fun all => absurd (all x.1 x.2) fails⟩, fun sect i same => by cases same; exact ⟨fails, before⟩⟩

end Tables

end Sys2Proof.Machine
end


section
/-! PROOF. The checks of a request, the clock and the counters (R176, R185). -/

namespace Sys2Proof.Machine

section Requests

variable {α : Type} {s : State} {h : ReqHead} {args : Option α} {form : α → Bool} {need : Need} {f : State → Nat → α → State}
  {e : SourceEntry}

theorem onRequest_refused {r : ResultCode} (refused : checkRequest s h (args.any form) need = .error r) :
    onRequest s h args form need f = answered s h r .none := by
  unfold onRequest
  rw [refused]
  cases args <;> exact respond_eq ..

theorem onRequest_unknown (unknown : sourceEntry s h.source = none) :
    onRequest s h args form need f = answered s h .notKnown .none :=
  onRequest_refused (by simp [checkRequest, unknown])

theorem onRequest_barred (entry : sourceEntry s h.source = some e) (barred : e.manage = false) :
    onRequest s h args form need f = answered s h .denied .none :=
  onRequest_refused (by simp [checkRequest, entry, barred])

theorem onRequest_malformed (entry : sourceEntry s h.source = some e) (manage : e.manage = true)
    (bad : args.any form = false) : onRequest s h args form need f = answered s h .badArgument .none :=
  onRequest_refused (by simp [checkRequest, entry, manage, bad])

theorem onRequest_above (entry : sourceEntry s h.source = some e) (manage : e.manage = true) (good : args.any form = true)
    (above : needMet s need (effective e h.authority) = false) :
    onRequest s h args form need f = answered s h .denied .none :=
  onRequest_refused (by simp [checkRequest, entry, manage, good, above])

theorem onRequest_taken {a : α} (entry : sourceEntry s h.source = some e) (manage : e.manage = true) (good : form a = true)
    (met : needMet s need (effective e h.authority) = true) :
    onRequest s h (some a) form need f = f s (effective e h.authority) a := by
  simp [onRequest, checkRequest, entry, manage, good, met]

/-- Settles O57. -/
theorem requestsAreCheckedAndAnswered : Obligations.RequestsAreCheckedAndAnswered := by
  intro h s live
  refine ⟨fun c request => ⟨fun unknown => ?_, fun e entry barred => ?_⟩, fun c e request entry manage => ?_,
    fun c e request entry manage => ?_, fun c e request entry manage above => ?_, fun n e entry manage low => ?_,
    fun r part e entry manage inside => ?_⟩
  · rcases request with ⟨x, rfl⟩ | ⟨x, rfl⟩ | ⟨x, rfl⟩ | ⟨x, rfl⟩ | ⟨x, rfl⟩ | ⟨x, rfl⟩ | ⟨x, rfl⟩ | ⟨x, rfl⟩ | ⟨x, rfl⟩ | ⟨x, rfl⟩
    all_goals
      apply whenLive_next live
      exact onRequest_unknown unknown
  · rcases request with ⟨x, rfl⟩ | ⟨x, rfl⟩ | ⟨x, rfl⟩ | ⟨x, rfl⟩ | ⟨x, rfl⟩ | ⟨x, rfl⟩ | ⟨x, rfl⟩ | ⟨x, rfl⟩ | ⟨x, rfl⟩ | ⟨x, rfl⟩
    all_goals
      apply whenLive_next live
      exact onRequest_barred entry barred
  · rcases request with rfl | rfl | rfl | rfl | rfl | rfl | rfl | rfl | rfl | rfl
    all_goals
      apply whenLive_next live
      exact onRequest_malformed entry manage rfl
  · rcases request with ⟨a, rfl, bad⟩ | ⟨a, rfl, bad⟩ | ⟨r, part, rfl, bad⟩ | ⟨n, rfl, bad⟩ | ⟨n, rfl, bad⟩
    all_goals
      apply whenLive_next live
      exact onRequest_malformed entry manage (by simpa using bad)
  · have short : needMet s .trusted (effective e h.authority) = false := by
      exact decide_eq_false (Nat.not_le.mpr above)
    rcases request with ⟨a, rfl, good⟩ | ⟨id, rfl⟩ | ⟨id, rfl⟩ | ⟨x, rfl⟩ | rfl | rfl
    · apply whenLive_next live
      exact onRequest_above entry manage good short
    all_goals
      apply whenLive_next live
      exact onRequest_above entry manage rfl short
  · apply whenLive_next live
    split
    · next top =>
      have met : needMet s .top (effective e h.authority) = true := by simp [needMet, effective, top]
      exact (onRequest_taken (a := n) entry manage (decide_eq_true low) met).trans (respond_eq ..)
    · next under =>
      exact onRequest_above entry manage (decide_eq_true low) (by simpa [needMet, effective] using under)
  · apply whenLive_next live
    exact (onRequest_taken (a := (r, part)) (need := .manage) entry manage (decide_eq_true inside) rfl).trans (respond_eq ..)

end Requests

section Clock

variable {s : State} {h : ReqHead}

theorem bootFrames_clock (s : State) : (bootFrames s).mu = s.mu ∧ (bootFrames s).now = s.now := by
  have floats (t : State) : dcMask (offerFloats t) = dcMask t := each_dc _ (fun s p => by split <;> simp) _ _
  exact ⟨(eq_of_mask dcMask State.mu (fun _ => rfl) (floats _)).trans
      (eq_of_mask cuMask State.mu (fun _ => rfl) (offerCadenceAll_cu _)),
    (eq_of_mask dcMask State.now (fun _ => rfl) (floats _)).trans
      (eq_of_mask cuMask State.now (fun _ => rfl) (offerCadenceAll_cu _))⟩

theorem answered_now (s : State) (h : ReqHead) (r : ResultCode) (d : RspData) : (answered s h r d).now = s.now := by
  unfold answered
  split <;> rfl

theorem restartNow_clock (s : State) (h : ReqHead) : (restartNow s h).mu = Management.reset 0 ∧ (restartNow s h).now = 0 := by
  unfold restartNow restartPart
  rw [respond_eq, answered_mu, answered_now, (bootFrames_clock _).1, (bootFrames_clock _).2, State.raiseIf_mu, State.raiseIf_now]
  exact ⟨rfl, rfl⟩

/-- Settles O58. -/
theorem clockAndCounters : Obligations.ClockAndCounters := by
  intro h s
  refine ⟨fun strap off low high => ?_, fun live => ⟨fun c restart idle => ?_, fun d at_d due_d => ?_, fun x permitted => ?_,
    fun permitted => ?_⟩⟩
  · have own : strapAddresses strap = true := decide_eq_true ⟨low, high⟩
    refine ⟨_, exec_powerOn s strap, ?_⟩
    rw [if_neg (by simp [off]), bootPart, if_pos own, (bootFrames_clock _).1, (bootFrames_clock _).2]
    exact ⟨rfl, rfl, rfl⟩
  · refine ⟨_, exec_restart_or_deferredRestart live restart (storing_eq_false idle), ?_⟩
    rw [(restartNow_clock s h).1, (restartNow_clock s h).2]
    exact ⟨rfl, rfl, rfl⟩
  · apply whenDue_next live
    · rw [at_d]
      exact decide_eq_true due_d
    · rw [at_d]
      rfl
  · apply whenLive_next live
    rw [onRequest_permitted permitted rfl, respond_eq]
  · apply whenLive_next live
    rw [onRequest_permitted permitted rfl, respond_eq]
    rfl

end Clock

end Sys2Proof.Machine
end


section
/-! PROOF. Power, and the restart: what the blocks originate at a reset changes no more than their own records (R164, R182, R186). -/

namespace Sys2Proof.Machine

section Originating

variable {s t u : State} {p : Pump}

/-- What the frames a block originates at a reset may change: the CONTROL queue, the nodes and channels of CU, the Pump Records. -/
def originMask (s : State) : State :=
  { s with lp := { s.lp with control := [], ownSequence := 0 }, raised := [], pumps := State.reset.pumps, nodes := [],
           channels := State.reset.channels }

/-- A block has originated frames: no pump has changed its state or owner, and no event is taken back. -/
structure Originates (s t : State) : Prop where
  frame : originMask t = originMask s
  pump : ∀ p, (t.pump p).state = (s.pump p).state ∧ (t.pump p).owner = (s.pump p).owner
  raised : ∀ e ∈ s.raised, e ∈ t.raised

theorem Originates.refl (s : State) : Originates s s := ⟨rfl, fun _ => ⟨rfl, rfl⟩, fun _ => id⟩

theorem Originates.trans (h : Originates s t) (k : Originates t u) : Originates s u :=
  ⟨k.frame.trans h.frame, fun p => ⟨(k.pump p).1.trans (h.pump p).1, (k.pump p).2.trans (h.pump p).2⟩,
    fun e m => k.raised e (h.raised e m)⟩

theorem Originates.each {α : Type} {f : State → α → State} (step : ∀ s x, Originates s (f s x)) (xs : List α) (s : State) :
    Originates s (State.each f xs s) := by
  induction xs generalizing s with
  | nil => exact .refl s
  | cons x xs ih => exact (step s x).trans (ih (f s x))

theorem Originates.raiseIf (b : Bool) (e : Instr) : Originates s (s.raiseIf b e) := by
  unfold State.raiseIf
  split
  · exact ⟨rfl, fun _ => ⟨rfl, rfl⟩, fun e m => List.mem_append_left _ m⟩
  · exact .refl s

theorem originates_offerControl {dest : Addr} {answering : Option (BitVec 6)} {payload : OutPayload}
    (placed : offerControl s dest answering payload = some t) : Originates s t := by
  unfold offerControl at placed
  split at placed
  · cases placed
    have joined := Originates.raiseIf (s := { s with lp := { s.lp with
      control := s.lp.control ++ [completeFrame s dest answering payload]
      ownSequence := sequenceAfter s answering } }) (choiceOnJoin s.lp) (.loopOutFree false)
    exact ⟨joined.frame, joined.pump, joined.raised⟩
  · cases placed

theorem Originates.retouch {r : PumpRecord} (h : Originates s t) (state : r.state = (t.pump p).state)
    (owner : r.owner = (t.pump p).owner) : Originates s (t.setPump p r) := by
  refine h.trans ⟨rfl, fun q => ?_, fun _ => id⟩
  rw [State.pump_setPump]
  split
  · next same => exact same ▸ ⟨state, owner⟩
  · exact ⟨rfl, rfl⟩

theorem originates_buildCommand (change : Bool) : Originates s (buildCommand s p change) := by
  unfold buildCommand offerCommand
  split
  · split
    · next placed => exact (originates_offerControl placed).retouch (by unfold commandPlaced; rfl) (by unfold commandPlaced; rfl)
    · split
      · exact (Originates.refl s).retouch rfl rfl
      · exact .refl s
  · exact (Originates.refl s).retouch rfl rfl

theorem originates_cadencePlaced (node : Nat) (cls : StationState) : Originates s (cadencePlaced s node cls) := by
  have stale : Originates s (resetStale s node cls) := by
    refine .each (fun s e => ?_) _ s
    split
    · exact ⟨rfl, fun _ => ⟨rfl, rfl⟩, fun _ => id⟩
    · exact .refl s
  unfold cadencePlaced
  dsimp only
  split <;> split
  all_goals
    first
    | exact stale.trans ⟨rfl, fun _ => ⟨rfl, rfl⟩, fun _ => id⟩
    | exact ⟨rfl, fun _ => ⟨rfl, rfl⟩, fun _ => id⟩

theorem originates_offerCadence (node : Nat) : Originates s (offerCadence s node) := by
  unfold offerCadence placeCadence
  cases placed : offerControl s node none (.cadence s.ssu.state none) with
  | none => exact ⟨rfl, fun _ => ⟨rfl, rfl⟩, fun _ => id⟩
  | some t => exact (originates_offerControl placed).trans (originates_cadencePlaced ..)

theorem originates_bootFrames (s : State) : Originates s (bootFrames s) := by
  have reported : Originates s (reportFaults s) := ⟨rfl, fun _ => ⟨rfl, rfl⟩, fun e m => List.mem_append_left _ m⟩
  refine (reported.trans (.each (fun s (c : CadenceState) => originates_offerCadence c.node) _ _)).trans
    (.each (fun s p => ?_) _ _)
  split
  · exact originates_buildCommand true
  · exact .refl s

theorem reportFaults_raised {id : TableId} (faulty : storeFaulty s.store id = true) :
    .recordSubmission (.tableStoreFault id) ∈ (reportFaults s).raised := by
  have listed : id ∈ allTables := by cases id with
    | levelVolume w => cases w <;> decide
    | _ => decide
  exact List.mem_append_right _ (List.mem_map.mpr ⟨id, List.mem_filter.mpr ⟨listed, faulty⟩, rfl⟩)

theorem bootFrames_faults {id : TableId} (faulty : storeFaulty s.store id = true) :
    .recordSubmission (.tableStoreFault id) ∈ (bootFrames s).raised := by
  refine Originates.raised (s := reportFaults s) ?_ _ (reportFaults_raised faulty)
  refine Originates.trans (.each (fun s (c : CadenceState) => originates_offerCadence c.node) _ _) (.each (fun s p => ?_) _ _)
  split
  · exact originates_buildCommand true
  · exact .refl s

/-- What originated frames leave of LP. -/
theorem Originates.lp (h : Originates s t) :
    { t.lp with control := [], ownSequence := 0 } = { s.lp with control := [], ownSequence := 0 } :=
  eq_of_mask originMask (fun s => { s.lp with control := [], ownSequence := 0 }) (fun _ => rfl) h.frame

theorem Originates.eq {α : Type} (h : Originates s t) (g : State → α) (seen : ∀ u, g (originMask u) = g u) : g t = g s :=
  eq_of_mask originMask g seen h.frame

/-- A pump fitted by the loaded setup is in FLOAT after a reset. -/
theorem resetBlocks_float (l : Loop) {w : Well} (fitted : (resetBlocks s l).wellOf p = some w) :
    ((resetBlocks s l).pump p).state = .float ∧ ((resetBlocks s l).pump p).owner = .float := by
  have record : (resetBlocks s l).pump p = PumpRecord.reset (resetBlocks s l).setup 0 p := PerPump.get_make _ p
  have fit : (resetBlocks s l).setup.fitted p = true := by
    rw [Setup.fitted, setupFitted_iff]
    exact Option.isSome_iff_exists.mpr ⟨w, fitted⟩
  rw [record]
  simp [PumpRecord.reset, fit]

end Originating

section Restart

variable {α : Type} {s : State} {h : ReqHead}

theorem mode_of_live (live : s.live = true) : s.powered = true ∧ s.mode = .full := by
  simpa [State.live] using live

theorem restartPart_originates (s : State) : Originates (restartBlocks s) (restartPart s) :=
  (Originates.raiseIf _ _).trans (originates_bootFrames _)

theorem answered_frame (s : State) (h : ReqHead) (r : ResultCode) (d : RspData) :
    answered s h r d = { s with lp := (answered s h r d).lp, raised := (answered s h r d).raised } := by
  unfold answered
  split <;> rfl

/-- With nothing in the GENERAL queue an answer joins it. -/
theorem answered_lp (empty : s.lp.general = []) (r : ResultCode) (d : RspData) : (answered s h r d).lp
    = { s.lp with general := [⟨h.source, s.lp.ownAddress, h.frameSeq, .mgmtRsp h.tag r d⟩] } := by
  unfold answered
  rw [if_pos (by simp [empty]), empty]
  rfl

/-- Settles O60. -/
theorem restartResets : Obligations.RestartResets := by
  intro h s live
  refine ⟨fun c restart idle => ?_, fun id x d storing => ⟨fun permitted free => ?_, ?_⟩⟩
  · have boots := restartPart_originates s
    have kept {α : Type} (g : State → α) (seen : ∀ u, g (originMask u) = g u) : g (restartPart s) = g (restartBlocks s) :=
      boots.eq g seen
    have general : (restartPart s).lp.general = [] := kept (fun s => s.lp.general) fun _ => rfl
    have tables : (restartPart s).tables = loadTables s.store := kept State.tables fun _ => rfl
    have setup : (restartPart s).setup = (loadTables s.store).setup.active := congrArg (fun t => t.setup.active) tables
    have own : (restartPart s).lp.ownAddress = s.lp.ownAddress := kept (fun s => s.lp.ownAddress) fun _ => rfl
    have forward : (restartPart s).lp.forward = keptForward (restartPart s).setup s.lp.forward := by
      rw [setup]
      exact kept (fun s => s.lp.forward) fun _ => rfl
    have budget : (restartPart s).budget = Budget.reset (restartPart s).setup := by
      rw [setup]
      exact kept State.budget fun _ => rfl
    have mu : (restartPart s).mu = Management.reset 0 := kept State.mu fun _ => rfl
    refine ⟨_, exec_restart_or_deferredRestart live restart (storing_eq_false idle), ?_⟩
    rw [restartNow, respond_eq, answered_frame, answered_lp general]
    refine ⟨kept State.mode fun _ => rfl, (kept State.powered fun _ => rfl).trans (mode_of_live live).1,
      kept State.now fun _ => rfl, own, kept (fun s => s.lp.sending) fun _ => rfl, forward, ?_,
      kept State.store fun _ => rfl, tables, budget, kept (fun s => s.elr.records) fun _ => rfl, congrArg Management.clock mu,
      congrArg Management.timeUnset mu, congrArg Management.lockLevel mu, congrArg Management.commit mu,
      congrArg Management.restartWaiting mu, fun p w fitted => ?_, fun w => ?_⟩
    · dsimp only
      rw [own]
    · have fitted : (restartBlocks s).wellOf p = some w := (kept (fun s => s.wellOf p) fun _ => rfl).symm.trans fitted
      exact (boots.pump p).1.trans (resetBlocks_float _ fitted).1
    · exact (kept (fun s => s.ssu.well.get w) fun _ => rfl).trans (PerWell.get_of ..)
  · apply whenLive_next live
    rw [onRequest_permitted permitted rfl]
    simp [Machine.storing, storing, free]
  · apply whenLive_next live
    split
    · simp [Machine.storing, storing]
    · rfl

/-! ## Power (R164, R182) -/

/-- What a power-on leaves, whatever the mode: nothing but the store is kept. -/
theorem bootPart_reset (s : State) (strap : BitVec 6) (g : State → α) (seen : ∀ u, g (originMask u) = g u)
    (timers : g (stopTimers (resetBlocks s (Loop.reset strap.toNat 0))) = g (resetBlocks s (Loop.reset strap.toNat 0)))
    (mode : ∀ (u : State) b m, g { u with powered := b, mode := m } = g u) :
    g (bootPart s strap) = g (resetBlocks s (Loop.reset strap.toNat 0)) := by
  unfold bootPart
  split
  · exact ((originates_bootFrames _).eq g seen).trans (mode _ _ _)
  · exact (mode _ _ _).trans timers

theorem bootPart_powered (s : State) (strap : BitVec 6) : (bootPart s strap).powered = true := by
  unfold bootPart
  split
  · exact (originates_bootFrames _).eq State.powered fun _ => rfl
  · rfl

theorem bootPart_full {strap : BitVec 6} (own : strapAddresses strap = true) :
    (bootPart s strap).mode = .full ∧ (bootPart s strap).lp.silenceAt = some 2000
    ∧ (∀ p w, (bootPart s strap).wellOf p = some w →
        ((bootPart s strap).pump p).state = .float ∧ ((bootPart s strap).pump p).owner = .float)
    ∧ ∀ id, storeFaulty s.store id = true → .recordSubmission (.tableStoreFault id) ∈ (bootPart s strap).raised := by
  have part : bootPart s strap
      = bootFrames { resetBlocks s (Loop.reset strap.toNat 0) with powered := true, mode := .full } := if_pos own
  rw [part]
  have boots := originates_bootFrames { resetBlocks s (Loop.reset strap.toNat 0) with powered := true, mode := .full }
  refine ⟨boots.eq State.mode fun _ => rfl, boots.eq (fun s => s.lp.silenceAt) fun _ => rfl, fun p w fitted => ?_,
    fun id faulty => bootFrames_faults faulty⟩
  have fitted : (resetBlocks s (Loop.reset strap.toNat 0)).wellOf p = some w :=
    (boots.eq (fun s => s.wellOf p) fun _ => rfl).symm.trans fitted
  obtain ⟨state, owner⟩ := boots.pump p
  exact ⟨state.trans (resetBlocks_float _ fitted).1, owner.trans (resetBlocks_float _ fitted).2⟩

/-- The copy that a write keeps (R182). -/
theorem tornPair_keeps (c : CopyPair) (contents : TableContents) (how : TornWrite) :
    if copyPasses c.first = true ∧ (copyPasses c.second = true →
        higherGeneration (generationOf c.second) (generationOf c.first) = false)
    then (tornPair c contents how).first = c.first else (tornPair c contents how).second = c.second := by
  have keepsFirst : overwritesFirst c = false ↔ copyPasses c.first = true ∧ (copyPasses c.second = true →
      higherGeneration (generationOf c.second) (generationOf c.first) = false) := by
    unfold overwritesFirst
    cases copyPasses c.first <;> cases copyPasses c.second <;> simp
  split
  · next first =>
    have which := keepsFirst.mpr first
    cases how <;> simp [tornPair, writePair, which]
  · next second =>
    have which := Bool.of_not_eq_false (mt keepsFirst.mp second)
    cases how <;> simp [tornPair, writePair, which]

/-- What a loss of power leaves of the store (R182). -/
theorem tearStore_store (s : State) :
    ((∀ id h d, s.mu.commit ≠ .storing id h d) → (tearStore s).store = s.store)
    ∧ ∀ id h d, s.mu.commit = .storing id h d → ∃ torn, (tearStore s).store
        = setPair s.store id (tornPair (storePair s.store id) (activeContents s.tables id) torn) := by
  unfold tearStore
  refine ⟨fun idle => ?_, fun id h d storing => ?_⟩
  · split
    · next storing => exact absurd storing (idle _ _ _)
    · rfl
  · rw [storing]
    exact ⟨_, rfl⟩

/-- Settles O13. -/
theorem powerComesAndGoes : Obligations.PowerComesAndGoes := by
  intro strap s
  refine ⟨fun off => ?_, fun powered => ?_⟩
  · refine ⟨bootPart s strap, (exec_powerOn s strap).trans (by rw [if_neg (by simp [off])]), ?_⟩
    have kept {α : Type} (g : State → α) (seen : ∀ u, g (originMask u) = g u)
        (timers : g (stopTimers (resetBlocks s (Loop.reset strap.toNat 0))) = g (resetBlocks s (Loop.reset strap.toNat 0)))
        (mode : ∀ (u : State) b m, g { u with powered := b, mode := m } = g u) :=
      bootPart_reset s strap g seen timers mode
    have tables : (bootPart s strap).tables = loadTables s.store := bootPart_tables s strap
    have setup : (bootPart s strap).setup = (loadTables s.store).setup.active := congrArg (fun t => t.setup.active) tables
    refine ⟨bootPart_powered s strap, kept State.now (fun _ => rfl) rfl fun _ _ _ => rfl,
      kept (fun s => s.lp.ownAddress) (fun _ => rfl) rfl fun _ _ _ => rfl,
      kept (fun s => s.lp.forward) (fun _ => rfl) rfl fun _ _ _ => rfl,
      kept (fun s => s.lp.general) (fun _ => rfl) rfl fun _ _ _ => rfl,
      kept (fun s => s.lp.sending) (fun _ => rfl) rfl fun _ _ _ => rfl,
      kept State.store (fun _ => rfl) rfl fun _ _ _ => rfl, tables, ?_, ?_, ?_,
      kept State.points (fun _ => rfl) rfl fun _ _ _ => rfl,
      kept (fun s => s.elr.records) (fun _ => rfl) rfl fun _ _ _ => rfl,
      kept (fun s => s.elr.sequence) (fun _ => rfl) rfl fun _ _ _ => rfl,
      kept (fun s => s.mu.clock) (fun _ => rfl) rfl fun _ _ _ => rfl,
      kept (fun s => s.mu.timeUnset) (fun _ => rfl) rfl fun _ _ _ => rfl,
      kept (fun s => s.mu.lockLevel) (fun _ => rfl) rfl fun _ _ _ => rfl, ?_⟩
    · rw [setup]
      exact kept State.budget (fun _ => rfl) rfl fun _ _ _ => rfl
    · rw [setup]
      exact kept State.duty (fun _ => rfl) rfl fun _ _ _ => rfl
    · rw [setup]
      exact kept State.ssu (fun _ => rfl) rfl fun _ _ _ => rfl
    · split
      · next own => exact bootPart_full (decide_eq_true own)
      · next out =>
        rw [bootPart, if_neg (by simpa [strapAddresses] using out)]
        exact ⟨rfl, rfl, rfl, rfl⟩
  · obtain ⟨idle, torn⟩ := tearStore_store s
    refine ⟨losePower s, (exec_powerLoss s).trans (by rw [if_pos powered]), rfl, rfl, rfl, rfl, rfl, rfl, rfl, idle,
      fun id h d storing => ?_⟩
    obtain ⟨how, store⟩ := torn id h d storing
    have store : (losePower s).store = setPair s.store id (tornPair (storePair s.store id) (activeContents s.tables id) how) :=
      store
    refine ⟨fun other apart => ?_, fun c same => ?_⟩
    · rw [store, storePair_setPair, if_neg apart]
    · rw [store, storePair_setPair, if_pos rfl, ← same]
      exact tornPair_keeps ..

end Restart

end Sys2Proof.Machine
end


section
/-! PROOF. What becomes of a frame that arrives (R166 to R170). -/

namespace Sys2Proof.Machine

section Disposal

variable {s : State} {f : RawFrame}

/-- What forwarding a frame changes (R170). -/
theorem joinForward_frame (s : State) (f : RawFrame) : joinForward s f = { s with
    lp := { s.lp with
      forward := if s.lp.forward.length < 8 then s.lp.forward ++ [f] else s.lp.forward
      overruns := if s.lp.forward.length < 8 then s.lp.overruns else satInc 65535 s.lp.overruns }
    raised := (joinForward s f).raised } := by
  unfold joinForward
  split
  · unfold State.raiseIf
    split <;> rfl
  · rfl

theorem raiseIf_raised_subset (b : Bool) (x : Instr) : ∀ e ∈ s.raised, e ∈ (s.raiseIf b x).raised := by
  intro e member
  unfold State.raiseIf
  split
  · exact List.mem_append_left _ member
  · exact member

theorem mem_raiseIf (x : Instr) {b : Bool} (holds : b = true) : x ∈ (s.raiseIf b x).raised := by
  unfold State.raiseIf
  rw [if_pos holds]
  exact List.mem_append_right _ (.head _)

theorem joinForward_raised : ∀ e ∈ s.raised, e ∈ (joinForward s f).raised := by
  intro e member
  unfold joinForward
  split
  · exact raiseIf_raised_subset _ _ e member
  · exact member

/-- The hand-off changes the events on their way alone. -/
theorem handFrame_frame (s : State) (f : RawFrame) : handFrame s f = { s with raised := (handFrame s f).raised } := by
  unfold handFrame handDriveStat State.raiseIf
  dsimp only
  repeat' split
  all_goals rfl

/-- The block of its kind is handed the frame (R168). -/
structure HandedOver (s : State) (f : RawFrame) (es : List Instr) : Prop where
  sample : frameKind f.kind = .sample → .sampleFrame (rawSource f) f.payload ∈ es
  edge : frameKind f.kind = .edge → .edgeFrame (rawSource f) f.payload ∈ es
  supply : frameKind f.kind = .supplyStat → .supplyStat (rawSource f) (Config.supplyField f.payload) ∈ es
  pump : frameKind f.kind = .driveStat → (pumpAtDrive s (rawSource f)).isSome → .driveStat (rawSource f) f.payload ∈ es
  rake : frameKind f.kind = .driveStat → (screenAtDrive s (rawSource f)).isSome → .rakeDriveStat (rawSource f) f.payload ∈ es

theorem HandedOver.mono {es es' : List Instr} (h : HandedOver s f es) (more : ∀ e ∈ es, e ∈ es') : HandedOver s f es' :=
  ⟨fun k => more _ (h.sample k), fun k => more _ (h.edge k), fun k => more _ (h.supply k),
    fun k x => more _ (h.pump k x), fun k x => more _ (h.rake k x)⟩

theorem handFrame_handedOver (s : State) (f : RawFrame) : HandedOver s f (handFrame s f).raised := by
  have last (e : Instr) : e ∈ (s.raise e).raised := List.mem_append_right _ (.head _)
  have screens (e : Instr) (b : Bool) : (screenAtDrive (s.raiseIf b e) (rawSource f)) = screenAtDrive s (rawSource f) := by
    unfold State.raiseIf
    split <;> rfl
  refine ⟨fun kind => ?_, fun kind => ?_, fun kind => ?_, fun kind known => ?_, fun kind known => ?_⟩ <;>
    simp only [handFrame, kind]
  · exact last _
  · exact last _
  · exact last _
  · exact raiseIf_raised_subset _ _ _ (mem_raiseIf _ known)
  · exact mem_raiseIf _ (by rw [screens]; exact known)

theorem arriveFrame_bad (bad : goodCheck f = false) : arriveFrame s f = countCheck s := by simp [arriveFrame, bad]

theorem arriveFrame_unusable (good : goodCheck f = true) (unusable : addressesUnusable f = true) :
    arriveFrame s f = countHeader (noteGood s) := by simp [arriveFrame, good, unusable]

theorem disposeFrame_own (own : rawSource f = s.lp.ownAddress) : disposeFrame s f = s := if_pos own

theorem disposeFrame_consumed (other : rawSource f ≠ s.lp.ownAddress) (here : rawDestination f = s.lp.ownAddress) :
    disposeFrame s f = consumeFrame s f := by simp [disposeFrame, other, here]

theorem disposeFrame_broadcast (other : rawSource f ≠ s.lp.ownAddress) (away : rawDestination f ≠ s.lp.ownAddress)
    (all : rawDestination f = 63) : disposeFrame s f = broadcastFrame s f := by
  unfold disposeFrame
  rw [if_neg other, if_neg away, if_pos all]

theorem disposeFrame_passed (other : rawSource f ≠ s.lp.ownAddress) (away : rawDestination f ≠ s.lp.ownAddress)
    (single : rawDestination f ≠ 63) : disposeFrame s f = passFrame s f := by
  unfold disposeFrame
  rw [if_neg other, if_neg away, if_neg single]

/-- A frame other than a DRIVE_CMD for another node is handed over and forwarded. -/
theorem disposeFrame_forwarded (other : rawSource f ≠ s.lp.ownAddress) (away : rawDestination f ≠ s.lp.ownAddress)
    (kind : frameKind f.kind ≠ .driveCmd) : disposeFrame s f = joinForward (handFrame s f) f := by
  by_cases all : rawDestination f = 63
  · rw [disposeFrame_broadcast other away all]
    unfold broadcastFrame
    split
    · next same => exact absurd same kind
    · rfl
  · rw [disposeFrame_passed other away all]
    unfold passFrame
    split
    · next same _ => exact absurd same kind
    · rfl

/-- A frame other than a DRIVE_CMD for the part itself changes the events on their way alone. -/
theorem consumeFrame_frame (kind : frameKind f.kind ≠ .driveCmd) :
    consumeFrame s f = { s with raised := (consumeFrame s f).raised } ∧ HandedOver s f (consumeFrame s f).raised := by
  have other {es : List Instr} {k : FrameKind} (same : frameKind f.kind = k) (quiet : k = .mgmtReq ∨ k = .reportAck) :
      HandedOver s f es := by
    rcases quiet with rfl | rfl <;> constructor <;> simp [same]
  cases h : frameKind f.kind with
  | driveCmd => exact absurd h kind
  | mgmtReq =>
    refine ⟨?_, other h (.inl rfl)⟩
    simp only [consumeFrame, h, handRequest]
    split <;> rfl
  | reportAck =>
    refine ⟨?_, other h (.inr rfl)⟩
    simp only [consumeFrame, h]
    rfl
  | _ =>
    simp only [consumeFrame, h]
    exact ⟨handFrame_frame s f, handFrame_handedOver s f⟩

theorem handFrame_driveCmd (kind : frameKind f.kind = .driveCmd) : handFrame s f = s := by simp [handFrame, kind]

/-- Settles O14. -/
theorem arrivalIsDisposed : Obligations.ArrivalIsDisposed := by
  rintro f s g live noted
  have noted : g = noteGood s := noted
  subst noted
  have arrives {t : State} (h : arriveFrame s f = t) : exec (.frameArrival f) s = .next t :=
    (exec_frameArrival live).trans (by rw [h])
  refine ⟨fun bad => arrives (arriveFrame_bad bad), fun good unusable => arrives (arriveFrame_unusable good unusable),
    fun good usable => ?_⟩
  have disposes {t : State} (h : disposeFrame (noteGood s) f = t) : exec (.frameArrival f) s = .next t :=
    arrives ((arriveFrame_eq_disposeFrame good usable).trans h)
  refine ⟨fun own => disposes (disposeFrame_own (s := noteGood s) own), fun other => ⟨fun apart all kind => ?_, fun kind => ?_, fun here =>
    ⟨fun op tag args kind payload => ?_, fun kind short => ?_, fun kind => ?_, fun kind nobody => ?_⟩,
    fun away single kind => ⟨fun nobody => ?_, fun known malformed => ?_⟩⟩⟩
  · have away : rawDestination f ≠ (noteGood s).lp.ownAddress := fun same => apart (same.symm.trans all)
    refine disposes ((disposeFrame_broadcast (s := noteGood s) other away all).trans ?_)
    simp only [broadcastFrame, kind]
    rfl
  · by_cases here : rawDestination f = s.lp.ownAddress
    · obtain ⟨frame, handed⟩ := consumeFrame_frame (s := noteGood s) kind
      exact ⟨_, disposes (disposeFrame_consumed (s := noteGood s) other here), handed.sample, handed.edge, handed.supply, handed.pump,
        handed.rake, fun away => absurd here away, fun _ => frame⟩
    · have handed := (handFrame_handedOver (noteGood s) f).mono (joinForward_raised (f := f))
      refine ⟨_, disposes (disposeFrame_forwarded (s := noteGood s) other here kind), handed.sample, handed.edge, handed.supply, handed.pump,
        handed.rake, fun _ => ?_, fun same => absurd same here⟩
      rw [joinForward_frame, handFrame_frame]
      rfl
  · refine disposes ((disposeFrame_consumed (s := noteGood s) other here).trans ?_)
    simp only [consumeFrame, kind, handRequest, payload]
    rfl
  · refine disposes ((disposeFrame_consumed (s := noteGood s) other here).trans ?_)
    simp only [consumeFrame, kind, handRequest]
    split
    · next shape => simp [shape] at short
    · rfl
  · refine disposes ((disposeFrame_consumed (s := noteGood s) other here).trans ?_)
    simp only [consumeFrame, kind]
    rfl
  · refine disposes ((disposeFrame_consumed (s := noteGood s) other here).trans ?_)
    have nobody : pumpAtDrive (noteGood s) (rawDestination f) = none := nobody
    simp only [consumeFrame, kind, nobody]
    exact handFrame_driveCmd kind
  · have nobody : pumpAtDrive (noteGood s) (rawDestination f) = none := nobody
    refine ⟨_, disposes (disposeFrame_passed (s := noteGood s) other away single), ?_⟩
    simp only [passFrame, kind, nobody, handFrame_driveCmd kind]
    exact joinForward_frame ..
  · obtain ⟨p, known⟩ := Option.isSome_iff_exists.mp known
    have known : pumpAtDrive (noteGood s) (rawDestination f) = some p := known
    have held : policeFrame (noteGood s) p f = (countHeader (noteGood s), false) := by simp [policeFrame, malformed]
    refine disposes ((disposeFrame_of_held (s := noteGood s) other single kind known (by rw [held])).trans ?_)
    rw [held]
    rfl

end Disposal

end Sys2Proof.Machine
end


section
/-! PROOF. DC's operations on one pump as changes of its record and of the events on their way. -/

namespace Sys2Proof.Machine

section Records

variable {r r' : PumpRecord} {s t a b : State} {p q : Pump}

/-! ## Records but for what follows a change -/

/-- What judgements and the count of run seconds leave of a record. -/
theorem of_still {α : Type} (g : PumpRecord → α) (blind : ∀ r, g (still r) = g r) (h : still r' = still r) : g r' = g r := by
  rw [← blind r', h, blind]

/-- A record but for what the offer of a command changes of it, and what follows a change. -/
def bare (r : PumpRecord) : PumpRecord := { still r with count := 0, refreshAt := none, retryAt := none, applied := 0 }

theorem bare_of_still (h : still r' = still r) : bare r' = bare r := by unfold bare; rw [h]

theorem of_bare {α : Type} (g : PumpRecord → α) (blind : ∀ r, g (bare r) = g r) (h : bare r' = bare r) : g r' = g r := by
  rw [← blind r', h, blind]

theorem Held.of_bare (h : bare r' = bare r) (held : Held r) : Held r' := by
  have same : (r'.owner, r'.state) = (r.owner, r.state) := Machine.of_bare (fun r => (r.owner, r.state)) (fun _ => rfl) h
  obtain ⟨owner, state⟩ := Prod.mk.inj same
  unfold Held at *
  rwa [owner, state]

/-! ## Normal forms -/

theorem setPump_self (s : State) (p : Pump) : s.setPump p (s.pump p) = s := by
  have same : s.pumps.set p (s.pumps.get p) = s.pumps := by cases p <;> rfl
  show { s with pumps := s.pumps.set p (s.pumps.get p) } = s
  rw [same]

theorem raiseIf_of {e : Instr} {c : Bool} (h : c = true) : s.raiseIf c e = s.raise e := if_pos h
theorem raiseIf_of_not {e : Instr} {c : Bool} (h : c = false) : s.raiseIf c e = s := if_neg (by simp [h])

/-- A record with its charge. -/
def withCharge (r : PumpRecord) (c : ChargeKind) : PumpRecord := { r with charge := c }

theorem withCharge_self (r : PumpRecord) : withCharge r r.charge = r := rfl

theorem releaseCharge_eq (s : State) (p : Pump) : releaseCharge s p =
    (s.setPump p (withCharge (s.pump p) .none)).raiseIf ((s.pump p).charge != .none) (.chargeRelease (.pump p)) := by
  unfold releaseCharge
  split
  · next free => rw [raiseIf_of_not (by simp [free]), ← free, withCharge_self, setPump_self]
  · next held => exact (raiseIf_of (by simp [held])).symm

/-- The charge after a return. -/
def returned (c : ChargeKind) : ChargeKind := if c = .start then .none else c

theorem returnCharge_eq (s : State) (p : Pump) : returnCharge s p =
    (s.setPump p (withCharge (s.pump p) (returned (s.pump p).charge))).raiseIf ((s.pump p).charge == .start)
      (.grantReturn (.pump p)) := by
  unfold returnCharge
  split
  · next held => rw [raiseIf_of (by simp [held]), held]; rfl
  · next other =>
    have same : returned (s.pump p).charge = (s.pump p).charge := if_neg other
    rw [raiseIf_of_not (by simp [other]), same, withCharge_self, setPump_self]

/-- The charge after it becomes EXTERNAL. -/
def outside (c : ChargeKind) : ChargeKind := if c = .start then .start else .external

theorem chargeExternal_eq (s : State) (p : Pump) : chargeExternal s p =
    (s.setPump p (withCharge (s.pump p) (outside (s.pump p).charge))).raiseIf
      ((s.pump p).charge == .none || (s.pump p).charge == .running) (.externalCharge p ((s.pump p).charge == .running)) := by
  have stands {c : ChargeKind} (h : (s.pump p).charge = c) (same : outside c = c) :
      s.setPump p (withCharge (s.pump p) (outside c)) = s := by
    rw [same, ← h, withCharge_self, setPump_self]
  unfold chargeExternal
  cases h : (s.pump p).charge with
  | none | running => exact (raiseIf_of rfl).symm
  | start | external => exact ((raiseIf_of_not rfl).trans (stands h rfl)).symm

/-- The notice of a surge, if the pump has a well. -/
theorem notifySurge_eq (s : State) (p : Pump) : notifySurge s p = s.raiseAll ((s.wellOf p).map Instr.surgeNotice).toList := by
  unfold notifySurge
  split
  · next h => rw [h]; rfl
  · next h => rw [h]; simp [State.raiseAll]

/-! ## Commands (R82, R85) -/

/-- A DRIVE_CMD that DC offers to a pump's drive. -/
def pumpCommand (s : State) (p : Pump) (act : DriveAction) (speed : Nat) : OutFrame :=
  ⟨driveOf s p, s.lp.ownAddress, s.lp.ownSequence, .driveCmd act speed (s.pump p).count⟩

/-- A command that finds room joins the CONTROL queue and is counted. -/
theorem offerCommand_of_room {act : DriveAction} {speed : Nat} {change : Bool} (room : s.lp.control.length < 8) :
    ∃ lp es, offerCommand s p (some (act, speed)) change =
        { s with lp := lp, raised := s.raised ++ es }.setPump p (commandPlaced s p act speed (s.pump p))
      ∧ lp.control = s.lp.control ++ [pumpCommand s p act speed] ∧ lp.forward = s.lp.forward := by
  unfold offerCommand offerControl
  simp only [if_pos room]
  refine ⟨{ s.lp with control := s.lp.control ++ [pumpCommand s p act speed], ownSequence := s.lp.ownSequence + 1 },
    if choiceOnJoin s.lp then [.loopOutFree false] else [], ?_, rfl, rfl⟩
  cases choiceOnJoin s.lp
  · simp only [Bool.false_eq_true, if_false, List.append_nil]
    rfl
  · rfl

theorem offerCommand_of_full {act : DriveAction} {speed : Nat} {change : Bool} (full : ¬s.lp.control.length < 8) :
    offerCommand s p (some (act, speed)) change =
      if change then s.setPump p { s.pump p with retryAt := nextOffer (s.pump p).retryAt s.now } else s := by
  unfold offerCommand
  simp only [offerControl_of_full full]

/-- The offer of a command changes no more of its pump's record than what `bare` leaves out. -/
theorem offerCommand_bare (command : Option (DriveAction × Nat)) (change : Bool) :
    bare ((offerCommand s p command change).pump q) = bare (s.pump q) := by
  by_cases same : q = p
  · subst same
    match command with
    | none => simp [offerCommand]; rfl
    | some (act, speed) =>
      by_cases room : s.lp.control.length < 8
      · obtain ⟨lp, es, placed, -, -⟩ := offerCommand_of_room (p := q) (act := act) (speed := speed) (change := change) room
        rw [placed, State.pump_setPump, if_pos rfl]
        rfl
      · rw [offerCommand_of_full room]
        split
        · rw [State.pump_setPump, if_pos rfl]
          rfl
        · rfl
  · rw [offerCommand_other s command change same]

theorem buildCommand_bare (change : Bool) : bare ((buildCommand s p change).pump q) = bare (s.pump q) :=
  offerCommand_bare _ _

/-- The action held is STOP. -/
theorem commandOf_stop (held : actionHeld (s.pump p).state = some .stop) : commandOf s p = some (.stop, 100) := by
  unfold commandOf heldCommand
  simp [held]

/-- A held STOP is offered. -/
theorem mem_buildCommand_stop {change : Bool} (held : actionHeld (s.pump p).state = some .stop)
    (room : s.lp.control.length < 8) : pumpCommand s p .stop 100 ∈ (buildCommand s p change).lp.control := by
  unfold buildCommand
  rw [commandOf_stop held]
  obtain ⟨lp, es, placed, control, -⟩ := offerCommand_of_room (p := p) (act := .stop) (speed := 100) (change := change) room
  rw [placed]
  show _ ∈ lp.control
  rw [control]
  simp

/-! ## What a stop leaves (R79) -/

@[simp] theorem inState_state (s : State) (r : PumpRecord) (st : PumpState) : (inState s r st).state = st := rfl

theorem enter_pump (s : State) (p : Pump) (st : PumpState) : (enter s p st).pump p = inState s (s.pump p) st := by
  simp [enter]

theorem releaseCharge_pump : (releaseCharge s p).pump p = withCharge (s.pump p) .none := by
  rw [releaseCharge_eq]; simp [State.pump]

theorem returnCharge_pump : (returnCharge s p).pump p = withCharge (s.pump p) (returned (s.pump p).charge) := by
  rw [returnCharge_eq]; simp [State.pump]

/-- A stopped pump's record, but for the command's count and timers. -/
def stopped (s : State) (r : PumpRecord) : PumpRecord :=
  { inState s (withCharge r (returned r.charge)) .stopping with stopAt := some (s.now + 30000), stopFailed := false }

/-- What of a stopped pump's record its command leaves. -/
theorem stopPump_bare (send : Bool) : bare ((stopPump s p send).pump p) = bare (stopped s (s.pump p)) := by
  obtain ⟨count, refresh, retry, record⟩ := stopPump_pump s p send
  rw [record]
  rfl

/-- A stop returns an unconfirmed charge. -/
theorem stopPump_returns {send : Bool} (held : (s.pump p).charge = .start) :
    .grantReturn (.pump p) ∈ (stopPump s p send).raised := by
  have grown : Grows (returnCharge s p) (stopPump s p send) := by
    unfold stopPump
    dsimp only
    refine grows_send ?_ send
    exact .trans (enter_grows _ p .stopping) (.trans (State.setPump_grows _ _ _) (State.raiseIf_grows _ _ _))
  refine grown.mem_raised ?_
  rw [returnCharge_eq, raiseIf_of (by rw [held]; rfl)]
  exact List.mem_append_right _ (.head _)

/-- A stop of a pump that stays charged is noticed. -/
theorem stopPump_notices {send : Bool} (held : (s.pump p).charge = .running ∨ (s.pump p).charge = .external) :
    .stopNotice p ∈ (stopPump s p send).raised := by
  have charge : ∀ a : State, a = returnCharge s p → (((enter a p .stopping).setPump p
      { (enter a p .stopping).pump p with stopAt := some ((enter a p .stopping).now + 30000), stopFailed := false }).pump p).charge
        = (s.pump p).charge := by
    rintro a rfl
    simp only [State.pump_setPump, if_true, enter, inState, returnCharge_pump]
    show returned (s.pump p).charge = _
    rcases held with held | held <;> rw [held] <;> rfl
  unfold stopPump
  dsimp only
  refine (grows_send (.refl _) send).mem_raised ?_
  rw [charge _ rfl]
  refine mem_raiseIf _ ?_
  rcases held with held | held <;> rw [held] <;> rfl

/-- A stop without a command of DC's own leaves the commands' count. -/
theorem stopPump_count : ((stopPump s p false).pump p).count = (s.pump p).count := by
  unfold stopPump
  simp [enter, inState, State.pump, returnCharge_eq, withCharge]

/-! ## What follows a change (R52, R57) -/

/-- A pump that nothing keeps from being asked for. -/
def Free (r : PumpRecord) : Prop := r.lockout = false ∧ r.disabled = false ∧ (r.state = .off ∨ r.state = .startWait)

theorem enterOff_pump (s : State) (p : Pump) : (enterOff s p).pump p =
    inState s (s.pump p) (if (s.pump p).lockout then .lockedOut else if (s.pump p).disabled then .unavailable .disabled
      else .off) := by
  simp [enterOff, enter]

theorem Free.enterOff (h : Free (s.pump p)) : Free ((enterOff s p).pump p) := by
  obtain ⟨unlocked, enabled, -⟩ := h
  rw [enterOff_pump, unlocked, enabled]
  exact ⟨unlocked, enabled, .inl rfl⟩

theorem treat_free (chosen : List Pump) (h : Free (s.pump p)) : Free ((treat chosen s p).pump p) := by
  obtain ⟨unlocked, enabled, off | waits⟩ := id h
  · unfold treat
    simp only [off]
    split
    · exact h
    · split
      · have asked : ((enter s p .startWait).raise (.startRequest (.pump p) .pump)).pump p = inState s (s.pump p) .startWait := by
          simp [State.pump, enter]
        rw [asked]
        exact ⟨unlocked, enabled, .inr rfl⟩
      · exact h
  · unfold treat
    simp only [waits]
    split
    · exact h
    · split
      · exact h
      · exact Free.enterOff (s := withdraw s p) h

/-- An evaluation takes an idle pump to START_WAIT or leaves it, and a waiting one to OFF or leaves it. -/
theorem free_settles (p : Pump) : Settles fun s t => Free (s.pump p) → Free (t.pump p) where
  refl _ := id
  trans h k := k ∘ h
  duty _ _ := id
  treat l s q h := by
    by_cases same : p = q
    · subst same; exact treat_free l h
    · rwa [treat_other l s same]
  judge s q h := by
    have same := of_still (fun r => (r.lockout, r.disabled, r.state)) (fun _ => rfl) (judgeDeadHead_still s q p)
    simp only [Prod.mk.injEq] at same
    obtain ⟨lockout, disabled, state⟩ := same
    unfold Free
    rwa [lockout, disabled, state]
  tick s q x h := by
    by_cases same : p = q
    · subst same; simpa [Free] using h
    · simpa [same] using h
  raise _ _ := id

/-- A pump that turns, or is sent to stop. -/
def Spinning (r : PumpRecord) : Prop := r.state = .running ∨ r.state = .stopping

theorem treat_spinning (chosen : List Pump) (h : Spinning (s.pump p)) : Spinning ((treat chosen s p).pump p) := by
  rcases id h with runs | stops
  · unfold treat
    simp only [runs]
    split
    · exact h
    · split
      · rw [State.pump_setPump, if_pos rfl]
        exact .inl rfl
      · split
        · exact .inr (stopPump_state s p true)
        · rw [State.pump_setPump, if_pos rfl]
          exact .inl rfl
  · rwa [treat_held chosen s p (.inr (by simp [stops]))]

/-- An evaluation leaves a running pump or sends it to stop. -/
theorem spinning_settles (p : Pump) : Settles fun s t => Spinning (s.pump p) → Spinning (t.pump p) where
  refl _ := id
  trans h k := k ∘ h
  duty _ _ := id
  treat l s q h := by
    by_cases same : p = q
    · subst same; exact treat_spinning l h
    · rwa [treat_other l s same]
  judge s q h := by
    have same := of_still (·.state) (fun _ => rfl) (judgeDeadHead_still s q p)
    unfold Spinning
    rwa [same]
  tick s q x h := by
    by_cases same : p = q
    · subst same; simpa [Spinning] using h
    · simpa [same] using h
  raise _ _ := id

/-- A queue to which no RUN or REVERSE is added. -/
structure Runless (s t : State) : Prop where
  forward : t.lp.forward = s.lp.forward
  control : ∀ f ∈ t.lp.control, f ∈ s.lp.control ∨ ∀ drive, outIsRunFor drive f = false

theorem Runless.refl (s : State) : Runless s s := ⟨rfl, fun _ => .inl⟩

theorem Runless.trans {u : State} (h : Runless s t) (k : Runless t u) : Runless s u :=
  ⟨k.forward.trans h.forward, fun f member => (k.control f member).elim (h.control f) .inr⟩

theorem Runless.of_lp (h : t.lp = s.lp) : Runless s t := ⟨by rw [h], fun f member => .inl (h ▸ member)⟩

theorem buildCommand_runless (change : Bool) (held : actionHeld (s.pump p).state ≠ some .run) :
    Runless s (buildCommand s p change) := by
  unfold buildCommand
  have quiet : ∀ x, commandOf s p = some x → x.1 ≠ .run ∧ x.1 ≠ .reverse := by
    unfold commandOf heldCommand
    intro x
    simp only [held, false_and, if_false]
    cases h : actionHeld (s.pump p).state with
    | none => simp
    | some act =>
      have stops : act = .stop ∨ act = .float := by
        cases st : (s.pump p).state with
        | unavailable why => cases why <;> simp_all [actionHeld]
        | _ => simp_all [actionHeld]
      rcases stops with rfl | rfl <;> simp <;> rintro rfl <;> simp
  match command : commandOf s p with
  | none => exact .of_lp rfl
  | some (act, speed) =>
    obtain ⟨noRun, noReverse⟩ := quiet _ command
    by_cases room : s.lp.control.length < 8
    · obtain ⟨lp, es, placed, control, forward⟩ := offerCommand_of_room (p := p) (act := act) (speed := speed) (change := change) room
      rw [placed]
      refine ⟨forward, fun f member => ?_⟩
      have member : f ∈ lp.control := member
      rw [control, List.mem_append, List.mem_singleton] at member
      refine member.imp_right ?_
      rintro rfl drive
      simp [pumpCommand, outIsRunFor, noRun, noReverse]
    · rw [offerCommand_of_full room]
      exact .of_lp (by split <;> rfl)

theorem returnCharge_lp : (returnCharge s p).lp = s.lp := by rw [returnCharge_eq]; simp
theorem releaseCharge_lp : (releaseCharge s p).lp = s.lp := by rw [releaseCharge_eq]; simp

theorem stopPump_runless (send : Bool) : Runless s (stopPump s p send) := by
  unfold stopPump
  dsimp only
  split
  · refine .trans (t := _) (.of_lp ?_) (buildCommand_runless true ?_)
    · simp [enter, returnCharge_lp]
    · simp [State.pump, enter, inState, actionHeld]
  · exact .of_lp (by simp [enter, returnCharge_lp])

theorem runless_settles : Settles Runless where
  refl := .refl
  trans := .trans
  duty _ _ := .of_lp rfl
  treat l s p := by
    unfold treat
    dsimp only
    split
    · exact .refl s
    · split
      · split <;> exact .of_lp rfl
      · split <;> exact .of_lp rfl
      · split
        · exact .of_lp rfl
        · split
          · exact stopPump_runless true
          · exact .of_lp rfl
      · exact .refl s
  judge s p := by
    unfold judgeDeadHead
    split
    · split <;> exact .of_lp rfl
    · exact .refl s
  tick _ _ _ := .of_lp rfl
  raise _ _ := .of_lp rfl

theorem settle_forward (b a : State) : (settle b a).lp.forward = a.lp.forward := (runless_settles.settle b a).forward

/-! ## What DC does not own -/

theorem quiet_of_dc (h : dcMask t = dcMask s) (quiet : Quiet s) : Quiet t := by
  intro w
  have same : (t.ssu, t.wells) = (s.ssu, s.wells) := eq_of_mask dcMask (fun s => (s.ssu, s.wells)) (fun _ => rfl) h
  obtain ⟨ssu, wells⟩ := Prod.mk.inj same
  have found := quiet w
  unfold noEvaluation State.well at *
  rwa [ssu, wells]

theorem now_of_dc (h : dcMask t = dcMask s) : t.now = s.now := eq_of_mask dcMask State.now (fun _ => rfl) h
theorem setup_of_dc (h : dcMask t = dcMask s) : t.setup = s.setup := eq_of_mask dcMask State.setup (fun _ => rfl) h
theorem budget_of_dc (h : dcMask t = dcMask s) : t.budget = s.budget := eq_of_mask dcMask State.budget (fun _ => rfl) h

theorem settle_of_held (held : Held (a.pump p)) : bare ((settle b a).pump p) = bare (a.pump p) :=
  bare_of_still (settle_held b a p held)

/-- A pump that is free after a command is asked for at once or not. -/
theorem settle_of_free (free : Free (a.pump p)) : ((settle b a).pump p).state = .off ∨ ((settle b a).pump p).state = .startWait :=
  ((free_settles p).settle b a free).2.2

theorem settle_of_spinning (spins : Spinning (a.pump p)) : Spinning ((settle b a).pump p) := (spinning_settles p).settle b a spins

theorem whenDc_next {f : State → State} (live : s.live = true) : whenDc s f = .next (settle s (f s)) := whenLive_next live rfl

theorem whenDueDc_next {x : Option Ms} {f : State → State} (live : s.live = true) (now : due x s.now = true) :
    whenDueDc s x f = .next (settle s (f s)) := whenDue_next live now rfl

/-- What a pump sent to OFF is found in, by the flags that redirect it (R44) and by what an evaluation may do at once. -/
structure OffTo (r : PumpRecord) (quiet : Prop) (r' : PumpRecord) : Prop where
  locked : r.lockout = true → r'.state = .lockedOut ∧ r'.waitEnd = none
  disabled : r.lockout = false → r.disabled = true → r'.state = .unavailable .disabled ∧ r'.waitEnd = none
  free : r.lockout = false → r.disabled = false → r'.state = .off ∨ r'.state = .startWait
  quiet : r.lockout = false → r.disabled = false → quiet → r'.state = .off ∧ r'.waitEnd = none

/-- A pump sent to OFF, and what follows. -/
theorem offTo_settle (record : bare (a.pump p) = bare ((enterOff s p).pump p)) (same : dcMask a = dcMask s) :
    OffTo (s.pump p) (Quiet s) ((settle b a).pump p) := by
  have fields := of_bare (fun r => (r.state, r.waitEnd)) (fun _ => rfl) record
  rw [enterOff_pump] at fields
  refine ⟨fun locked => ?_, fun unlocked disabled => ?_, fun unlocked enabled => ?_, fun unlocked enabled quiet => ?_⟩
  · simp only [locked, if_true, Prod.mk.injEq] at fields
    have held : Held (a.pump p) := .inr (by rw [fields.1]; simp)
    have after := of_bare (fun r => (r.state, r.waitEnd)) (fun _ => rfl) (settle_of_held (b := b) held)
    exact Prod.mk.inj (after.trans (Prod.ext fields.1 fields.2))
  · simp only [unlocked, disabled, if_true, Bool.false_eq_true, if_false, Prod.mk.injEq] at fields
    have held : Held (a.pump p) := .inr (by rw [fields.1]; simp)
    have after := of_bare (fun r => (r.state, r.waitEnd)) (fun _ => rfl) (settle_of_held (b := b) held)
    exact Prod.mk.inj (after.trans (Prod.ext fields.1 fields.2))
  · refine settle_of_free ?_
    have flags := of_bare (fun r => (r.lockout, r.disabled)) (fun _ => rfl) record
    simp only [unlocked, enabled, Bool.false_eq_true, if_false, Prod.mk.injEq] at fields
    rw [enterOff_pump] at flags
    obtain ⟨lockout, disabled⟩ := Prod.mk.inj flags
    exact ⟨lockout.trans unlocked, disabled.trans enabled, .inl fields.1⟩
  · simp only [unlocked, enabled, Bool.false_eq_true, if_false, Prod.mk.injEq] at fields
    have after := of_still (fun r => (r.state, r.waitEnd)) (fun _ => rfl) ((settle_quiet b a (quiet_of_dc same quiet)).1 p)
    exact Prod.mk.inj (after.trans (Prod.ext fields.1 fields.2))

/-- A step that changes nothing of a pump that an evaluation, a judgement or a flow notice follows brings rotations at most. -/
theorem settle_pumps (same : ∀ q, trigger (b.pump q) = trigger (a.pump q) ∧ (b.pump q).applied = (a.pump q).applied
    ∧ countsRunning (b.pump q) = countsRunning (a.pump q)) : (settle b a).pumps = a.pumps := by
  have kept {α : Type} (f : State → α → State) (step : ∀ t x, t.pumps = a.pumps → (f t x).pumps = a.pumps) (xs : List α)
      (t : State) (h : t.pumps = a.pumps) : (State.each f xs t).pumps = a.pumps := by
    induction xs generalizing t with
    | nil => exact h
    | cons x xs ih => exact ih _ (step t x h)
  have found {t : State} (h : t.pumps = a.pumps) (q : Pump) : t.pump q = a.pump q := congrArg (·.get q) h
  unfold settle
  refine kept _ (fun t p h => ?_) _ _ (kept _ (fun t p h => ?_) _ _ (kept _ (fun t w h => ?_) _ _
    (kept _ (fun t w h => ?_) _ _ rfl)))
  · unfold noticeFlow
    rw [State.raiseIf_pumps]
    unfold runTick
    rw [if_pos (by rw [found h]; exact (same p).2.2)]
    exact h
  · unfold judgeChanged
    rw [if_pos (by rw [found h]; exact ⟨congrArg (·.1) (same p).1, (same p).2.1⟩)]
    exact h
  · rw [rotateIfDue_pumps]
    exact h
  · have none : wellChanged b t w = false := by simp [wellChanged, found h, same]
    unfold evaluateChanged
    rw [none]
    exact h

/-- What a step that changes no pump brings: rotations at most. -/
theorem settle_pumps_of_same (same : a.pumps = b.pumps) : (settle b a).pumps = b.pumps := by
  refine (settle_pumps fun q => ?_).trans same
  rw [show b.pump q = a.pump q from congrArg (·.get q) same.symm]
  exact ⟨rfl, rfl, rfl⟩

theorem settle_self_pumps (s : State) : (settle s s).pumps = s.pumps := settle_pumps_of_same rfl

end Records

end Sys2Proof.Machine
end


section
/-! PROOF. The manual commands that policing lets pass (R63 to R66, R96). -/

namespace Sys2Proof.Machine

section Manual

variable {s t u b : State} {p : Pump} {w : Well} {src : Addr} {claimed speed : Nat} {act : DriveAction} {seq : BitVec 6}

theorem FirstReason.eq_none {rows : List (RefusalReason × Prop)} {o : Option RefusalReason} (first : FirstReason rows o)
    (fails : ∀ row ∈ rows, ¬ row.2) : o = none := by
  induction first with
  | nil => rfl
  | applies h => exact absurd h (fails _ (.head _))
  | skips _ _ ih => exact ih fun row member => fails row (.tail _ member)

/-! ## What policing answers -/

theorem police_of_entry {e : SourceEntry} (entry : sourceEntry s src = some e) (manual : e.manualDrive = true)
    (level : ((max claimed e.ceiling : Nat) : Int) ≤ s.setup.manualLevel) : sourceRefusal s src claimed = none := by
  have fits : ¬ s.setup.manualLevel < (effective e claimed : Int) := Int.not_lt.mpr level
  simp only [sourceRefusal, entry, manual, if_true, if_neg fits]

theorem police_stop (source : sourceRefusal s src claimed = none) (stops : act = .stop ∨ act = .float) :
    police s p src claimed seq act speed = (settle s (passStop s p), true) := by
  unfold police
  rw [source]
  rcases stops with rfl | rfl <;> rfl

/-- The state in which DC starts or takes over a pump that is not refused: SB has made the charge of a pump that starts. -/
def chargedFor (s : State) (p : Pump) : State :=
  if startingOrRunning (s.pump p).state then s
  else { s with budget := { s.budget with
    pumps := s.budget.pumps.set p ⟨.start, startWeight s (.pump p), false⟩, queue := [] } }

theorem immediateCharge_chargedFor {charged : State} (idle : startingOrRunning (s.pump p).state = false)
    (h : immediateCharge s p = some charged) : charged = chargedFor s p := by
  unfold immediateCharge at h
  dsimp only at h
  split at h
  · cases h
    unfold chargedFor
    rw [if_neg (by simp [idle])]
    rfl
  · cases h

theorem police_run (run : act = .run ∨ act = .reverse) (away : (s.pump p).state ≠ .float)
    (unrefused : Unrefused s p src claimed act) :
    police s p src claimed seq act speed = (settle s (passRun (chargedFor s p) p src act speed), true) := by
  have reason : refusalReason s p src claimed act = none :=
    (refusalReason_firstReason s p src claimed act fun float => absurd float away).eq_none unrefused
  unfold refusalReason at reason
  obtain ⟨source, rest⟩ := Option.or_eq_none_iff.mp reason
  have drive : runRefusal s p = none ∧ budgetRefusal s p = none := by
    rcases run with rfl | rfl <;> exact Option.or_eq_none_iff.mp rest
  obtain ⟨free, budget⟩ := drive
  have passes : police s p src claimed seq act speed =
      if startingOrRunning (s.pump p).state then (settle s (passRun s p src act speed), true)
      else match immediateCharge s p with
        | some charged => (settle s (passRun charged p src act speed), true)
        | none => (refuse s p src seq act .budget, false) := by
    unfold police
    rw [source]
    rcases run with rfl | rfl <;> simp only [free] <;> rfl
  rw [passes]
  by_cases going : startingOrRunning (s.pump p).state = true
  · rw [if_pos going, chargedFor, if_pos going]
  · rw [if_neg going]
    have idle : startingOrRunning (s.pump p).state = false := by simpa using going
    cases charge : immediateCharge s p with
    | none => simp [budgetRefusal, idle, charge] at budget
    | some charged => rw [immediateCharge_chargedFor idle charge]

theorem police_float (run : act = .run ∨ act = .reverse) (source : sourceRefusal s src claimed = none)
    (float : (s.pump p).state = .float) :
    police s p src claimed seq act speed = (refuse s p src seq act .fallback, false) := by
  have held : runRefusal s p = some .fallback := by
    unfold runRefusal
    dsimp only
    rw [if_pos (by simp [float])]
  unfold police
  rw [source]
  rcases run with rfl | rfl <;> simp only [held]

/-- The arrival of a policed command that passes. -/
theorem exec_policed {f : RawFrame} (live : s.live = true) (check : goodCheck f = true) (usable : addressesUnusable f = false)
    (other : rawSource f ≠ s.lp.ownAddress) (away : rawDestination f ≠ s.lp.ownAddress) (single : rawDestination f ≠ 63)
    (kind : frameKind f.kind = .driveCmd) (pump : pumpAtDrive s (rawDestination f) = some p)
    (command : driveCommandOf f.payload = some (act, speed))
    (passes : police (noteGood s) p (rawSource f) (rawAuthority f) (rawSequence f) act speed = (t, true)) :
    exec (.frameArrival f) s = .next (joinForward t f) := by
  have pump : pumpAtDrive (noteGood s) (rawDestination f) = some p := pump
  rw [exec_frameArrival live, arriveFrame_eq_disposeFrame check usable,
    disposeFrame_passed (s := noteGood s) other away single]
  simp only [passFrame, kind, pump, policeFrame, command, passes, if_true]

/-! ## A RUN or REVERSE that passes (R65) -/

/-- Withdrawals in START_WAIT leave every other pump. -/
theorem each_withdrawExcess_still {list : List Pump} (idle : (s.pump p).state ≠ .startWait) :
    (State.each (withdrawExcess w) list s).pump p = s.pump p := by
  induction list generalizing s with
  | nil => rfl
  | cons x xs ih =>
    have step : (withdrawExcess w s x).pump p = s.pump p := by
      unfold withdrawExcess
      split
      · next given =>
        by_cases same : p = x
        · exact absurd (same ▸ given.1) idle
        · exact enterOff_other (s := withdraw s x) same
      · rfl
    have later := ih (s := withdrawExcess w s x) (by rwa [step])
    exact later.trans step

theorem each_withdrawExcess_lp (list : List Pump) (s : State) : (State.each (withdrawExcess w) list s).lp = s.lp := by
  induction list generalizing s with
  | nil => rfl
  | cons x xs ih =>
    refine (ih (withdrawExcess w s x)).trans ?_
    unfold withdrawExcess
    split <;> rfl

theorem evaluateWithin_runless (s : State) (w : Well) : Runless s (evaluateWithin s w) :=
  (runless_settles.evaluateLive s w).trans (.of_lp (each_withdrawExcess_lp _ _))

theorem evaluateWithin_still (held : Held (s.pump p)) (idle : (s.pump p).state ≠ .startWait) :
    still ((evaluateWithin s w).pump p) = still (s.pump p) := by
  have same := (held_settles p).evaluateLive s w held
  have idle : ((evaluateLive s w).pump p).state ≠ .startWait := by
    rw [of_still (·.state) (fun _ => rfl) same]
    exact idle
  exact (congrArg still (each_withdrawExcess_still (w := w) idle)).trans same

/-- The record a manual RUN or REVERSE leaves. -/
def manualRecord (s : State) (p : Pump) (src : Addr) (act : DriveAction) (v : Nat) : PumpRecord :=
  let r := s.pump p
  let r := if startingOrRunning r.state then { r with stopDeferred := false }
    else { inState s r .starting with
      charge := .start
      history := appendStart r.history s.now
      startAt := some (s.now + (s.setup.startConfirm.get p).toNat * 1000) }
  { r with
    owner := .manual, manualSource := some src, manual := some (act, v)
    applied := if s.setup.isVariable p then v else r.applied }

/-- What a manual RUN or REVERSE and all that follows it leave. -/
theorem passRun_settled : still ((settle b (passRun s p src act speed)).pump p)
      = still (manualRecord s p src act (max 30 (min 100 speed)))
    ∧ (settle b (passRun s p src act speed)).lp.forward = s.lp.forward
    ∧ (settle b (passRun s p src act speed)).budget = s.budget := by
  obtain ⟨recorded, record, lp, budget, passed⟩ : ∃ r : State, r.pump p = manualRecord s p src act (max 30 (min 100 speed))
      ∧ r.lp = s.lp ∧ r.budget = s.budget ∧ passRun s p src act speed = match r.wellOf p with
        | some w => evaluateWithin r w
        | none => r := by
    refine ⟨recordManual (if startingOrRunning (s.pump p).state then s.setPump p { s.pump p with stopDeferred := false }
      else startManual s p) p src act speed, ?_, ?_, ?_, ?_⟩
    · unfold recordManual manualRecord
      simp only [State.pump_setPump, if_true]
      split
      · rw [State.pump_setPump, if_pos rfl]
        rfl
      · unfold startManual
        simp only [State.pump_setPump, if_true, enter_pump]
        rfl
    · split <;> rfl
    · split <;> rfl
    · unfold passRun
      split <;> rfl
  rw [passed]
  have manual : (recorded.pump p).owner = .manual := by rw [record]; rfl
  have state : startingOrRunning (recorded.pump p).state = true := by
    rw [record]
    show startingOrRunning (if startingOrRunning (s.pump p).state then _ else _ : PumpRecord).state = true
    split
    · next going => exact going
    · rfl
  have held : Held (recorded.pump p) := .inl (by rw [manual]; simp)
  have idle : (recorded.pump p).state ≠ .startWait := by
    intro waits
    rw [waits] at state
    cases state
  split
  · next w _ =>
    have same := evaluateWithin_still (w := w) held idle
    refine ⟨(settle_held _ _ p (Held.of_still same held)).trans (same.trans (congrArg still record)), ?_, ?_⟩
    · rw [settle_forward, (evaluateWithin_runless recorded w).forward, lp]
    · rw [budget_of_dc (settle_dc _ _), budget_of_dc (evaluateWithin_dc recorded w), budget]
  · refine ⟨(settle_held _ _ p held).trans (congrArg still record), ?_, ?_⟩
    · rw [settle_forward, lp]
    · rw [budget_of_dc (settle_dc _ _), budget]

theorem joinForward_pumps (s : State) (f : RawFrame) : (joinForward s f).pumps = s.pumps := by rw [joinForward_frame]

theorem joinForward_pump (s : State) (f : RawFrame) : (joinForward s f).pump p = s.pump p := by
  unfold State.pump
  rw [joinForward_pumps]

/-! ## A STOP or FLOAT that passes (R66) -/

theorem passStop_runless : Runless s (passStop s p) := by
  unfold passStop
  split
  · exact stopPump_runless false
  · exact stopPump_runless false
  · exact .of_lp rfl
  · exact .refl s

theorem passStop_going (going : (s.pump p).state = .starting ∨ (s.pump p).state = .running) :
    passStop s p = stopPump s p false := by
  unfold passStop
  rcases going with h | h <;> rw [h]

theorem passStop_waiting (waits : (s.pump p).state = .startWait) : passStop s p = enterOff (withdraw s p) p := by
  unfold passStop
  rw [waits]

theorem passStop_other (still : (s.pump p).state ≠ .starting) (calm : (s.pump p).state ≠ .running)
    (asks : (s.pump p).state ≠ .startWait) : passStop s p = s := by
  unfold passStop
  split
  · next h => exact absurd h still
  · next h => exact absurd h calm
  · next h => exact absurd h asks
  · rfl

/-- Settles O16. -/
theorem manualCommandsPass : Obligations.ManualCommandsPass := by
  intro f p act speed v e s live check usable other away single kind pump command entry manual level clamped
  have source : sourceRefusal (noteGood s) (rawSource f) (rawAuthority f) = none :=
    police_of_entry (s := noteGood s) entry manual level
  have passes {t : State} := exec_policed (t := t) live check usable other away single kind pump command
  refine ⟨fun run away unrefused => ?run, fun stops => ?stop, fun run float => ?float⟩
  case run =>
    let charged := chargedFor (noteGood s) p
    obtain ⟨record, forward, budget⟩ := passRun_settled (b := noteGood s) (s := charged) (p := p) (src := rawSource f)
      (speed := speed) (act := act)
    have policed := police_run (s := noteGood s) (speed := speed) (seq := rawSequence f) run away unrefused
    refine ⟨_, passes policed, ?_⟩
    generalize settle (noteGood s) (passRun charged p (rawSource f) act speed) = t at record forward budget ⊢
    have same : manualRecord charged p (rawSource f) act v = manualRecord s p (rawSource f) act v := by
      simp only [charged, chargedFor]
      split <;> rfl
    rw [← clamped, same] at record
    rw [joinForward_frame]
    have owner : (t.pump p).owner = .manual ∧ (t.pump p).manualSource = some (rawSource f) ∧ (t.pump p).manual = some (act, v) := by
      have fields := of_still (fun r => (r.owner, r.manualSource, r.manual)) (fun _ => rfl) record
      simpa [manualRecord] using fields
    have joins : charged.lp.forward = s.lp.forward := by
      simp only [charged, chargedFor]
      split <;> rfl
    rw [joins] at forward
    have applied := of_still (·.applied) (fun _ => rfl) record
    refine ⟨by simp only [forward], owner.1, owner.2.1, owner.2.2, applied.trans ?_, ?_⟩
    · unfold manualRecord
      dsimp only
      split
      · rfl
      · split <;> rfl
    · split
      · next going =>
        have going : startingOrRunning (s.pump p).state = true := by simpa [startingOrRunning] using going
        have stands : charged = noteGood s := if_pos going
        have fields := of_still (fun r => (r.state, r.charge, r.stopDeferred, r.history, r.startAt)) (fun _ => rfl) record
        simp only [manualRecord, going, if_true, Prod.mk.injEq] at fields
        obtain ⟨state, charge, deferred, history, start⟩ := fields
        exact ⟨state, charge, deferred, history, start, budget.trans ((congrArg State.budget stands :))⟩
      · next idle =>
        have idle : ¬ startingOrRunning (s.pump p).state = true := by simpa [startingOrRunning] using idle
        have fields := of_still (fun r => (r.state, r.charge, r.waitEnd, r.stopAt, r.startAt, r.history)) (fun _ => rfl) record
        simp only [manualRecord, idle, Prod.mk.injEq] at fields
        obtain ⟨state, charge, wait, stop, start, history⟩ := fields
        exact ⟨state, charge, wait, stop, start, history, budget.trans ((congrArg State.budget (if_neg idle) :))⟩
  case stop =>
    have grown := settle_grows (noteGood s) (passStop (noteGood s) p)
    have forward : (settle (noteGood s) (passStop (noteGood s) p)).lp.forward = s.lp.forward :=
      (settle_forward _ _).trans (passStop_runless (s := noteGood s)).forward
    refine ⟨_, passes (police_stop source stops), ?_⟩
    have kept {e : Instr} (raised : e ∈ (passStop (noteGood s) p).raised) :
        e ∈ (joinForward (settle (noteGood s) (passStop (noteGood s) p)) f).raised :=
      joinForward_raised _ (grown.mem_raised raised)
    refine ⟨by rw [joinForward_frame]; simp only [forward], fun going => ?_, fun waits => ?_, fun calm still asks => ?_⟩
    · have stopped : passStop (noteGood s) p = stopPump (noteGood s) p false := passStop_going (s := noteGood s) going
      rw [stopped] at kept ⊢
      simp only [joinForward_pump]
      have held : Held ((stopPump (noteGood s) p false).pump p) := .inr (by rw [stopPump_state]; simp)
      have record : still ((settle (noteGood s) (stopPump (noteGood s) p false)).pump p) = still ((stopPump (noteGood s) p false).pump p) := settle_held _ _ p held
      have fields := of_bare (fun r => (r.state, r.owner, r.stopAt, r.attempts, r.charge)) (fun _ => rfl)
        ((bare_of_still record).trans (stopPump_bare false))
      simp only [Prod.mk.injEq] at fields
      obtain ⟨state, owner, deadline, attempts, charge⟩ := fields
      have count := (of_still (·.count) (fun _ => rfl) record).trans (stopPump_count (s := noteGood s))
      refine ⟨state, owner, deadline, attempts, count, fun start => ⟨charge.trans ?_, kept (stopPump_returns (s := noteGood s) start)⟩,
        fun runs => ⟨charge.trans ?_, kept (stopPump_notices (s := noteGood s) (.inl runs))⟩⟩
      · show returned (s.pump p).charge = _
        rw [start]
        rfl
      · show returned (s.pump p).charge = _
        rw [runs]
        rfl
    · have off := passStop_waiting (s := noteGood s) waits
      rw [off] at kept ⊢
      simp only [joinForward_pump]
      have raised : .requestWithdrawal (.pump p) ∈ (enterOff (withdraw (noteGood s) p) p).raised :=
        List.mem_append_right _ (.head _)
      have off := offTo_settle (b := noteGood s) (a := enterOff (withdraw (noteGood s) p) p) (s := withdraw (noteGood s) p)
        (p := p) rfl (enterOff_dc _ _)
      exact ⟨kept raised, fun locked => (off.locked locked).1, fun unlocked disabled => (off.disabled unlocked disabled).1,
        off.free, fun unlocked enabled quiet => (off.quiet unlocked enabled quiet).1⟩
    · rw [joinForward_pumps, passStop_other (s := noteGood s) calm still asks]
      exact settle_self_pumps _
  case float =>
    have held : policeFrame (noteGood s) p f =
        (refuse (noteGood s) p (rawSource f) (rawSequence f) act .fallback, false) := by
      simpa [policeFrame, command] using police_float (s := noteGood s) (speed := speed) (seq := rawSequence f) run source float
    have arrived : arriveFrame s f = refuse (noteGood s) p (rawSource f) (rawSequence f) act .fallback := by
      rw [arriveFrame_eq_disposeFrame check usable,
        disposeFrame_of_held (s := noteGood s) other single kind pump (by rw [held]), held]
    refine ⟨_, exec_frameArrival live, ?_⟩
    rw [arrived]
    refine ⟨?_, ?_, ?_, manual_mem_refuse_raised .., ?_⟩ <;> (rw [refuse_frame]; rfl)

end Manual

end Sys2Proof.Machine
end


section
/-! PROOF. Failed attempts, the end of waits, and the commands of a pump that are repeated. -/

namespace Sys2Proof.Machine

section Attempts

variable {R : State → State → Prop} {s t u a b : State} {p q : Pump} {w : Well}

/-- What a relation needs to hold between the state before and after all that follows a change. -/
structure Following (R : State → State → Prop) : Prop where
  refl : ∀ s, R s s
  trans : ∀ {s t u}, R s t → R t u → R s u
  once : ∀ s w d, R s (evaluateOnce s w d)
  rotates : ∀ s w, R s (rotateIfDue s w)
  judge : ∀ s p, R s (judgeDeadHead s p)
  tick : ∀ s p x, R s (s.setPump p { s.pump p with runTickAt := x })
  raise : ∀ s e, R s (s.raise e)

namespace Following

theorem each (h : Following R) {α : Type} (f : State → α → State) (hf : ∀ s x, R s (f s x)) (xs : List α) (s : State) :
    R s (State.each f xs s) := by
  induction xs generalizing s with
  | nil => exact h.refl s
  | cons x xs ih => exact h.trans (hf s x) (ih (f s x))

theorem evaluateFuel (h : Following R) (n : Nat) (s : State) (w : Well) (d : WellDelivery) : R s (evaluateFuel n s w d) := by
  induction n generalizing s with
  | zero => exact h.refl s
  | succ n ih =>
    unfold Machine.evaluateFuel
    dsimp only
    split
    · exact h.trans (h.trans (h.once s w d) (h.rotates _ w)) (ih _)
    · exact h.trans (h.once s w d) (h.rotates _ w)

theorem evaluate (h : Following R) (s : State) (w : Well) (d : WellDelivery) : R s (evaluate s w d) :=
  h.trans (h.rotates s w) (h.evaluateFuel 8 _ w d)

theorem evaluateLive (h : Following R) (s : State) (w : Well) : R s (evaluateLive s w) := h.evaluate s w _

theorem noticeFlow (h : Following R) (b s : State) (p : Pump) : R s (noticeFlow b s p) := by
  have tick : R s (runTick b s p) := by
    unfold Machine.runTick
    split
    · exact h.refl s
    · exact h.tick s p _
  unfold Machine.noticeFlow State.raiseIf
  dsimp only
  split
  · exact h.trans tick (h.raise _ _)
  · exact tick

theorem judgeChanged (h : Following R) (b s : State) (p : Pump) : R s (judgeChanged b s p) := by
  unfold Machine.judgeChanged
  split
  · exact h.refl s
  · exact h.judge s p

theorem evaluateChanged (h : Following R) (b s : State) (w : Well) : R s (evaluateChanged b s w) := by
  unfold Machine.evaluateChanged
  split
  · exact h.evaluateLive s w
  · exact h.refl s

theorem settle (h : Following R) (b a : State) : R a (settle b a) :=
  h.trans (h.trans (h.trans (h.each _ (h.evaluateChanged b) _ _) (h.each _ h.rotates _ _)) (h.each _ (h.judgeChanged b) _ _))
    (h.each _ (h.noticeFlow b) _ _)

end Following

/-- The state in which an evaluation has set the demands of a well. -/
def demanded (s : State) (w : Well) (n demand : Nat) (due : Bool) : State := { s with duty := { s.duty with
  levelDemand := s.duty.levelDemand.set w n
  demand := s.duty.demand.set w demand
  rotationDue := s.duty.rotationDue.set w due } }

/-- An evaluation makes none, or sets the demands and then treats the pumps of the well by what it selects. -/
theorem evaluateOnce_cases (s : State) (w : Well) (d : WellDelivery) : evaluateOnce s w d = s
    ∨ ∃ n demand due, evaluateOnce s w d = select (demanded s w n demand due) w demand := by
  unfold evaluateOnce
  split
  · exact .inl rfl
  · split
    · exact .inr ⟨_, _, _, rfl⟩
    · exact .inl rfl

@[simp] theorem pump_raise (s : State) (e : Instr) (p : Pump) : (s.raise e).pump p = s.pump p := rfl
@[simp] theorem pump_submit (s : State) (x : RecordBody) (p : Pump) : (s.submit x).pump p = s.pump p := rfl
@[simp] theorem pump_raiseAll (s : State) (es : List Instr) (p : Pump) : (s.raiseAll es).pump p = s.pump p := rfl
@[simp] theorem pump_raiseIf (s : State) (c : Bool) (e : Instr) (p : Pump) : (s.raiseIf c e).pump p = s.pump p := by
  unfold State.raiseIf
  split <;> rfl

/-! ## The backoff generator (R74) -/

theorem offerCommand_duty (command : Option (DriveAction × Nat)) (change : Bool) :
    (offerCommand s p command change).duty = s.duty := by
  match command with
  | none => rfl
  | some (act, speed) =>
    by_cases room : s.lp.control.length < 8
    · obtain ⟨lp, es, placed, -, -⟩ := offerCommand_of_room (p := p) (act := act) (speed := speed) (change := change) room
      rw [placed]
      rfl
    · rw [offerCommand_of_full room]
      split <;> rfl

theorem buildCommand_duty (change : Bool) : (buildCommand s p change).duty = s.duty := offerCommand_duty _ _

theorem stopPump_duty (send : Bool) : (stopPump s p send).duty = s.duty := by
  unfold stopPump
  dsimp only
  split
  · rw [buildCommand_duty]
    simp [enter, returnCharge_eq]
  · simp [enter, returnCharge_eq]

theorem treat_duty (chosen : List Pump) : (treat chosen s p).duty = s.duty := by
  unfold treat
  dsimp only
  split
  · rfl
  · split
    · split <;> rfl
    · split <;> rfl
    · split
      · rfl
      · split
        · exact stopPump_duty true
        · rfl
    · rfl

theorem judgeDeadHead_duty : (judgeDeadHead s p).duty = s.duty := by
  unfold judgeDeadHead
  split
  · split <;> rfl
  · rfl

theorem rotateIfDue_backoff : (rotateIfDue s w).duty.backoff = s.duty.backoff := by
  unfold rotateIfDue
  split <;> rfl

theorem each_treat_duty (chosen list : List Pump) : (State.each (treat chosen) list s).duty = s.duty := by
  induction list generalizing s with
  | nil => rfl
  | cons x xs ih => exact ih.trans (treat_duty chosen)

theorem backoff_following : Following fun s t => t.duty.backoff = s.duty.backoff where
  refl _ := rfl
  trans h k := k.trans h
  once s w d := by
    rcases evaluateOnce_cases s w d with same | ⟨n, demand, due, evaluated⟩
    · rw [same]
    · rw [evaluated]
      exact (congrArg Duty.backoff (each_treat_duty (s := demanded s w n demand due) (selected (demanded s w n demand due) w demand)
        _)).trans rfl
  rotates _ _ := rotateIfDue_backoff
  judge _ _ := by rw [judgeDeadHead_duty]
  tick _ _ _ := rfl
  raise _ _ := rfl

/-! ## A failed attempt (R73 to R76, R78) -/

/-- What a report of the drive leaves in a record (R59). -/
def reported (r : PumpRecord) : DriveStatus × Option DriveReport × Option Ms := (r.drive, r.lastReport, r.statusAt)

/-- What an attempt that has failed leaves before its STOP is offered. -/
structure Attempted (s t : State) (p : Pump) : Prop where
  lp : t.lp = s.lp
  mask : dcMask t = dcMask s
  raised : s.raised <+: t.raised
  count : (t.pump p).count = (s.pump p).count
  stops : actionHeld (t.pump p).state = some .stop
  held : Held (t.pump p)
  owner : (t.pump p).owner = .auto ∧ (t.pump p).startAt = none ∧ (t.pump p).runStart = none
  charge : (t.pump p).charge = (s.pump p).charge
  lastTrip : (t.pump p).lastTrip = (s.pump p).lastTrip
  report : reported (t.pump p) = reported (s.pump p)

/-- BACKOFF with the wait drawn. -/
def BacksOff (s t : State) (p : Pump) (attempts : Nat) : Prop :=
  (t.pump p).state = .backoff ∧ t.duty.backoff = backoffStep s.duty.backoff
    ∧ (t.pump p).waitEnd = some (s.now + backoffWait s.setup p attempts (backoffStep s.duty.backoff).toNat)

theorem enterBackoff_attempted (s : State) (p : Pump) : Attempted s (enterBackoff s p) p
    ∧ BacksOff s (enterBackoff s p) p (s.pump p).attempts ∧ ((enterBackoff s p).pump p).attempts = (s.pump p).attempts := by
  have record : (enterBackoff s p).pump p = { inState (drawBackoff s) (s.pump p) .backoff with
      waitEnd := some (s.now + backoffWait s.setup p (s.pump p).attempts (backoffStep s.duty.backoff).toNat) } := by
    unfold enterBackoff
    rw [State.pump_setPump, if_pos rfl, enter_pump]
    rfl
  refine ⟨⟨rfl, rfl, List.prefix_refl _, ?_, ?_, ?_, ⟨?_, ?_, ?_⟩, ?_, ?_, ?_⟩, ⟨?_, rfl, ?_⟩, ?_⟩ <;> rw [record]
  all_goals first | rfl | exact .inr (by simp)

theorem lockOut_pump : (lockOut s p).pump p = { inState s (s.pump p) .lockedOut with lockout := true } := by
  unfold lockOut
  rw [pump_submit, State.pump_setPump, if_pos rfl, enter_pump]

theorem lockOut_raised : (lockOut s p).raised = s.raised ++ [.recordSubmission (.pumpLockout p (s.pump p).lastTrip)] := by
  unfold lockOut
  simp only [State.submit_raised, State.pump_setPump, if_true, enter_pump]
  rfl

theorem lockOut_attempted (s : State) (p : Pump) : Attempted s (lockOut s p) p ∧ ((lockOut s p).pump p).state = .lockedOut
    ∧ ((lockOut s p).pump p).lockout = true ∧ ((lockOut s p).pump p).attempts = (s.pump p).attempts
    ∧ .recordSubmission (.pumpLockout p (s.pump p).lastTrip) ∈ (lockOut s p).raised := by
  refine ⟨⟨rfl, rfl, ?_, ?_, ?_, ?_, ⟨?_, ?_, ?_⟩, ?_, ?_, ?_⟩, ?_, ?_, ?_, ?mem⟩
  case mem => rw [lockOut_raised]; simp
  · rw [lockOut_raised]; exact List.prefix_append _ _
  all_goals rw [lockOut_pump]
  all_goals first | rfl | exact .inr (by simp)

/-- What the policy at the attempt limit does (R76). -/
structure Exhausted (s t : State) (p : Pump) : Prop extends Attempted s t p where
  lockout : s.setup.policy.get p = .name .lockout → (t.pump p).state = .lockedOut ∧ (t.pump p).lockout = true
    ∧ (t.pump p).attempts = (s.pump p).attempts ∧ .recordSubmission (.pumpLockout p (s.pump p).lastTrip) ∈ t.raised
  skip : s.setup.policy.get p = .name .skip → (t.pump p).state = .unavailable .skipped
    ∧ (t.pump p).attempts = (s.pump p).attempts
    ∧ (t.pump p).waitEnd = some (s.now + (s.setup.skipTime.get p).toNat * 60000)
    ∧ .recordSubmission (.pumpFault p (s.pump p).attempts (s.pump p).lastTrip) ∈ t.raised
  persist : s.setup.policy.get p = .name .persist → BacksOff s t p (s.pump p).attempts ∧ (t.pump p).attempts = 0
    ∧ .recordSubmission (.pumpFault p (s.pump p).attempts (s.pump p).lastTrip) ∈ t.raised

theorem Attempted.after_submit {x : RecordBody} (h : Attempted (s.submit x) t p) : Attempted s t p :=
  { h with
    raised := .trans (List.prefix_append _ _) h.raised
    lp := h.lp, mask := h.mask, count := h.count, charge := h.charge, lastTrip := h.lastTrip, report := h.report }

theorem Attempted.cleared (h : Attempted s t p) : Attempted s (t.setPump p { t.pump p with attempts := 0 }) p := by
  obtain ⟨lp, mask, raised, count, stops, held, ⟨owner, start, run⟩, charge, trip, report⟩ := h
  refine ⟨lp, mask, raised, ?_, ?_, ?_, ⟨?_, ?_, ?_⟩, ?_, ?_, ?_⟩ <;> rw [State.pump_setPump, if_pos rfl] <;> assumption

theorem exhaust_exhausted (s : State) (p : Pump) : Exhausted s (exhaust s p) p := by
  unfold exhaust
  dsimp only
  split
  · next policy =>
    generalize same : (State.submit _ (.pumpFault p _ _)) = t
    have record : t.pump p = { inState s (s.pump p) (.unavailable .skipped) with
        waitEnd := some (s.now + (s.setup.skipTime.get p).toNat * 60000) } := by
      rw [← same, pump_submit, State.pump_setPump, if_pos rfl, enter_pump]
      rfl
    have submitted : t.raised = s.raised ++ [.recordSubmission (.pumpFault p (s.pump p).attempts (s.pump p).lastTrip)] := by
      rw [← same]
      rfl
    have attempted : Attempted s t p := by
      refine ⟨?_, ?_, ?_, ?_, ?_, ?_, ⟨?_, ?_, ?_⟩, ?_, ?_, ?_⟩
      · rw [← same]; rfl
      · rw [← same]; rfl
      · rw [submitted]; exact List.prefix_append _ _
      all_goals rw [record]
      all_goals first | rfl | exact .inr (by simp)
    refine ⟨attempted, fun other => ?_, fun _ => ⟨?_, ?_, ?_, ?_⟩, fun other => ?_⟩
    · rw [policy] at other; cases other
    · rw [record]; rfl
    · rw [record]; rfl
    · rw [record]
    · rw [submitted]; simp
    · rw [policy] at other; cases other
  · next policy =>
    let told := s.submit (.pumpFault p (s.pump p).attempts (s.pump p).lastTrip)
    obtain ⟨attempted, ⟨state, backoff, wait⟩, -⟩ := enterBackoff_attempted told p
    have submitted := attempted.raised.subset (List.mem_append_right _ (.head _))
    refine ⟨attempted.after_submit.cleared, fun other => ?_, fun other => ?_, fun _ => ⟨⟨?_, backoff, ?_⟩, ?_, submitted⟩⟩
    · rw [policy] at other; cases other
    · rw [policy] at other; cases other
    all_goals rw [State.pump_setPump, if_pos rfl]
    · exact state
    · exact wait
  · next skips persists =>
    obtain ⟨attempted, state, locked, attempts, submitted⟩ := lockOut_attempted s p
    exact ⟨attempted, fun _ => ⟨state, locked, attempts, submitted⟩, fun policy => absurd policy skips,
      fun policy => absurd policy persists⟩

/-- What a failed attempt does, below the attempt limit and at it. -/
theorem afterAttempt_attempted (s : State) (p : Pump) : Attempted s (afterAttempt s p) p
    ∧ ((s.pump p).attempts < (s.setup.attemptLimit.get p).toNat →
        BacksOff s (afterAttempt s p) p (s.pump p).attempts ∧ ((afterAttempt s p).pump p).attempts = (s.pump p).attempts)
    ∧ ((s.setup.attemptLimit.get p).toNat ≤ (s.pump p).attempts → Exhausted s (afterAttempt s p) p) := by
  unfold afterAttempt
  split
  · next limit =>
    have exhausted := exhaust_exhausted s p
    exact ⟨exhausted.toAttempted, fun below => absurd limit (Nat.not_le.mpr below), fun _ => exhausted⟩
  · next below =>
    obtain ⟨attempted, backs, attempts⟩ := enterBackoff_attempted s p
    exact ⟨attempted, fun _ => ⟨backs, attempts⟩, fun limit => absurd limit below⟩

/-- A failed attempt, its STOP, and what follows. -/
theorem attemptFailed_settle {cause : TripCause} {n : Nat} (mask : dcMask u = dcMask s) (lp : u.lp = s.lp)
    (backoff : u.duty.backoff = s.duty.backoff) (count : (u.pump p).count = (s.pump p).count)
    (attempts : (u.pump p).attempts = n) (trip : (u.pump p).lastTrip = cause) :
    AttemptFailed s (settle b (buildCommand (afterAttempt u p) p true)) p n cause := by
  subst attempts trip
  obtain ⟨attempted, below, limit⟩ := afterAttempt_attempted u p
  generalize afterAttempt u p = a at *
  have held : Held ((buildCommand a p true).pump p) := attempted.held.of_bare (buildCommand_bare true)
  have record : bare ((settle b (buildCommand a p true)).pump p) = bare (a.pump p) :=
    (settle_of_held held).trans (buildCommand_bare true)
  have grown := (buildCommand_grows a p true).trans (settle_grows b _)
  have drawn : (settle b (buildCommand a p true)).duty.backoff = a.duty.backoff := by
    rw [backoff_following.settle b _, buildCommand_duty]
  have setup := setup_of_dc mask
  have now := now_of_dc mask
  have fields := of_bare (fun r => (r.owner, r.startAt, r.runStart, r.state, r.attempts, r.waitEnd, r.lockout)) (fun _ => rfl) record
  simp only [Prod.mk.injEq] at fields
  obtain ⟨owner, start, run, state, attempts, wait, lockout⟩ := fields
  obtain ⟨auto, noStart, noRun⟩ := attempted.owner
  have backs {k : Nat} (h : BacksOff u a p k) : ((settle b (buildCommand a p true)).pump p).state = .backoff
      ∧ (settle b (buildCommand a p true)).duty.backoff = backoffStep s.duty.backoff
      ∧ ((settle b (buildCommand a p true)).pump p).waitEnd
          = some (s.now + backoffWait s.setup p k (backoffStep s.duty.backoff).toNat) := by
    obtain ⟨st, g, x⟩ := h
    rw [backoff] at g x
    rw [now, setup] at x
    exact ⟨state.trans st, drawn.trans g, wait.trans x⟩
  refine ⟨fun room => ?_, owner.trans auto, start.trans noStart, run.trans noRun, fun low => ?_, fun high => ⟨fun policy => ?_,
    fun policy => ?_, fun policy => ?_⟩⟩
  · have offered := mem_buildCommand_stop (change := true) attempted.stops (by rw [attempted.lp, lp]; exact room)
    have frame : pumpCommand a p .stop 100
        = ⟨driveOf s p, s.lp.ownAddress, s.lp.ownSequence, .driveCmd .stop 100 (s.pump p).count⟩ := by
      unfold pumpCommand driveOf
      rw [attempted.lp, attempted.count, lp, count, setup_of_dc attempted.mask, setup]
    rw [← frame]
    exact (settle_grows b _).mem_control offered
  · rw [← setup] at low
    obtain ⟨back, same⟩ := below low
    obtain ⟨st, g, x⟩ := backs back
    exact ⟨st, attempts.trans same, g, x⟩
  all_goals
    rw [← setup] at high policy
    have exhausted := limit high
  · obtain ⟨st, locked, same, submitted⟩ := exhausted.lockout policy
    exact ⟨state.trans st, lockout.trans locked, attempts.trans same, grown.mem_raised submitted⟩
  · obtain ⟨st, same, x, submitted⟩ := exhausted.skip policy
    rw [now, setup] at x
    exact ⟨state.trans st, attempts.trans same, wait.trans x, grown.mem_raised submitted⟩
  · obtain ⟨back, same, submitted⟩ := exhausted.persist policy
    obtain ⟨st, g, x⟩ := backs back
    exact ⟨st, attempts.trans same, g, x, grown.mem_raised submitted⟩

/-- A failed attempt keeps the charge and the events that are on their way. -/
theorem failed_keeps (s : State) (p : Pump) : reported ((settle b (buildCommand (afterAttempt s p) p true)).pump p) = reported (s.pump p)
    ∧ ((settle b (buildCommand (afterAttempt s p) p true)).pump p).charge = (s.pump p).charge
    ∧ ((settle b (buildCommand (afterAttempt s p) p true)).pump p).lastTrip = (s.pump p).lastTrip
    ∧ ∀ e ∈ s.raised, e ∈ (settle b (buildCommand (afterAttempt s p) p true)).raised := by
  obtain ⟨attempted, -, -⟩ := afterAttempt_attempted s p
  generalize afterAttempt s p = a at *
  have held : Held ((buildCommand a p true).pump p) := attempted.held.of_bare (buildCommand_bare true)
  have record : bare ((settle b (buildCommand a p true)).pump p) = bare (a.pump p) :=
    (settle_of_held held).trans (buildCommand_bare true)
  obtain ⟨charge, trip⟩ := Prod.mk.inj (of_bare (fun r => (r.charge, r.lastTrip)) (fun _ => rfl) record)
  exact ⟨(of_bare reported (fun _ => rfl) record).trans attempted.report, charge.trans attempted.charge, trip.trans attempted.lastTrip, fun e member =>
    ((buildCommand_grows a p true).trans (settle_grows b _)).mem_raised (attempted.raised.subset member)⟩

/-- The state in which a start has failed, its charge returned and its attempt counted (R73). -/
def startFailed (s : State) (p : Pump) : State :=
  let s := returnCharge s p
  s.setPump p { s.pump p with attempts := satInc 15 (s.pump p).attempts }

theorem failStart_eq (s : State) (p : Pump) : failStart s p = buildCommand (afterAttempt (startFailed s p) p) p true := rfl

theorem startFailed_pump (s : State) (p : Pump) : (startFailed s p).pump p = { s.pump p with
    charge := returned (s.pump p).charge, attempts := satInc 15 (s.pump p).attempts } := by
  unfold startFailed
  simp only [State.pump_setPump, if_true, returnCharge_pump]
  rfl

theorem startFailed_raised (held : (s.pump p).charge = .start) : .grantReturn (.pump p) ∈ (startFailed s p).raised := by
  unfold startFailed
  rw [returnCharge_eq, raiseIf_of (by rw [held]; rfl)]
  exact List.mem_append_right _ (.head _)

/-- A start fails, and what follows (R73). -/
theorem failStart_settle {cause : TripCause} (trip : (s.pump p).lastTrip = cause) :
    AttemptFailed s (settle b (failStart s p)) p (satInc 15 (s.pump p).attempts) cause
    ∧ ((s.pump p).charge = .start → ((settle b (failStart s p)).pump p).charge = .none
        ∧ .grantReturn (.pump p) ∈ (settle b (failStart s p)).raised) := by
  rw [failStart_eq]
  have record := startFailed_pump s p
  obtain ⟨-, charge, -, raised⟩ := failed_keeps (b := b) (startFailed s p) p
  refine ⟨attemptFailed_settle ?_ ?_ ?_ ?_ ?_ ?_, fun held => ⟨charge.trans ?_, raised _ (startFailed_raised held)⟩⟩
  · simp [startFailed, returnCharge_eq]
  · simp [startFailed, returnCharge_eq]
  · simp [startFailed, returnCharge_eq]
  all_goals rw [record]
  · exact trip
  · simp [returned, held]

/-- Settles O32. -/
theorem startsFail : Obligations.StartsFail := by
  intro p s live starting now
  obtain ⟨failed, returns⟩ := failStart_settle (b := s) (s := s) (p := p) rfl
  refine ⟨_, whenDueDc_next live now, ?_⟩
  rw [if_pos starting]
  exact ⟨returns, failed⟩

end Attempts

end Sys2Proof.Machine
end


section
/-! PROOF. Grants and shed requests of pumps (R71, R99). -/

namespace Sys2Proof.Machine

section Grants

variable {s t u a b : State} {p q : Pump} {w : Well}

theorem stopPump_held (send : Bool) : Held ((stopPump s p send).pump p) := .inr (by rw [stopPump_state]; simp)

/-- A stop, and what follows (R79). -/
structure StoppedBy (s t : State) (p : Pump) : Prop where
  record : bare (t.pump p) = bare (stopped s (s.pump p))
  returns : (s.pump p).charge = .start → (t.pump p).charge = .none ∧ .grantReturn (.pump p) ∈ t.raised
  notices : ∀ c, c = .running ∨ c = .external → (s.pump p).charge = c → (t.pump p).charge = c ∧ .stopNotice p ∈ t.raised

theorem StoppedBy.state (h : StoppedBy s t p) : (t.pump p).state = .stopping := of_bare (·.state) (fun _ => rfl) h.record
theorem StoppedBy.owner (h : StoppedBy s t p) : (t.pump p).owner = .auto := of_bare (·.owner) (fun _ => rfl) h.record
theorem StoppedBy.deadline (h : StoppedBy s t p) : (t.pump p).stopAt = some (s.now + 30000) :=
  of_bare (·.stopAt) (fun _ => rfl) h.record
theorem StoppedBy.charge (h : StoppedBy s t p) : (t.pump p).charge = returned (s.pump p).charge :=
  of_bare (·.charge) (fun _ => rfl) h.record

/-- What follows a stop leaves it. -/
theorem stopPump_settle (send : Bool) : StoppedBy s (settle b (stopPump s p send)) p := by
  have record := (settle_of_held (b := b) (stopPump_held (s := s) (p := p) send)).trans (stopPump_bare send)
  have charge := of_bare (·.charge) (fun _ => rfl) record
  have grown := settle_grows b (stopPump s p send)
  refine ⟨record, fun held => ⟨charge.trans ?_, grown.mem_raised (stopPump_returns held)⟩, fun c turns held =>
    ⟨charge.trans ?_, grown.mem_raised (stopPump_notices (held ▸ turns))⟩⟩
  · show returned (s.pump p).charge = _
    rw [held]; rfl
  · show returned (s.pump p).charge = _
    rw [held]
    rcases turns with rfl | rfl <;> rfl

/-- The state in which a grant is taken, before its RUN is offered (R71). -/
def takenGrant (s : State) (p : Pump) : State :=
  let s := enter s p .starting
  s.setPump p { s.pump p with
    charge := .start
    history := appendStart (s.pump p).history s.now
    startAt := some (s.now + (s.setup.startConfirm.get p).toNat * 1000) }

theorem takenGrant_pump (s : State) (p : Pump) : (takenGrant s p).pump p = { inState s (s.pump p) .starting with
    charge := .start
    history := appendStart (s.pump p).history s.now
    startAt := some (s.now + (s.setup.startConfirm.get p).toNat * 1000) } := by
  unfold takenGrant
  simp only [State.pump_setPump, if_true, enter_pump]
  rfl

/-- A RUN that no interlock holds back is offered where there is room. -/
theorem mem_buildCommand_run {change : Bool} (runs : actionHeld (s.pump p).state = some .run)
    (unlocked : (s.pump p).interlock = false) (auto : (s.pump p).owner = .auto) (room : s.lp.control.length < 8) :
    ∃ speed, pumpCommand s p .run speed ∈ (buildCommand s p change).lp.control := by
  have command : commandOf s p = some (.run, if s.setup.isVariable p then (s.pump p).staged else 100) := by
    unfold commandOf heldCommand
    simp [runs, unlocked, auto]
  unfold buildCommand
  rw [command]
  generalize (if s.setup.isVariable p then (s.pump p).staged else 100) = speed
  obtain ⟨lp, es, placed, control, -⟩ := offerCommand_of_room (p := p) (act := .run) (speed := speed) (change := change) room
  refine ⟨speed, ?_⟩
  rw [placed]
  show pumpCommand s p .run speed ∈ lp.control
  rw [control]
  simp

/-- Settles O36. -/
theorem grantsAndSheds : Obligations.GrantsAndSheds := by
  intro p s live
  refine ⟨⟨_, whenDc_next live, fun waits room => ?taken, fun waits full => ?full, fun other => ?other⟩,
    ⟨_, whenDc_next live, fun auto going => ?stops, fun stopping => ?met, fun still declines => ?declined⟩⟩
  case taken =>
    have free : historyFull s p = false := by simpa [historyFull] using room
    rw [if_neg (by simp [waits]), if_neg (by simp [free])]
    show _ ∧ _ ∧ _ ∧ _ ∧ _
    have taken : takeGrant s p = buildCommand (takenGrant s p) p true := rfl
    rw [taken]
    have record := takenGrant_pump s p
    have held : Held ((buildCommand (takenGrant s p) p true).pump p) := by
      refine Held.of_bare (buildCommand_bare true) (.inr ?_)
      rw [record]
      simp
    have after := (settle_of_held (b := s) held).trans (buildCommand_bare true)
    have fields := of_bare (fun r => (r.state, r.charge, r.startAt, r.history)) (fun _ => rfl) after
    rw [record] at fields
    simp only [Prod.mk.injEq] at fields
    obtain ⟨state, charge, start, history⟩ := fields
    refine ⟨state, charge, start, history, fun auto unlocked room => ?_⟩
    obtain ⟨speed, offered⟩ := mem_buildCommand_run (s := takenGrant s p) (p := p) (change := true) (by rw [record]; rfl)
      (by rw [record]; exact unlocked) (by rw [record]; show ownerIn .starting (s.pump p).owner = _; rw [auto]; rfl) room
    refine ⟨_, (settle_grows s _).mem_control offered, rfl, speed, ?_⟩
    unfold pumpCommand
    rw [record]
    rfl
  case full =>
    have full : historyFull s p = true := by simpa [historyFull] using full
    rw [if_neg (by simp [waits]), if_pos full]
    have returned : .grantReturn (.pump p) ∈ (enterOff (s.raise (.grantReturn (.pump p))) p).raised :=
      List.mem_append_right _ (.head _)
    refine ⟨?_, (settle_grows s _).mem_raised returned⟩
    have off := offTo_settle (b := s) (a := enterOff (s.raise (.grantReturn (.pump p))) p)
      (s := s.raise (.grantReturn (.pump p))) (p := p) rfl (enterOff_dc _ _)
    cases locked : (s.pump p).lockout with
    | true => rw [(off.locked locked).1]; simp
    | false =>
      cases disabled : (s.pump p).disabled with
      | true => rw [(off.disabled locked disabled).1]; simp
      | false => rcases off.free locked disabled with h | h <;> rw [h] <;> simp
  case other =>
    rw [if_pos other]
    refine ⟨?_, (settle_grows s _).mem_raised (List.mem_append_right _ (.head _))⟩
    exact congrArg (·.get p) (settle_pumps_of_same (b := s) (a := s.raise (.grantReturn (.pump p))) rfl)
  case stops =>
    have going' : startingOrRunning (s.pump p).state = true := by simpa [startingOrRunning] using going
    dsimp only
    rw [if_pos ⟨auto, going'⟩]
    have stopped := stopPump_settle (b := s) (s := s) (p := p) true
    exact ⟨stopped.state, stopped.deadline, stopped.returns, stopped.notices .running (.inl rfl)⟩
  case met =>
    dsimp only
    rw [if_neg (by simp [stopping, startingOrRunning]), if_pos stopping]
    exact congrArg (·.get p) (settle_self_pumps s)
  case declined =>
    dsimp only
    rw [if_neg ?_, if_neg still]
    · exact (settle_grows s _).mem_raised (List.mem_append_right _ (.head _))
    · rintro ⟨auto, going⟩
      rcases declines with other | ⟨calm, quiet⟩
      · exact other auto
      · simp [startingOrRunning, calm, quiet] at going

end Grants

end Sys2Proof.Machine
end


section
/-! PROOF. The commands that a refresh or a retry repeats (R82, R83, R85). -/

namespace Sys2Proof.Machine

section Repeats

variable {s t u a b : State} {p q : Pump} {w : Well}

/-- Where nothing that brings an evaluation has changed, what follows moves no pump and sends nothing. -/
theorem settle_keeps (same : ∀ q, trigger (b.pump q) = trigger (a.pump q)) : Keeps a (settle b a) := by
  have evaluated : State.each (evaluateChanged b) Well.all a = a := by
    have one (w : Well) : evaluateChanged b a w = a := by simp [evaluateChanged, wellChanged, same]
    show evaluateChanged b (evaluateChanged b a .a) .b = a
    rw [one, one]
  unfold settle
  rw [evaluated]
  refine .trans (.trans (.each _ rotateIfDue_keeps _ a) (.each _ (fun s p => ?_) _ _)) (.each _ (fun s p => ?_) _ _)
  · unfold judgeChanged
    split
    · exact .refl s
    · refine ⟨fun q => judgeDeadHead_still s p q, ?_, by rw [judgeDeadHead_duty], by rw [judgeDeadHead_duty]⟩
      unfold judgeDeadHead
      split
      · split <;> rfl
      · rfl
  · have tick : Keeps s (runTick b s p) := by
      unfold runTick
      split
      · exact .refl s
      · refine ⟨fun q => ?_, rfl, rfl, rfl⟩
        by_cases at_p : q = p
        · subst at_p; simp [still]
        · simp [at_p]
    refine tick.trans ?_
    unfold noticeFlow State.raiseIf
    dsimp only
    split
    · exact ⟨fun _ => rfl, rfl, rfl, rfl⟩
    · exact .refl _

theorem trigger_of_bare {r r' : PumpRecord} (h : bare r' = bare r) : trigger r' = trigger r :=
  of_bare trigger (fun _ => rfl) h

/-- The command that a pump's record holds (R44, R65, R85). -/
theorem commandOf_held {act : DriveAction} {speed : Nat}
    (h : ((s.pump p).state = .float ∧ act = .float ∧ speed = 100)
      ∨ (((s.pump p).state = .starting ∨ (s.pump p).state = .running) ∧ (s.pump p).owner = .auto
          ∧ (s.pump p).interlock = false ∧ act = .run
          ∧ speed = if s.setup.isVariable p then (s.pump p).staged else 100)
      ∨ (((s.pump p).state = .starting ∨ (s.pump p).state = .running) ∧ (s.pump p).owner = .manual
          ∧ (s.pump p).interlock = false ∧ (act = .run ∨ act = .reverse)
          ∧ ∃ v, (s.pump p).manual = some (act, v) ∧ speed = if s.setup.isVariable p then v else 100)
      ∨ (((s.pump p).state = .off ∨ (s.pump p).state = .startWait ∨ (s.pump p).state = .stopping
            ∨ (s.pump p).state = .resting ∨ (s.pump p).state = .backoff ∨ (s.pump p).state = .lockedOut
            ∨ (s.pump p).state = .unavailable .noStatus ∨ (s.pump p).state = .unavailable .skipped
            ∨ (s.pump p).state = .unavailable .disabled) ∧ act = .stop ∧ speed = 100)) :
    commandOf s p = some (act, speed) := by
  have runs (st : (s.pump p).state = .starting ∨ (s.pump p).state = .running) : actionHeld (s.pump p).state = some .run := by
    rcases st with st | st <;> rw [st] <;> rfl
  unfold commandOf heldCommand
  rcases h with ⟨float, rfl, rfl⟩ | ⟨going, owner, unlocked, rfl, rfl⟩ | ⟨going, owner, unlocked, -, v, manual, rfl⟩ |
    ⟨idle, rfl, rfl⟩
  · simp [float, actionHeld]
  · simp [runs going, owner, unlocked]
  · simp [runs going, owner, unlocked, manual]
  · have stop : actionHeld (s.pump p).state = some .stop := by
      rcases idle with h | h | h | h | h | h | h | h | h <;> rw [h] <;> rfl
    simp [stop]

theorem commandOf_none (h : ((s.pump p).state = .starting ∨ (s.pump p).state = .running) ∧ (s.pump p).interlock = true
    ∨ (s.pump p).state = .unavailable .localHand ∨ (s.pump p).state = .unavailable .notFitted) : commandOf s p = none := by
  unfold commandOf heldCommand
  rcases h with ⟨st | st, locked⟩ | st | st
  · simp [st, locked, actionHeld]
  · simp [st, locked, actionHeld]
  · simp [st, actionHeld]
  · simp [st, actionHeld]

/-- The record that finds its refresh restarted. -/
def refreshed (s : State) (p : Pump) : State := s.setPump p { s.pump p with refreshAt := some (s.now + refreshMs s) }

theorem refreshed_pump : (refreshed s p).pump p = { s.pump p with refreshAt := some (s.now + refreshMs s) } := by
  unfold refreshed
  rw [State.pump_setPump, if_pos rfl]

theorem commandOf_refreshed : commandOf (refreshed s p) p = commandOf s p := by
  unfold commandOf heldCommand
  rw [refreshed_pump]
  rfl

/-- A refresh or a retry as the offer of the pump's command. -/
theorem exec_repeats {c : Instr} (live : s.live = true)
    (now : c = .refreshExpiry p ∧ due (s.pump p).refreshAt s.now = true
      ∨ c = .commandRetry p ∧ due (s.pump p).retryAt s.now = true) :
    ∃ change, (c = .refreshExpiry p ∧ change = false ∧ exec c s = .next (settle s (offerCommand (refreshed s p) p (commandOf s p) change)))
      ∨ (c = .commandRetry p ∧ change = true ∧ exec c s = .next (settle s (offerCommand s p (commandOf s p) change))) := by
  rcases now with ⟨rfl, now⟩ | ⟨rfl, now⟩
  · refine ⟨false, .inl ⟨rfl, rfl, ?_⟩⟩
    rw [← commandOf_refreshed]
    exact whenDueDc_next live now
  · exact ⟨true, .inr ⟨rfl, rfl, whenDueDc_next live now⟩⟩

theorem settle_offered {command : Option (DriveAction × Nat)} {change : Bool} (lp : u.lp = s.lp)
    (other : ∀ q, q ≠ p → u.pump q = s.pump q) (own : bare (u.pump p) = bare (s.pump p)) :
    Keeps (offerCommand u p command change) (settle s (offerCommand u p command change)) := by
  refine settle_keeps fun q => (trigger_of_bare ((offerCommand_bare command change).trans ?_)).symm
  by_cases same : q = p
  · rw [same, own]
  · rw [other q same]

/-- Settles O35. -/
theorem commandsAreRepeated : Obligations.CommandsAreRepeated := by
  intro p c s live now
  obtain ⟨change, cases⟩ := exec_repeats live now
  obtain ⟨u, step, lp, other, record, restarted, retry, refresh_at, change_iff⟩ : ∃ u : State,
      exec c s = .next (settle s (offerCommand u p (commandOf s p) change)) ∧ u.lp = s.lp
      ∧ (∀ q, q ≠ p → u.pump q = s.pump q) ∧ (∃ x, u.pump p = { s.pump p with refreshAt := x })
      ∧ dcMask u = dcMask s
      ∧ (c = .commandRetry p → change = true ∧ due (s.pump p).retryAt s.now = true)
      ∧ (c = .refreshExpiry p → (u.pump p).refreshAt = some (s.now + refreshMs s))
      ∧ (c = .refreshExpiry p → change = false) := by
    rcases cases with ⟨rfl, rfl, step⟩ | ⟨rfl, rfl, step⟩
    · exact ⟨refreshed s p, step, rfl, fun q apart => by simp [refreshed, apart], ⟨_, refreshed_pump⟩, rfl,
        fun h => (by cases h), fun _ => by rw [refreshed_pump], fun _ => rfl⟩
    · refine ⟨s, step, rfl, fun _ _ => rfl, ⟨_, rfl⟩, rfl, fun _ => ⟨rfl, ?_⟩, fun h => (by cases h), fun h => (by cases h)⟩
      rcases now with ⟨h, -⟩ | ⟨-, now⟩
      · cases h
      · exact now
  obtain ⟨x, record⟩ := record
  have keeps : Keeps _ (settle s (offerCommand u p (commandOf s p) change)) :=
    settle_offered lp other (by rw [record]; rfl)
  refine ⟨fun silent => ⟨_, step, ?_⟩, fun act speed held => ⟨_, step, ?_⟩⟩
  · have unheld := commandOf_none silent
    rw [unheld] at keeps ⊢
    have stands : (offerCommand u p none change).pump p = { u.pump p with retryAt := none } := by
      unfold offerCommand
      rw [State.pump_setPump, if_pos rfl]
    have fields := of_still (fun r => (r.state, r.count, r.applied)) (fun _ => rfl) (keeps.pumps p)
    rw [stands, record] at fields
    simp only [Prod.mk.injEq] at fields
    exact ⟨fields.1, keeps.lp.trans lp, fields.2.1, fields.2.2⟩
  · have command := commandOf_held held
    rw [command] at keeps ⊢
    have fields := of_still (fun r => (r.state, r.count, r.applied, r.retryAt, r.refreshAt)) (fun _ => rfl) (keeps.pumps p)
    simp only [Prod.mk.injEq] at fields
    obtain ⟨state, count, applied, retried, refreshes⟩ := fields
    have unmoved : ((offerCommand u p (some (act, speed)) change).pump p).state = (s.pump p).state := by
      rw [of_bare (·.state) (fun _ => rfl) (offerCommand_bare _ change), record]
    refine ⟨state.trans unmoved, ?_⟩
    split
    · next room =>
      obtain ⟨line, es, placed, control, -⟩ := offerCommand_of_room (s := u) (p := p) (act := act) (speed := speed)
        (change := change) (by rw [lp]; exact room)
      have after : (offerCommand u p (some (act, speed)) change).pump p = commandPlaced u p act speed (u.pump p) := by
        rw [placed, State.pump_setPump, if_pos rfl]
      rw [after, record] at count applied retried refreshes
      refine ⟨?_, count, retried, ?_, ?_⟩
      · rw [keeps.lp, placed]
        show line.control = _
        rw [control]
        unfold pumpCommand driveOf
        rw [lp, record, setup_of_dc restarted]
      · rw [refreshes]
        unfold commandPlaced refreshMs
        rw [now_of_dc restarted, setup_of_dc restarted]
      · rw [applied]
        unfold commandPlaced
        rw [setup_of_dc restarted]
        simp
    · next full =>
      have stays := offerCommand_of_full (s := u) (p := p) (act := act) (speed := speed) (change := change)
        (by rw [lp]; exact full)
      rw [stays] at keeps count applied retried refreshes ⊢
      refine ⟨keeps.lp.trans ?_, ?_, ?_, fun isRefresh => ?_, fun isRetry => ?_⟩
      · split
        · exact lp
        · exact lp
      · rw [count]
        split
        · rw [State.pump_setPump, if_pos rfl, record]
        · rw [record]
      · rw [applied]
        split
        · rw [State.pump_setPump, if_pos rfl, record]
        · rw [record]
      · rw [refreshes, change_iff isRefresh]
        exact refresh_at isRefresh
      · obtain ⟨offered, passed⟩ := retry isRetry
        rw [retried, offered, if_pos rfl, State.pump_setPump, if_pos rfl, record, now_of_dc restarted]
        show nextOffer (s.pump p).retryAt s.now = _
        unfold due at passed
        unfold nextOffer
        split
        · next x at_x =>
          rw [at_x] at passed
          rw [if_neg (by simpa using passed)]
        · rfl

end Repeats

end Sys2Proof.Machine
end


section
/-! PROOF. The ends of a pump's waits and deadlines (R43, R44, R70, R75, R77, R80, R81, R86). -/

namespace Sys2Proof.Machine

section Waits

variable {s t u a b : State} {p q : Pump} {w : Well}

/-- The state in which a wait ends; the end of a skip clears the attempts. -/
theorem exec_waitEnd {c : Instr} (live : s.live = true) (now : due (s.pump p).waitEnd s.now = true)
    (ends : c = .backoffEnd p ∧ (s.pump p).state = .backoff ∨ c = .restEnd p ∧ (s.pump p).state = .resting
        ∨ c = .skipEnd p ∧ (s.pump p).state = .unavailable .skipped) :
    exec c s = .next (settle s (enterOff (s.setPump p { s.pump p with
      attempts := if c = .skipEnd p then 0 else (s.pump p).attempts }) p)) := by
  rcases ends with ⟨rfl, state⟩ | ⟨rfl, state⟩ | ⟨rfl, state⟩
  · refine (whenDueDc_next live now).trans ?_
    rw [if_pos state, if_neg (by simp)]
    exact congrArg (fun u => Host.Outcome.next (settle s (enterOff u p))) (setPump_self s p).symm
  · refine (whenDueDc_next live now).trans ?_
    rw [if_pos state, if_neg (by simp)]
    exact congrArg (fun u => Host.Outcome.next (settle s (enterOff u p))) (setPump_self s p).symm
  · refine (whenDueDc_next live now).trans ?_
    rw [if_pos state, if_pos rfl]

/-- Settles O33. -/
theorem waitsAndDeadlinesEnd : Obligations.WaitsAndDeadlinesEnd := by
  intro p w s live
  refine ⟨fun c now ends => ⟨_, exec_waitEnd live now ends, ?waits⟩, fun now stopping fresh => ?stop, fun now => ?deadHead,
    fun h scheduled => ?curves, fun d running passed => ?seconds, fun first rest history aged => ?ageing⟩
  case waits =>
    generalize ended : s.setPump p { s.pump p with attempts := if c = .skipEnd p then 0 else (s.pump p).attempts } = u
    have record : u.pump p = { s.pump p with attempts := if c = .skipEnd p then 0 else (s.pump p).attempts } := by
      rw [← ended, State.pump_setPump, if_pos rfl]
    have mask : dcMask u = dcMask s := by rw [← ended]; rfl
    have off := offTo_settle (b := s) (a := enterOff u p) (s := u) (p := p) rfl (enterOff_dc _ _)
    have attempts := (settle_steady s (enterOff u p) p).attempts
    rw [enterOff_pump] at attempts
    obtain ⟨locked, disabled, free, quiet⟩ := off
    rw [record] at locked disabled free quiet attempts
    exact ⟨attempts, locked, disabled, fun unlocked enabled still => quiet unlocked enabled (quiet_of_dc mask still), free⟩
  case stop =>
    refine ⟨_, whenDueDc_next live now, ?_⟩
    rw [if_pos ⟨stopping, fresh⟩]
    generalize marked : (s.setPump p { s.pump p with stopFailed := true }).submit
      (.stopFailed p (reportedState (s.pump p))) = a
    have record : a.pump p = { s.pump p with stopFailed := true } := by
      rw [← marked, pump_submit, State.pump_setPump, if_pos rfl]
    have held : Held (a.pump p) := .inr (by rw [record]; simp [stopping])
    have fields := of_still (fun r => (r.state, r.stopFailed, r.charge)) (fun _ => rfl) (settle_held s a p held)
    rw [record] at fields
    simp only [Prod.mk.injEq] at fields
    obtain ⟨state, failed, charge⟩ := fields
    refine ⟨state.trans stopping, failed, charge, (settle_grows s a).mem_raised ?_⟩
    rw [← marked]
    exact List.mem_append_right _ (.head _)
  case deadHead =>
    refine ⟨_, whenDueDc_next live now, ?_⟩
    generalize forced : s.setPump p { s.pump p with deadHeadAt := none, forcing := true, staged := 100 } = a
    have record : a.pump p = { s.pump p with deadHeadAt := none, forcing := true, staged := 100 } := by
      rw [← forced, State.pump_setPump, if_pos rfl]
    have stands : (settle s a).pump p = a.pump p := by
      refine congrArg (·.get p) (settle_pumps fun q => ?_)
      by_cases same : q = p
      · rw [same, record]
        exact ⟨rfl, rfl, rfl⟩
      · rw [← forced, State.pump_setPump, if_neg same]
        exact ⟨rfl, rfl, rfl⟩
    rw [stands, record]
    exact ⟨rfl, rfl, rfl, rfl⟩
  case curves =>
    apply whenLive_next live
    have standing : curvesScheduled s = true := by simp [curvesScheduled, scheduled]
    dsimp only
    rw [standing, Bool.true_and]
  case seconds =>
    have now : due (s.pump p).runTickAt s.now = true := by simpa [due, running] using passed
    apply whenDue_next live now
    rw [running]
    rfl
  case ageing =>
    have now : due (agingAt (s.pump p)) s.now = true := by simpa [agingAt, history, due] using aged
    refine ⟨_, whenDueDc_next live now, ?_⟩
    dsimp only
    generalize cut : s.setPump p { s.pump p with history := agedHistory (s.pump p).history s.now } = a
    have kept (q : Pump) {x : State} (h : x = a ∨ ∃ w, x = evaluateLive a w) : ((settle s x).pump q).history = (a.pump q).history := by
      refine (settle_steady s x q).history.trans ?_
      rcases h with rfl | ⟨w, rfl⟩
      · rfl
      · exact ((steady_settles q).evaluateLive a w).history
    have own : (a.pump p).history = (s.pump p).history.filter fun x => decide (s.now < x + 3600000) := by
      rw [← cut, State.pump_setPump, if_pos rfl]
      rfl
    have other (q : Pump) (apart : q ≠ p) : (a.pump q).history = (s.pump q).history := by
      rw [← cut, State.pump_setPump, if_neg apart]
    split
    · exact ⟨(kept p (.inr ⟨_, rfl⟩)).trans own, fun q apart => (kept q (.inr ⟨_, rfl⟩)).trans (other q apart)⟩
    · exact ⟨(kept p (.inl rfl)).trans own, fun q apart => (kept q (.inl rfl)).trans (other q apart)⟩

end Waits

end Sys2Proof.Machine
end


section
/-! PROOF. What a drive's report does to its pump (R59 to R62, R72, R78, R80). -/

namespace Sys2Proof.Machine

section Reports

variable {s t u a b : State} {p q : Pump} {w : Well} {d : DriveReport}

theorem inState_congr {r : PumpRecord} {st : PumpState} (mask : dcMask t = dcMask s) : inState t r st = inState s r st := by
  unfold inState refreshMs
  rw [now_of_dc mask, setup_of_dc mask]

/-! ## A start confirmed (R72) -/

/-- The charge after a transfer. -/
def transferred (c : ChargeKind) : ChargeKind := if c = .start then .running else c

/-- The state in which a start's charge is transferred and its notices are sent. -/
def noticed (s : State) (p : Pump) : State :=
  let s := if (s.pump p).charge = .start then
      (s.setPump p { s.pump p with charge := .running }).raise (.chargeTransfer (.pump p))
    else s
  notifyFlow (notifySurge s p) p

theorem noticed_eq (s : State) (p : Pump) : noticed s p =
    (((s.setPump p (withCharge (s.pump p) (transferred (s.pump p).charge))).raiseIf ((s.pump p).charge == .start)
      (.chargeTransfer (.pump p))).raiseAll ((s.wellOf p).map Instr.surgeNotice).toList).raise (.pumpFlowNotice p none) := by
  unfold noticed notifyFlow
  dsimp only
  rw [notifySurge_eq]
  split
  · next held =>
    rw [raiseIf_of (by simp [held]), held]
    rfl
  · next other =>
    have same : transferred (s.pump p).charge = (s.pump p).charge := if_neg other
    rw [raiseIf_of_not (by simp [other]), same, withCharge_self, setPump_self]

theorem confirmStart_eq (s : State) (p : Pump) : confirmStart s p = (enter (noticed s p) p .running).setPump p
    { (enter (noticed s p) p .running).pump p with
      attempts := 0, runStart := some (noticed s p).now, stopDeferred := false } := rfl

theorem noticed_dc : dcMask (noticed s p) = dcMask s := by simp [noticed_eq]

/-- The record a confirmed start leaves. -/
def running (s : State) (r : PumpRecord) : PumpRecord :=
  { inState s (withCharge r (transferred r.charge)) .running with
    attempts := 0, runStart := some s.now, stopDeferred := false }

theorem confirmStart_pump : (confirmStart s p).pump p = running s (s.pump p) := by
  have record : (noticed s p).pump p = withCharge (s.pump p) (transferred (s.pump p).charge) := by
    rw [noticed_eq, pump_raise, pump_raiseAll, pump_raiseIf, State.pump_setPump, if_pos rfl]
  rw [confirmStart_eq, State.pump_setPump, if_pos rfl, enter_pump, inState_congr noticed_dc, record, now_of_dc noticed_dc]
  rfl

theorem confirmStart_raised : (confirmStart s p).raised = (noticed s p).raised := rfl

theorem noticed_raised : ((s.pump p).charge = .start → .chargeTransfer (.pump p) ∈ (noticed s p).raised)
    ∧ (∀ w, s.wellOf p = some w → .surgeNotice w ∈ (noticed s p).raised) ∧ .pumpFlowNotice p none ∈ (noticed s p).raised := by
  rw [noticed_eq]
  refine ⟨fun held => ?_, fun w well => ?_, ?_⟩
  · simp [held]
  · simp [well]
  · simp

/-! ## A stop confirmed (R80) -/

/-- The record a confirmed stop leaves. -/
def resting (s : State) (p : Pump) (r : PumpRecord) : PumpRecord :=
  { inState s (withCharge r .none) .resting with waitEnd := some (s.now + (s.setup.minRest.get p).toNat * 1000) }

/-- The state in which a stop's charge is released and its notice is sent. -/
def calmed (s : State) (p : Pump) : State := notifySurge (releaseCharge s p) p

theorem calmed_eq (s : State) (p : Pump) : calmed s p =
    ((s.setPump p (withCharge (s.pump p) .none)).raiseIf ((s.pump p).charge != .none) (.chargeRelease (.pump p))).raiseAll
      ((s.wellOf p).map Instr.surgeNotice).toList := by
  have well : (releaseCharge s p).wellOf p = s.wellOf p := by
    unfold State.wellOf
    rw [setup_of_dc (releaseCharge_dc s p)]
  unfold calmed
  rw [notifySurge_eq, well, releaseCharge_eq]

theorem calmed_dc : dcMask (calmed s p) = dcMask s := by simp [calmed_eq]

theorem confirmStop_eq (s : State) (p : Pump) : confirmStop s p = (enter (calmed s p) p .resting).setPump p
    { (enter (calmed s p) p .resting).pump p with
      waitEnd := some ((calmed s p).now + ((calmed s p).setup.minRest.get p).toNat * 1000) } := rfl

theorem confirmStop_pump : (confirmStop s p).pump p = resting s p (s.pump p) := by
  have record : (calmed s p).pump p = withCharge (s.pump p) .none := by
    rw [calmed_eq, pump_raiseAll, pump_raiseIf, State.pump_setPump, if_pos rfl]
  rw [confirmStop_eq, State.pump_setPump, if_pos rfl, enter_pump, inState_congr calmed_dc, record, now_of_dc calmed_dc,
    setup_of_dc calmed_dc]
  rfl

theorem calmed_raised : ((s.pump p).charge ≠ .none → .chargeRelease (.pump p) ∈ (calmed s p).raised)
    ∧ (∀ w, s.wellOf p = some w → .surgeNotice w ∈ (calmed s p).raised) := by
  rw [calmed_eq]
  refine ⟨fun held => ?_, fun w well => ?_⟩
  · simp [held]
  · simp [well]

/-- A confirmed stop, and what follows. -/
theorem confirmStop_settle : still ((settle b (confirmStop s p)).pump p) = still (resting s p (s.pump p))
    ∧ ((s.pump p).charge ≠ .none → .chargeRelease (.pump p) ∈ (settle b (confirmStop s p)).raised)
    ∧ (∀ w, s.wellOf p = some w → .surgeNotice w ∈ (settle b (confirmStop s p)).raised) := by
  have held : Held ((confirmStop s p).pump p) := .inr (by rw [confirmStop_pump]; simp [resting])
  have record := settle_held b (confirmStop s p) p held
  rw [confirmStop_pump] at record
  have grown := settle_grows b (confirmStop s p)
  exact ⟨record, fun charged => grown.mem_raised (calmed_raised.1 charged), fun w well => grown.mem_raised (calmed_raised.2 w well)⟩

/-! ## A report by the state of the pump (R59) -/

/-- A state in which a report is neither held back nor a return (R60, R61). -/
def Attended (st : PumpState) : Prop :=
  st ≠ .float ∧ st ≠ .unavailable .notFitted ∧ st ≠ .unavailable .localHand ∧ st ≠ .unavailable .noStatus

theorem takeReport_float (state : (s.pump p).state = .float) :
    takeReport s p d = (if d.state = .tripped then takeTripped s p d else s).raise (.driveStatusReport p true) := by
  unfold takeReport
  rw [state]

theorem takeReport_notFitted (state : (s.pump p).state = .unavailable .notFitted) : takeReport s p d = s := by
  unfold takeReport
  rw [state]

theorem takeReport_away (state : (s.pump p).state = .unavailable .localHand ∨ (s.pump p).state = .unavailable .noStatus) :
    takeReport s p d = if d.state = .localHand then takeLocal s p d else leaveLocal s p d := by
  unfold takeReport
  rcases state with state | state <;> rw [state]

/-- A report in any other state. -/
theorem takeReport_attended (state : Attended (s.pump p).state) : takeReport s p d =
    if d.state = .localHand then takeLocal s p d
    else if d.state = .tripped then takeTripped s p d
    else if d.state = .running ∧ (s.pump p).state = .starting then confirmStart s p
    else if d.state = .stopped ∧ (s.pump p).state = .stopping then confirmStop s p
    else s := by
  obtain ⟨float, notFitted, hand, silent⟩ := state
  unfold takeReport
  split
  · next h => exact absurd h float
  · next h => exact absurd h notFitted
  · next h => exact absurd h hand
  · next h => exact absurd h silent
  · split
    · next h => simp [h]
    · next h => simp [h]
    · next h st => simp [h, st]
    · next h st => simp [h, st]
    · next noHand noTrip noStart noStop =>
      rw [if_neg noHand, if_neg noTrip, if_neg fun h => noStart h.1 h.2, if_neg fun h => noStop h.1 h.2]

/-! ## Local control (R60) -/

/-- The state in which a pump that passes to local control has given up what it asked for. -/
def handed (s : State) (p : Pump) : State :=
  match (s.pump p).state with
  | .startWait => withdraw s p
  | .starting => returnCharge s p
  | _ => s

/-- The charge a pump passes to local control with. -/
def handedCharge (r : PumpRecord) : ChargeKind := if r.state = .starting then returned r.charge else r.charge

theorem handed_pump : (handed s p).pump p = withCharge (s.pump p) (handedCharge (s.pump p)) := by
  unfold handed handedCharge
  split
  · next h => rw [if_neg (by simp [h])]; rfl
  · next h => rw [if_pos h, returnCharge_pump]
  · next h => rw [if_neg h]; rfl

theorem handed_dc : dcMask (handed s p) = dcMask s := by
  unfold handed
  split
  · rfl
  · exact returnCharge_dc s p
  · rfl

theorem handed_grows : Grows s (handed s p) := by
  unfold handed
  split
  · exact State.raise_grows _ _
  · exact returnCharge_grows s p
  · exact .refl s

theorem handed_raised : ((s.pump p).state = .startWait → .requestWithdrawal (.pump p) ∈ (handed s p).raised)
    ∧ ((s.pump p).state = .starting → (s.pump p).charge = .start → .grantReturn (.pump p) ∈ (handed s p).raised) := by
  unfold handed
  refine ⟨fun waits => ?_, fun starting held => ?_⟩
  · simp [waits, withdraw]
  · simp [starting, returnCharge_eq, held]

theorem takeLocal_eq (s : State) (p : Pump) (d : DriveReport) :
    takeLocal s p d = chargeLocal (enter (handed s p) p (.unavailable .localHand)) p d := rfl

/-- The charge of a pump under local control. -/
def localCharge (d : DriveReport) (c : ChargeKind) : ChargeKind := if d.floatRunning then outside c else .none

theorem takeLocal_pump : (takeLocal s p d).pump p =
    withCharge (inState s (s.pump p) (.unavailable .localHand)) (localCharge d (handedCharge (s.pump p))) := by
  have record : (enter (handed s p) p (.unavailable .localHand)).pump p =
      withCharge (inState s (s.pump p) (.unavailable .localHand)) (handedCharge (s.pump p)) := by
    rw [enter_pump, inState_congr handed_dc, handed_pump]
    rfl
  rw [takeLocal_eq]
  unfold chargeLocal localCharge
  split
  · rw [chargeExternal_eq, pump_raiseIf, State.pump_setPump, if_pos rfl, record]
    rfl
  · rw [releaseCharge_pump, record]
    rfl

theorem chargeLocal_grows : Grows s (chargeLocal s p d) := by
  unfold chargeLocal
  split
  · rw [chargeExternal_eq]
    exact (State.setPump_grows _ _ _).trans (State.raiseIf_grows _ _ _)
  · exact releaseCharge_grows s p

theorem takeLocal_raised :
    (∀ e ∈ (handed s p).raised, e ∈ (takeLocal s p d).raised)
    ∧ (d.floatRunning = false → handedCharge (s.pump p) ≠ .none → .chargeRelease (.pump p) ∈ (takeLocal s p d).raised)
    ∧ (∀ c, c = .none ∨ c = .running → d.floatRunning = true → handedCharge (s.pump p) = c →
        .externalCharge p (c == .running) ∈ (takeLocal s p d).raised) := by
  have charge : ((enter (handed s p) p (.unavailable .localHand)).pump p).charge = handedCharge (s.pump p) := by
    rw [enter_pump, handed_pump]
    rfl
  rw [takeLocal_eq]
  refine ⟨fun e member => ?_, fun still held => ?_, fun c given turns held => ?_⟩
  · exact ((enter_grows _ _ _).trans chargeLocal_grows).mem_raised member
  · unfold chargeLocal
    rw [still, releaseCharge_eq, charge]
    simp [held]
  · unfold chargeLocal
    rw [turns, if_pos rfl, chargeExternal_eq, charge, held]
    rcases given with rfl | rfl <;> simp

theorem takeLocal_settle : still ((settle b (takeLocal s p d)).pump p) =
      still (withCharge (inState s (s.pump p) (.unavailable .localHand)) (localCharge d (handedCharge (s.pump p)))) := by
  have held : Held ((takeLocal s p d).pump p) := .inr (by rw [takeLocal_pump]; simp [withCharge])
  rw [settle_held b _ p held, takeLocal_pump]

/-! ## Trips (R62) -/

/-- The record of a trip (R62). -/
def tripped (s : State) (p : Pump) (d : DriveReport) : State := s.setPump p { s.pump p with lastTrip := d.cause }

theorem tripped_pump : (tripped s p d).pump p = { s.pump p with lastTrip := d.cause } := by
  unfold tripped
  rw [State.pump_setPump, if_pos rfl]

theorem takeTripped_eq (s : State) (p : Pump) (d : DriveReport) : takeTripped s p d =
    if d.cause = .moisture then
      match (s.pump p).state with
      | .unavailable .notFitted => tripped s p d
      | .float | .lockedOut | .unavailable .localHand | .unavailable .noStatus =>
        (tripped s p d).setPump p { (tripped s p d).pump p with lockout := true }
      | _ => lockMoist (tripped s p d) p
    else
      match (s.pump p).state with
      | .starting => failStart (tripped s p d) p
      | .running => tripRunning (tripped s p d) p d.cause
      | .stopping => confirmStop (tripped s p d) p
      | .startWait => enterOff (withdraw (tripped s p d) p) p
      | _ => tripped s p d := by
  have same : ((tripped s p d).pump p).state = (s.pump p).state := by rw [tripped_pump]
  rw [← same]
  rfl

/-- The state in which a pump that a moisture trip finds has given up what it asked for or its charge. -/
def quitted (s : State) (p : Pump) : State :=
  match (s.pump p).state with
  | .startWait => withdraw s p
  | .running => releaseCharge (notifySurge s p) p
  | _ => releaseCharge s p

theorem lockMoist_eq (s : State) (p : Pump) : lockMoist s p = lockOut (quitted s p) p := rfl

theorem notifySurge_pump : (notifySurge s p).pump q = s.pump q := by rw [notifySurge_eq, pump_raiseAll]

theorem quitted_pump : (quitted s p).pump p =
    if (s.pump p).state = .startWait then s.pump p else withCharge (s.pump p) .none := by
  unfold quitted
  split
  · next h => rw [if_pos h]; rfl
  · next h => rw [if_neg (by simp [h]), releaseCharge_pump, notifySurge_pump]
  · next h _ => rw [if_neg h, releaseCharge_pump]

theorem quitted_raised : ((s.pump p).state = .startWait → .requestWithdrawal (.pump p) ∈ (quitted s p).raised)
    ∧ ((s.pump p).state ≠ .startWait → (s.pump p).charge ≠ .none → .chargeRelease (.pump p) ∈ (quitted s p).raised)
    ∧ (∀ w, (s.pump p).state = .running → s.wellOf p = some w → .surgeNotice w ∈ (quitted s p).raised) := by
  unfold quitted
  refine ⟨fun waits => ?_, fun other held => ?_, fun w runs well => ?_⟩
  · simp [waits, withdraw]
  · split
    · next h => exact absurd h other
    · simp [releaseCharge_eq, notifySurge_pump, held]
    · simp [releaseCharge_eq, held]
  · simp [runs, releaseCharge_eq, notifySurge_eq, well]
    split <;> simp

/-- A moisture trip that locks a pump out, and what follows. -/
theorem lockMoist_settle : still ((settle b (lockMoist s p)).pump p) =
      still { inState (quitted s p) ((quitted s p).pump p) .lockedOut with lockout := true }
    ∧ (∀ e ∈ (quitted s p).raised, e ∈ (settle b (lockMoist s p)).raised)
    ∧ .recordSubmission (.pumpLockout p (s.pump p).lastTrip) ∈ (settle b (lockMoist s p)).raised := by
  have held : Held ((lockMoist s p).pump p) := .inr (by rw [lockMoist_eq, lockOut_pump]; simp)
  have grown := settle_grows b (lockMoist s p)
  have trip : ((quitted s p).pump p).lastTrip = (s.pump p).lastTrip := by
    rw [quitted_pump]
    split <;> rfl
  refine ⟨by rw [settle_held b _ p held, lockMoist_eq, lockOut_pump], fun e member => grown.mem_raised ?_, grown.mem_raised ?_⟩
  · rw [lockMoist_eq, lockOut_raised]
    exact List.mem_append_left _ member
  · rw [lockMoist_eq, lockOut_raised, trip]
    simp

/-- The state in which a trip while running is noticed, recorded and counted as a first attempt (R78). -/
def tripNoted (s : State) (p : Pump) (cause : TripCause) : State :=
  let s := releaseCharge (notifyFlow (notifySurge s p) p) p
  let s := s.submit (.pumpTripRetry p cause)
  s.setPump p { s.pump p with attempts := 1 }

theorem tripRunning_eq (s : State) (p : Pump) (cause : TripCause) :
    tripRunning s p cause = buildCommand (afterAttempt (tripNoted s p cause) p) p true := rfl

theorem tripNoted_eq (s : State) (p : Pump) (cause : TripCause) : ∃ es, tripNoted s p cause =
      (s.setPump p { s.pump p with charge := .none, attempts := 1 }).raiseAll es
    ∧ .recordSubmission (.pumpTripRetry p cause) ∈ es ∧ .pumpFlowNotice p none ∈ es
    ∧ (∀ w, s.wellOf p = some w → .surgeNotice w ∈ es) ∧ ((s.pump p).charge ≠ .none → .chargeRelease (.pump p) ∈ es) := by
  have set (r r' : PumpRecord) : (s.setPump p r).setPump p r' = s.setPump p r' := by
    have same : (s.pumps.set p r).set p r' = s.pumps.set p r' := by cases p <;> rfl
    exact congrArg (fun x => { s with pumps := x }) same
  refine ⟨((s.wellOf p).map Instr.surgeNotice).toList ++ [.pumpFlowNotice p none]
    ++ (if (s.pump p).charge != .none then [.chargeRelease (.pump p)] else []) ++ [.recordSubmission (.pumpTripRetry p cause)],
    ?_, by simp, by simp, fun w well => by simp [well], fun held => by simp [held]⟩
  have noticed : notifyFlow (notifySurge s p) p
      = (s.raiseAll ((s.wellOf p).map Instr.surgeNotice).toList).raise (.pumpFlowNotice p none) := by
    rw [notifySurge_eq]
    rfl
  unfold tripNoted
  rw [noticed, releaseCharge_eq]
  simp only [pump_submit, pump_raiseIf, State.pump_setPump, if_true, pump_raise, pump_raiseAll]
  refine Eq.trans ?_ (congrArg (State.raiseAll · _) (set (withCharge (s.pump p) .none) _))
  unfold State.raiseIf
  split
  · simp only [State.raiseAll, State.raise, State.submit, State.setPump, withCharge, List.append_assoc]
  · simp only [State.raiseAll, State.raise, State.submit, State.setPump, withCharge, List.append_assoc, List.nil_append]

end Reports

end Sys2Proof.Machine
end


section
/-! PROOF. What follows a drive's report. -/

namespace Sys2Proof.Machine

section Reported

variable {s t u a b : State} {p q : Pump} {w : Well} {d : DriveReport}

theorem exec_driveStat {src : Addr} {payload : List Byte} (live : s.live = true) (pump : pumpAtDrive s src = some p)
    (report : driveReportOf payload = some d) :
    exec (.driveStat src payload) s = .next (settle s (takeReport (recordReport s p d) p d)) := by
  refine (whenDc_next live).trans ?_
  simp only [pump, report]

theorem recordReport_pump : (recordReport s p d).pump p =
    { s.pump p with drive := .known d s.now, lastReport := some d, statusAt := some (s.now + 15000) } := by
  unfold recordReport
  rw [State.pump_setPump, if_pos rfl]

/-! ## The report stays recorded -/

theorem attempt_reported : reported ((buildCommand (afterAttempt s p) p true).pump p) = reported (s.pump p) :=
  (of_bare reported (fun _ => rfl) (buildCommand_bare true)).trans (afterAttempt_attempted s p).1.report

theorem takeTripped_reported : reported ((takeTripped s p d).pump p) = reported (s.pump p) := by
  have trip : reported ((tripped s p d).pump p) = reported (s.pump p) := by rw [tripped_pump]; rfl
  rw [takeTripped_eq, ← trip]
  split
  · split
    · rfl
    · rw [State.pump_setPump, if_pos rfl]; rfl
    · rw [State.pump_setPump, if_pos rfl]; rfl
    · rw [State.pump_setPump, if_pos rfl]; rfl
    · rw [State.pump_setPump, if_pos rfl]; rfl
    · rw [lockMoist_eq, lockOut_pump, quitted_pump]
      split <;> rfl
  · split
    · rw [failStart_eq, attempt_reported, startFailed_pump]; rfl
    · obtain ⟨es, noted, -⟩ := tripNoted_eq (tripped s p d) p d.cause
      rw [tripRunning_eq, attempt_reported, noted, pump_raiseAll, State.pump_setPump, if_pos rfl]
      rfl
    · rw [confirmStop_pump]; rfl
    · rw [enterOff_pump]; rfl
    · rfl

/-- The record of a trip in a pump that leaves local control or silence (R61, R62). -/
def returnTripped (s : State) (p : Pump) (d : DriveReport) : State :=
  s.setPump p { s.pump p with lastTrip := d.cause, lockout := (s.pump p).lockout || d.cause == .moisture }

theorem leaveLocal_eq (s : State) (p : Pump) (d : DriveReport) : leaveLocal s p d =
    if d.state = .tripped then enterOff (releaseCharge (returnTripped s p d) p) p
    else if turning d then stopPump s p true
    else enterOff (releaseCharge s p) p := rfl

theorem leaveLocal_reported : reported ((leaveLocal s p d).pump p) = reported (s.pump p) := by
  rw [leaveLocal_eq]
  split
  · rw [enterOff_pump, releaseCharge_pump]
    unfold returnTripped
    rw [State.pump_setPump, if_pos rfl]
    rfl
  · split
    · have same := of_bare reported (fun _ => rfl) (stopPump_bare (s := s) (p := p) true)
      exact same.trans rfl
    · rw [enterOff_pump, releaseCharge_pump]; rfl

theorem takeReport_reported : reported ((takeReport s p d).pump p) = reported (s.pump p) := by
  have hand : reported ((takeLocal s p d).pump p) = reported (s.pump p) := by rw [takeLocal_pump]; rfl
  by_cases float : (s.pump p).state = .float
  · rw [takeReport_float float, pump_raise]
    split
    · exact takeTripped_reported
    · rfl
  by_cases notFitted : (s.pump p).state = .unavailable .notFitted
  · rw [takeReport_notFitted notFitted]
  by_cases away : (s.pump p).state = .unavailable .localHand ∨ (s.pump p).state = .unavailable .noStatus
  · rw [takeReport_away away]
    split
    · exact hand
    · exact leaveLocal_reported
  · rw [takeReport_attended ⟨float, notFitted, fun h => away (.inl h), fun h => away (.inr h)⟩]
    repeat' split
    · exact hand
    · exact takeTripped_reported
    · rw [confirmStart_pump]; rfl
    · rw [confirmStop_pump]; rfl
    · rfl

theorem settle_reported : reported ((settle b a).pump p) = reported (a.pump p) := by
  have steady := settle_steady b a p
  unfold reported
  rw [steady.drive, steady.lastReport, steady.statusAt]

/-! ## A report to a pump in FLOAT -/

/-- A trip leaves a pump in FLOAT, LOCKED_OUT or UNAVAILABLE(NOT_FITTED) where it is. -/
theorem takeTripped_rests (state : (s.pump p).state = .float ∨ (s.pump p).state = .lockedOut) :
    takeTripped s p d = if d.cause = .moisture then (tripped s p d).setPump p { (tripped s p d).pump p with lockout := true }
      else tripped s p d := by
  rw [takeTripped_eq]
  rcases state with state | state <;> rw [state]

theorem takeTripped_rests_pump (state : (s.pump p).state = .float ∨ (s.pump p).state = .lockedOut) :
    (takeTripped s p d).pump p = { s.pump p with
      lastTrip := d.cause, lockout := if d.cause = .moisture then true else (s.pump p).lockout } := by
  rw [takeTripped_rests state]
  split
  · rw [State.pump_setPump, if_pos rfl, tripped_pump]
  · rw [tripped_pump]

/-- Settles O30. -/
theorem driveReportsConfirm : Obligations.DriveReportsConfirm := by
  intro src payload p d s live pump report
  let u := recordReport s p d
  have record : u.pump p = { s.pump p with
    drive := .known d s.now, lastReport := some d, statusAt := some (s.now + 15000) } := recordReport_pump
  have mask : dcMask u = dcMask s := rfl
  have kept : reported ((settle s (takeReport u p d)).pump p) = reported (u.pump p) :=
    settle_reported.trans takeReport_reported
  rw [record] at kept
  simp only [reported, Prod.mk.injEq] at kept
  refine ⟨_, exec_driveStat live pump report, kept.1, kept.2.1, kept.2.2, fun starting runs => ?start, fun stopping stops => ?stop,
    fun float => ?float⟩
  case start =>
    have state : (u.pump p).state = .starting := by rw [record]; exact starting
    have taken : takeReport u p d = confirmStart u p := by
      rw [takeReport_attended (by rw [state]; simp [Attended])]
      simp [runs, state]
    rw [taken]
    have after := confirmStart_pump (s := u) (p := p)
    have steady := settle_steady s (confirmStart u p) p
    have grown := settle_grows s (confirmStart u p)
    rw [after] at steady
    obtain ⟨transfers, surges, flows⟩ := noticed_raised (s := u) (p := p)
    have charge : (running u (u.pump p)).charge = transferred (s.pump p).charge := by rw [record]; rfl
    have spins : Spinning ((confirmStart u p).pump p) := .inl (by rw [after]; rfl)
    refine ⟨steady.attempts, settle_of_spinning spins, fun held => ⟨?_, grown.mem_raised (transfers (by rw [record]; exact held))⟩,
      fun w well => grown.mem_raised (surges w well), grown.mem_raised flows, fun quiet => ?_⟩
    · rw [steady.charge (by rw [charge, held]; simp [transferred]), charge, held]
      rfl
    · have same := (settle_quiet s (confirmStart u p) (quiet_of_dc (confirmStart_dc u p) quiet)).1 p
      rw [after] at same
      exact Prod.mk.inj (of_still (fun r => (r.state, r.runStart)) (fun _ => rfl) same)
  case stop =>
    have state : (u.pump p).state = .stopping := by rw [record]; exact stopping
    have taken : takeReport u p d = confirmStop u p := by
      rw [takeReport_attended (by rw [state]; simp [Attended])]
      simp [stops, state]
    rw [taken]
    obtain ⟨same, releases, surges⟩ := confirmStop_settle (b := s) (s := u) (p := p)
    have fields := of_still (fun r => (r.state, r.charge, r.owner, r.waitEnd)) (fun _ => rfl) same
    simp only [Prod.mk.injEq] at fields
    obtain ⟨st, charge, owner, wait⟩ := fields
    refine ⟨st, charge, ?_, wait, fun held => releases (by rw [record]; exact held), surges⟩
    rw [owner]
    exact (by decide : Owner.auto ≠ .manual)
  case float =>
    have state : (u.pump p).state = .float := by rw [record]; exact float
    rw [takeReport_float state]
    have stays : ((if d.state = .tripped then takeTripped u p d else u).pump p).state = .float := by
      split
      · rw [takeTripped_rests_pump (.inl state)]; exact state
      · exact state
    have held : Held (((if d.state = .tripped then takeTripped u p d else u).raise (.driveStatusReport p true)).pump p) :=
      .inr (by rw [pump_raise, stays]; simp)
    refine ⟨(of_still (·.state) (fun _ => rfl) (settle_held s _ p held)).trans stays, (settle_grows s _).mem_raised ?_⟩
    exact List.mem_append_right _ (.head _)

end Reported

end Sys2Proof.Machine
end


section
/-! PROOF. Trips, local control and silence (R60 to R62, R73 to R76, R78, R80). -/

namespace Sys2Proof.Machine

section Trips

variable {s t u a b : State} {p q : Pump} {w : Well} {d : DriveReport}

/-! ## A pump whose drive has tripped is not asked for (R53) -/

/-- A pump in OFF that is not eligible, its drive having tripped or its interlock being set. -/
def Unasked (r : PumpRecord) : Prop := r.state = .off ∧ (reportsTripped r = true ∨ r.interlock = true)

theorem mem_selected {demand : Nat} (member : p ∈ selected s w demand) : eligible s w p = true := by
  unfold selected at member
  dsimp only at member
  have fits {f : Pump → Bool} {l : List Pump} (h : p ∈ (l.filter fun p => isAuto s p && eligible s w p).filter f) :
      eligible s w p = true := by
    have given := List.mem_filter.mp (List.mem_filter.mp h).1
    exact (Bool.and_eq_true_iff.mp given.2).2
  rcases List.mem_append.mp member with runs | waits
  · exact fits (List.mem_of_mem_take runs)
  · rcases List.mem_append.mp (List.mem_of_mem_take waits) with h | h <;> exact fits h

/-- A selection leaves a pump in OFF that it does not choose. -/
theorem each_treat_off {chosen list : List Pump} (off : (s.pump p).state = .off) (unchosen : p ∉ chosen) :
    (State.each (treat chosen) list s).pump p = s.pump p := by
  induction list generalizing s with
  | nil => rfl
  | cons x xs ih =>
    have step : (treat chosen s x).pump p = s.pump p := by
      by_cases same : p = x
      · subst same
        unfold treat
        simp [off, unchosen]
      · exact treat_other chosen s same
    have later := ih (s := treat chosen s x) (by rw [step]; exact off)
    exact later.trans step

theorem Unasked.of_still {r r' : PumpRecord} (same : still r' = still r) (h : Unasked r) : Unasked r' := by
  have fields := Machine.of_still (fun r => (r.state, reportsTripped r, r.interlock)) (fun _ => rfl) same
  simp only [Prod.mk.injEq] at fields
  obtain ⟨state, trip, locked⟩ := fields
  unfold Unasked
  rwa [state, trip, locked]

theorem unasked_following (p : Pump) :
    Following fun s t => Unasked (s.pump p) → still (t.pump p) = still (s.pump p) where
  refl _ _ := rfl
  trans h k off := (k (off.of_still (h off))).trans (h off)
  once s w d h := by
    rcases evaluateOnce_cases s w d with same | ⟨n, demand, due, evaluated⟩
    · rw [same]
    · rw [evaluated]
      have unchosen : p ∉ selected (demanded s w n demand due) w demand := by
        intro member
        have fit := mem_selected member
        have barred : reportsTripped ((demanded s w n demand due).pump p) = true
            ∨ ((demanded s w n demand due).pump p).interlock = true := h.2
        rcases barred with trip | locked
        · simp [eligible, trip] at fit
        · simp [eligible, locked] at fit
      exact congrArg still (each_treat_off (s := demanded s w n demand due) h.1 unchosen)
  rotates s w _ := by
    unfold State.pump
    rw [rotateIfDue_pumps]
  judge s q _ := judgeDeadHead_still s q p
  tick s q x _ := by
    by_cases same : p = q
    · subst same
      rw [State.pump_setPump, if_pos rfl]
      rfl
    · rw [State.pump_setPump, if_neg same]
  raise _ _ _ := rfl

/-- A pump sent to OFF by a trip stays there. -/
theorem settle_unasked (off : (a.pump p).state = .off) (trip : reportsTripped (a.pump p) = true) :
    still ((settle b a).pump p) = still (a.pump p) := (unasked_following p).settle b a ⟨off, .inl trip⟩

/-- Where a pump of a tripped drive is found that was sent to OFF. -/
theorem enterOff_tripped (trip : reportsTripped (s.pump p) = true) : ((settle b (enterOff s p)).pump p).state =
    if (s.pump p).lockout = true then .lockedOut else if (s.pump p).disabled = true then .unavailable .disabled else .off := by
  obtain ⟨locked, disabled, -, -⟩ := offTo_settle (b := b) (a := enterOff s p) (s := s) (p := p) rfl (enterOff_dc s p)
  by_cases lock : (s.pump p).lockout = true
  · rw [if_pos lock, (locked lock).1]
  · rw [if_neg lock]
    have unlocked : (s.pump p).lockout = false := by simpa using lock
    by_cases off : (s.pump p).disabled = true
    · rw [if_pos off, (disabled unlocked off).1]
    · rw [if_neg off]
      have enabled : (s.pump p).disabled = false := by simpa using off
      have state : ((enterOff s p).pump p).state = .off := by
        rw [enterOff_pump, unlocked, enabled]
        rfl
      have stays := settle_unasked (b := b) state (by rw [enterOff_pump]; exact trip)
      exact (of_still (·.state) (fun _ => rfl) stays).trans state

/-! ## The cause of a trip -/

theorem takeTripped_lastTrip : ((takeTripped s p d).pump p).lastTrip = d.cause := by
  have trip : ((tripped s p d).pump p).lastTrip = d.cause := by rw [tripped_pump]
  have attempt {t : State} : ((buildCommand (afterAttempt t p) p true).pump p).lastTrip = (t.pump p).lastTrip :=
    (of_bare (·.lastTrip) (fun _ => rfl) (buildCommand_bare true)).trans (afterAttempt_attempted t p).1.lastTrip
  rw [takeTripped_eq]
  split
  · split
    · exact trip
    · rw [State.pump_setPump, if_pos rfl]; exact trip
    · rw [State.pump_setPump, if_pos rfl]; exact trip
    · rw [State.pump_setPump, if_pos rfl]; exact trip
    · rw [State.pump_setPump, if_pos rfl]; exact trip
    · rw [lockMoist_eq, lockOut_pump, quitted_pump]
      split <;> exact trip
  · split
    · rw [failStart_eq, attempt, startFailed_pump]; exact trip
    · obtain ⟨es, noted, -⟩ := tripNoted_eq (tripped s p d) p d.cause
      rw [tripRunning_eq, attempt, noted, pump_raiseAll, State.pump_setPump, if_pos rfl]
      exact trip
    · rw [confirmStop_pump]; exact trip
    · rw [enterOff_pump]; exact trip
    · exact trip

theorem returnTripped_pump : (returnTripped s p d).pump p = { s.pump p with
    lastTrip := d.cause, lockout := (s.pump p).lockout || d.cause == .moisture } := by
  unfold returnTripped
  rw [State.pump_setPump, if_pos rfl]

theorem takeReport_lastTrip (fitted : (s.pump p).state ≠ .unavailable .notFitted) (trips : d.state = .tripped) :
    ((takeReport s p d).pump p).lastTrip = d.cause := by
  by_cases float : (s.pump p).state = .float
  · rw [takeReport_float float, pump_raise, if_pos trips]
    exact takeTripped_lastTrip
  by_cases away : (s.pump p).state = .unavailable .localHand ∨ (s.pump p).state = .unavailable .noStatus
  · rw [takeReport_away away, if_neg (by rw [trips]; simp), leaveLocal_eq, if_pos trips, enterOff_pump, releaseCharge_pump,
      returnTripped_pump]
    rfl
  · rw [takeReport_attended ⟨float, fitted, fun h => away (.inl h), fun h => away (.inr h)⟩, if_neg (by rw [trips]; simp),
      if_pos trips]
    exact takeTripped_lastTrip

/-! ## A trip by the state of the pump -/

/-- A trip while running, and what follows (R78). -/
theorem tripRunning_settle {cause : TripCause} (trip : (s.pump p).lastTrip = cause) :
    AttemptFailed s (settle b (tripRunning s p cause)) p 1 cause
    ∧ ((settle b (tripRunning s p cause)).pump p).charge = .none
    ∧ .recordSubmission (.pumpTripRetry p cause) ∈ (settle b (tripRunning s p cause)).raised
    ∧ .pumpFlowNotice p none ∈ (settle b (tripRunning s p cause)).raised
    ∧ (∀ w, s.wellOf p = some w → .surgeNotice w ∈ (settle b (tripRunning s p cause)).raised)
    ∧ ((s.pump p).charge ≠ .none → .chargeRelease (.pump p) ∈ (settle b (tripRunning s p cause)).raised) := by
  rw [tripRunning_eq]
  obtain ⟨es, noted, submitted, flows, surges, releases⟩ := tripNoted_eq s p cause
  have record : (tripNoted s p cause).pump p = { s.pump p with charge := .none, attempts := 1 } := by
    rw [noted, pump_raiseAll, State.pump_setPump, if_pos rfl]
  obtain ⟨-, charge, -, raised⟩ := failed_keeps (b := b) (tripNoted s p cause) p
  have among {e : Instr} (member : e ∈ es) : e ∈ (tripNoted s p cause).raised := by
    rw [noted]
    exact List.mem_append_right _ member
  refine ⟨attemptFailed_settle ?_ ?_ ?_ ?_ ?_ ?_, ?_, raised _ (among submitted), raised _ (among flows),
    fun w well => raised _ (among (surges w well)), fun held => raised _ (among (releases held))⟩
  · rw [noted]; rfl
  · rw [noted]; rfl
  · rw [noted]; rfl
  · rw [record]
  · rw [record]
  · rw [record]; exact trip
  · rw [charge, record]

/-- A failed attempt is one of the same record, wherever the report and the cause of the trip stand beside it. -/
theorem AttemptFailed.of_same {cause : TripCause} {n : Nat} (h : AttemptFailed u t p n cause) (mask : dcMask u = dcMask s)
    (lp : u.lp = s.lp) (backoff : u.duty.backoff = s.duty.backoff) (count : (u.pump p).count = (s.pump p).count) :
    AttemptFailed s t p n cause := by
  have setup := setup_of_dc mask
  have now := now_of_dc mask
  have drive : driveOf u p = driveOf s p := by unfold driveOf; rw [setup]
  unfold AttemptFailed at h ⊢
  rwa [setup, now, drive, lp, backoff, count] at h

/-! ## The reports that interrupt a pump -/

/-- The part as a report finds it recorded, against the part before it. -/
structure Heard (s u : State) (p : Pump) (d : DriveReport) : Prop where
  record : u.pump p = { s.pump p with drive := .known d s.now, lastReport := some d, statusAt := some (s.now + 15000) }
  mask : dcMask u = dcMask s
  lp : u.lp = s.lp
  duty : u.duty = s.duty

theorem recordReport_heard : Heard s (recordReport s p d) p d := ⟨recordReport_pump, rfl, rfl, rfl⟩

theorem Heard.state (h : Heard s u p d) : (u.pump p).state = (s.pump p).state := by rw [h.record]
theorem Heard.charge (h : Heard s u p d) : (u.pump p).charge = (s.pump p).charge := by rw [h.record]

theorem Heard.wellOf (h : Heard s u p d) : u.wellOf p = s.wellOf p := by
  unfold State.wellOf
  rw [setup_of_dc h.mask]

/-- A LOCAL report (R60). -/
theorem local_interrupts (h : Heard s u p d) (hand : d.state = .localHand) (float : (s.pump p).state ≠ .float)
    (fitted : (s.pump p).state ≠ .unavailable .notFitted) (t : State) (after : t = settle s (takeReport u p d)) :
    (t.pump p).state = .unavailable .localHand ∧ (t.pump p).owner = .auto
    ∧ ((s.pump p).state = .starting → (s.pump p).charge = .start → .grantReturn (.pump p) ∈ t.raised)
    ∧ ((s.pump p).state = .startWait → .requestWithdrawal (.pump p) ∈ t.raised)
    ∧ (d.floatRunning = false → (s.pump p).charge = .running →
        (t.pump p).charge = .none ∧ .chargeRelease (.pump p) ∈ t.raised)
    ∧ (d.floatRunning = true → (s.pump p).charge = .running →
        (t.pump p).charge = .external ∧ .externalCharge p true ∈ t.raised)
    ∧ (d.floatRunning = true → (s.pump p).charge = .none →
        (t.pump p).charge = .external ∧ .externalCharge p false ∈ t.raised) := by
  have taken : takeReport u p d = takeLocal u p d := by
    rw [← h.state] at float fitted
    by_cases away : (u.pump p).state = .unavailable .localHand ∨ (u.pump p).state = .unavailable .noStatus
    · rw [takeReport_away away, if_pos hand]
    · rw [takeReport_attended ⟨float, fitted, fun x => away (.inl x), fun x => away (.inr x)⟩, if_pos hand]
  rw [taken] at after
  subst after
  have fields := of_still (fun r => (r.state, r.owner, r.charge)) (fun _ => rfl) (takeLocal_settle (b := s) (s := u) (p := p) (d := d))
  simp only [Prod.mk.injEq] at fields
  obtain ⟨state, owner, charge⟩ := fields
  have charge : ((settle s (takeLocal u p d)).pump p).charge = localCharge d (handedCharge (u.pump p)) := charge
  obtain ⟨kept, releases, externals⟩ := takeLocal_raised (s := u) (p := p) (d := d)
  obtain ⟨withdrawn, returns⟩ := handed_raised (s := u) (p := p)
  have grown {e : Instr} (member : e ∈ (takeLocal u p d).raised) : e ∈ (settle s (takeLocal u p d)).raised :=
    (settle_grows s _).mem_raised member
  have passed {c : ChargeKind} (held : (s.pump p).charge = c) (other : c ≠ .start) : handedCharge (u.pump p) = c := by
    unfold handedCharge returned
    rw [h.charge, held, if_neg other]
    split <;> rfl
  refine ⟨state, owner, fun starting held => grown (kept _ (returns (h.state.trans starting) (h.charge.trans held))),
    fun waits => grown (kept _ (withdrawn (h.state.trans waits))), fun still held => ?_, fun turns held => ?_, fun turns held => ?_⟩
  · have c := passed held (by simp)
    refine ⟨by rw [charge, c]; simp [localCharge, still], grown (releases still (by rw [c]; simp))⟩
  · have c := passed held (by simp)
    exact ⟨by rw [charge, c]; simp [localCharge, outside, turns], grown (externals .running (.inr rfl) turns c)⟩
  · have c := passed held (by simp)
    exact ⟨by rw [charge, c]; simp [localCharge, outside, turns], grown (externals .none (.inl rfl) turns c)⟩

/-- A report of a trip, in a state that is neither FLOAT nor a return. -/
theorem takeReport_tripped (h : Heard s u p d) (trips : d.state = .tripped) (state : Attended (s.pump p).state) :
    takeReport u p d = takeTripped u p d := by
  rw [takeReport_attended (by rw [h.state]; exact state), if_neg (by rw [trips]; simp), if_pos trips]

theorem tripped_heard (h : Heard s u p d) : (tripped u p d).lp = s.lp ∧ dcMask (tripped u p d) = dcMask s
    ∧ (tripped u p d).duty = s.duty := ⟨h.lp, h.mask, h.duty⟩

theorem reportsTripped_heard (h : Heard s u p d) (trips : d.state = .tripped) : reportsTripped (u.pump p) = true := by
  unfold reportsTripped
  rw [h.record]
  simp [trips]

/-- A trip other than by moisture (R62). -/
theorem trip_interrupts (h : Heard s u p d) (trips : d.state = .tripped) (dry : d.cause ≠ .moisture) (t : State)
    (after : t = settle s (takeReport u p d)) :
    ((s.pump p).state = .running → (t.pump p).charge = .none
      ∧ .recordSubmission (.pumpTripRetry p d.cause) ∈ t.raised ∧ .pumpFlowNotice p none ∈ t.raised
      ∧ (∀ w, s.wellOf p = some w → .surgeNotice w ∈ t.raised)
      ∧ ((s.pump p).charge ≠ .none → .chargeRelease (.pump p) ∈ t.raised)
      ∧ AttemptFailed s t p 1 d.cause)
    ∧ ((s.pump p).state = .starting →
      ((s.pump p).charge = .start → (t.pump p).charge = .none ∧ .grantReturn (.pump p) ∈ t.raised)
      ∧ AttemptFailed s t p (satInc 15 (s.pump p).attempts) d.cause)
    ∧ ((s.pump p).state = .stopping → (t.pump p).state = .resting ∧ (t.pump p).charge = .none
      ∧ (t.pump p).stopAt = none ∧ (t.pump p).stopFailed = false ∧ (t.pump p).attempts = (s.pump p).attempts
      ∧ (t.pump p).waitEnd = some (s.now + (s.setup.minRest.get p).toNat * 1000)
      ∧ ((s.pump p).charge ≠ .none → .chargeRelease (.pump p) ∈ t.raised)
      ∧ (∀ w, s.wellOf p = some w → .surgeNotice w ∈ t.raised))
    ∧ ((s.pump p).state = .startWait → .requestWithdrawal (.pump p) ∈ t.raised
      ∧ (t.pump p).state = (if (s.pump p).lockout = true then .lockedOut
        else if (s.pump p).disabled = true then .unavailable .disabled else .off)) := by
  have record : (tripped u p d).pump p = { u.pump p with lastTrip := d.cause } := tripped_pump
  have well : (tripped u p d).wellOf p = s.wellOf p := h.wellOf
  have mask : dcMask (tripped u p d) = dcMask s := h.mask
  have duty : (tripped u p d).duty = s.duty := h.duty
  have charge : ((tripped u p d).pump p).charge = (s.pump p).charge := by rw [record]; exact h.charge
  have attempts : ((tripped u p d).pump p).attempts = (s.pump p).attempts := by rw [record, h.record]
  have count : ((tripped u p d).pump p).count = (s.pump p).count := by rw [record, h.record]
  have lastTrip : ((tripped u p d).pump p).lastTrip = d.cause := by rw [record]
  have same {n : Nat} (failed : AttemptFailed (tripped u p d) t p n d.cause) : AttemptFailed s t p n d.cause :=
    failed.of_same mask h.lp (by rw [duty]) count
  have taken (state : Attended (s.pump p).state) : t = settle s (takeTripped u p d) := by
    rw [after, takeReport_tripped h trips state]
  refine ⟨fun state => ?_, fun state => ?_, fun state => ?_, fun state => ?_⟩
  · have taken := taken (by rw [state]; simp [Attended])
    rw [takeTripped_eq, if_neg dry, h.state, state] at taken
    subst taken
    obtain ⟨failed, free, submitted, flows, surges, releases⟩ := tripRunning_settle (b := s) lastTrip
    exact ⟨free, submitted, flows, fun w is => surges w (well.trans is), fun held => releases (by rw [charge]; exact held), same failed⟩
  · have taken := taken (by rw [state]; simp [Attended])
    rw [takeTripped_eq, if_neg dry, h.state, state] at taken
    subst taken
    obtain ⟨failed, returns⟩ := failStart_settle (b := s) lastTrip
    rw [attempts] at failed
    exact ⟨fun held => returns (charge.trans held), same failed⟩
  · have taken := taken (by rw [state]; simp [Attended])
    rw [takeTripped_eq, if_neg dry, h.state, state] at taken
    subst taken
    obtain ⟨rests, releases, surges⟩ := confirmStop_settle (b := s) (s := tripped u p d) (p := p)
    have fields := of_still (fun r => (r.state, r.charge, r.stopAt, r.stopFailed, r.attempts, r.waitEnd)) (fun _ => rfl) rests
    simp only [Prod.mk.injEq] at fields
    obtain ⟨st, free, stop, failed, tries, wait⟩ := fields
    refine ⟨st, free, stop, failed, tries.trans attempts, wait.trans ?_, fun held => releases (by rw [charge]; exact held),
      fun w is => surges w (well.trans is)⟩
    show some ((tripped u p d).now + ((tripped u p d).setup.minRest.get p).toNat * 1000) = _
    rw [now_of_dc mask, setup_of_dc mask]
  · have taken := taken (by rw [state]; simp [Attended])
    rw [takeTripped_eq, if_neg dry, h.state, state] at taken
    subst taken
    have withdrawn : .requestWithdrawal (.pump p) ∈ (enterOff (withdraw (tripped u p d) p) p).raised :=
      List.mem_append_right _ (.head _)
    refine ⟨(settle_grows s _).mem_raised withdrawn, ?_⟩
    have trip : reportsTripped ((withdraw (tripped u p d) p).pump p) = true := by
      show reportsTripped ((tripped u p d).pump p) = true
      rw [record]
      exact reportsTripped_heard h trips
    rw [enterOff_tripped trip]
    show (if ((tripped u p d).pump p).lockout = true then _ else if ((tripped u p d).pump p).disabled = true then _ else _) = _
    rw [record, h.record]

/-- Where a trip is no more than a record. -/
theorem trip_rests (h : Heard s u p d) (trips : d.state = .tripped) (dry : d.cause ≠ .moisture)
    (calm : (s.pump p).state ≠ .running ∧ (s.pump p).state ≠ .starting ∧ (s.pump p).state ≠ .stopping
      ∧ (s.pump p).state ≠ .startWait) (hand : (s.pump p).state ≠ .unavailable .localHand)
    (silent : (s.pump p).state ≠ .unavailable .noStatus) :
    ∃ trip, still ((settle s (takeReport u p d)).pump p) = still { u.pump p with lastTrip := trip } := by
  have other : takeTripped u p d = tripped u p d := by
    obtain ⟨runs, starts, stops, waits⟩ := calm
    rw [takeTripped_eq, if_neg dry, h.state]
    split
    · next x => exact absurd x starts
    · next x => exact absurd x runs
    · next x => exact absurd x stops
    · next x => exact absurd x waits
    · rfl
  have record : ∃ trip, (takeReport u p d).pump p = { u.pump p with lastTrip := trip } := by
    by_cases float : (s.pump p).state = .float
    · rw [takeReport_float (h.state.trans float), pump_raise, if_pos trips, other, tripped_pump]
      exact ⟨_, rfl⟩
    by_cases fitted : (s.pump p).state = .unavailable .notFitted
    · rw [takeReport_notFitted (h.state.trans fitted)]
      exact ⟨_, rfl⟩
    · rw [takeReport_tripped h trips ⟨float, fitted, hand, silent⟩, other, tripped_pump]
      exact ⟨_, rfl⟩
  obtain ⟨trip, record⟩ := record
  refine ⟨trip, ?_⟩
  have state : ((takeReport u p d).pump p).state = (s.pump p).state := by rw [record]; exact h.state
  by_cases off : (s.pump p).state = .off
  · rw [settle_unasked (state.trans off) (by rw [record]; exact reportsTripped_heard h trips), record]
  · have held : Held ((takeReport u p d).pump p) := .inr (by rw [state]; exact ⟨off, calm.2.2.2, calm.1⟩)
    rw [settle_held s _ p held, record]

/-- A moisture trip holds the lockout (R62). -/
theorem takeReport_moist (trips : d.state = .tripped) (wet : d.cause = .moisture)
    (fitted : (s.pump p).state ≠ .unavailable .notFitted) : ((takeReport s p d).pump p).lockout = true := by
  have locks : ((takeTripped s p d).pump p).lockout = true := by
    rw [takeTripped_eq, if_pos wet]
    split
    · next x => exact absurd x fitted
    · rw [State.pump_setPump, if_pos rfl]
    · rw [State.pump_setPump, if_pos rfl]
    · rw [State.pump_setPump, if_pos rfl]
    · rw [State.pump_setPump, if_pos rfl]
    · rw [lockMoist_eq, lockOut_pump]
  by_cases float : (s.pump p).state = .float
  · rw [takeReport_float float, pump_raise, if_pos trips]
    exact locks
  by_cases away : (s.pump p).state = .unavailable .localHand ∨ (s.pump p).state = .unavailable .noStatus
  · rw [takeReport_away away, if_neg (by rw [trips]; simp), leaveLocal_eq, if_pos trips, enterOff_pump, releaseCharge_pump,
      returnTripped_pump]
    show ((s.pump p).lockout || d.cause == .moisture) = true
    simp [wet]
  · rw [takeReport_attended ⟨float, fitted, fun x => away (.inl x), fun x => away (.inr x)⟩, if_neg (by rw [trips]; simp),
      if_pos trips]
    exact locks

/-- A moisture trip where the pump stays. -/
theorem moist_rests (h : Heard s u p d) (trips : d.state = .tripped) (wet : d.cause = .moisture)
    (rests : (s.pump p).state = .float ∨ (s.pump p).state = .lockedOut ∨ (s.pump p).state = .unavailable .notFitted) :
    ((settle s (takeReport u p d)).pump p).state = (s.pump p).state
    ∧ ((settle s (takeReport u p d)).pump p).charge = (s.pump p).charge := by
  have record : ((takeReport u p d).pump p).state = (s.pump p).state ∧ ((takeReport u p d).pump p).charge = (s.pump p).charge := by
    rcases rests with float | locked | unfitted
    · rw [takeReport_float (h.state.trans float), pump_raise, if_pos trips, takeTripped_rests_pump (.inl (h.state.trans float))]
      exact ⟨h.state, h.charge⟩
    · rw [takeReport_tripped h trips (by rw [locked]; simp [Attended]), takeTripped_rests_pump (.inr (h.state.trans locked))]
      exact ⟨h.state, h.charge⟩
    · rw [takeReport_notFitted (h.state.trans unfitted)]
      exact ⟨h.state, h.charge⟩
  have held : Held ((takeReport u p d).pump p) := .inr (by
    rw [record.1]
    rcases rests with x | x | x <;> rw [x] <;> simp)
  obtain ⟨state, charge⟩ := Prod.mk.inj (of_still (fun r => (r.state, r.charge)) (fun _ => rfl) (settle_held s _ p held))
  exact ⟨state.trans record.1, charge.trans record.2⟩

/-- A moisture trip that locks a pump out. -/
theorem moist_interrupts (h : Heard s u p d) (trips : d.state = .tripped) (wet : d.cause = .moisture)
    (attended : Attended (s.pump p).state) (free : (s.pump p).state ≠ .lockedOut) (t : State)
    (after : t = settle s (takeReport u p d)) :
    (t.pump p).state = .lockedOut ∧ (t.pump p).owner = .auto ∧ (t.pump p).waitEnd = none
    ∧ .recordSubmission (.pumpLockout p .moisture) ∈ t.raised
    ∧ ((s.pump p).state = .startWait → .requestWithdrawal (.pump p) ∈ t.raised)
    ∧ ((s.pump p).state ≠ .startWait → (t.pump p).charge = .none
      ∧ ((s.pump p).charge ≠ .none → .chargeRelease (.pump p) ∈ t.raised))
    ∧ (∀ w, (s.pump p).state = .running → s.wellOf p = some w → .surgeNotice w ∈ t.raised) := by
  have locks : takeTripped u p d = lockMoist (tripped u p d) p := by
    obtain ⟨float, fitted, hand, silent⟩ := attended
    rw [takeTripped_eq, if_pos wet, h.state]
    split
    · next x => exact absurd x fitted
    · next x => exact absurd x float
    · next x => exact absurd x free
    · next x => exact absurd x hand
    · next x => exact absurd x silent
    · rfl
  rw [takeReport_tripped h trips attended, locks] at after
  subst after
  have record : (tripped u p d).pump p = { u.pump p with lastTrip := d.cause } := tripped_pump
  have state : ((tripped u p d).pump p).state = (s.pump p).state := by rw [record]; exact h.state
  have charge : ((tripped u p d).pump p).charge = (s.pump p).charge := by rw [record]; exact h.charge
  have trip : ((tripped u p d).pump p).lastTrip = .moisture := by rw [record]; exact wet
  have well : (tripped u p d).wellOf p = s.wellOf p := h.wellOf
  obtain ⟨same, kept, submitted⟩ := lockMoist_settle (b := s) (s := tripped u p d) (p := p)
  obtain ⟨withdrawn, releases, surges⟩ := quitted_raised (s := tripped u p d) (p := p)
  rw [trip] at submitted
  have fields := of_still (fun r => (r.state, r.owner, r.waitEnd, r.charge)) (fun _ => rfl) same
  simp only [Prod.mk.injEq] at fields
  obtain ⟨st, owner, wait, held⟩ := fields
  refine ⟨st, owner, wait, submitted, fun waits => kept _ (withdrawn (state.trans waits)), fun other => ⟨held.trans ?_,
    fun charged => kept _ (releases (by rw [state]; exact other) (by rw [charge]; exact charged))⟩,
    fun w runs is => kept _ (surges w (state.trans runs) (well.trans is))⟩
  show ((quitted (tripped u p d) p).pump p).charge = .none
  rw [quitted_pump, if_neg (by rw [state]; exact other)]
  rfl

/-- Settles O31. -/
theorem driveReportsInterrupt : Obligations.DriveReportsInterrupt := by
  intro src payload p d s live pump report
  have h : Heard s (recordReport s p d) p d := recordReport_heard
  refine ⟨_, exec_driveStat live pump report, fun hand float fitted => local_interrupts h hand float fitted _ rfl,
    fun trips fitted => ?_, fun trips dry => ?_, fun trips wet => ⟨fun fitted => ?_, moist_rests h trips wet, ?_⟩⟩
  · rw [(settle_steady s _ p).lastTrip]
    exact takeReport_lastTrip (by rw [h.state]; exact fitted) trips
  · obtain ⟨runs, starts, stops, waits⟩ := trip_interrupts h trips dry _ rfl
    refine ⟨runs, starts, stops, waits, fun a b c e hand silent => ?_⟩
    obtain ⟨trip, same⟩ := trip_rests h trips dry ⟨a, b, c, e⟩ hand silent
    have fields := of_still (fun r => (r.state, r.charge, r.waitEnd, r.attempts)) (fun _ => rfl) same
    simp only [Prod.mk.injEq] at fields
    rw [h.record] at fields
    exact fields
  · rw [(settle_steady s _ p).lockout]
    exact takeReport_moist trips wet (by rw [h.state]; exact fitted)
  · exact fun float free fitted hand silent => moist_interrupts h trips wet ⟨float, fitted, hand, silent⟩ free _ rfl

end Trips

end Sys2Proof.Machine
end


section
/-! PROOF. Drives that fall silent, and pumps that leave local control and silence (R60, R61). -/

namespace Sys2Proof.Machine

section Silence

variable {s t u a b : State} {p q : Pump} {w : Well} {d : DriveReport}

/-! ## Silence (R61) -/

/-- The state in which a pump whose drive has fallen silent has given up what it asked for. -/
def silenced (s : State) (p : Pump) : State :=
  match (s.pump p).state with
  | .startWait => withdraw s p
  | .starting => returnCharge s p
  | _ => if (s.pump p).charge = .running then chargeExternal s p else s

/-- The charge that a silent pump is left with. -/
def silentCharge (r : PumpRecord) : ChargeKind :=
  if r.state = .startWait then r.charge
  else if r.state = .starting then returned r.charge
  else if r.charge = .running then .external else r.charge

theorem silenced_pump : (silenced s p).pump p = withCharge (s.pump p) (silentCharge (s.pump p)) := by
  unfold silenced silentCharge
  split
  · next h => rw [if_pos h]; rfl
  · next h => rw [if_neg (by simp [h]), if_pos h, returnCharge_pump]
  · next waits starts =>
    rw [if_neg waits, if_neg starts]
    split
    · next runs =>
      rw [chargeExternal_eq, pump_raiseIf, State.pump_setPump, if_pos rfl, runs]
      rfl
    · rfl

theorem silenced_dc : dcMask (silenced s p) = dcMask s := by
  unfold silenced
  split
  · rfl
  · exact returnCharge_dc s p
  · split
    · exact chargeExternal_dc s p
    · rfl

theorem silenced_raised : ((s.pump p).state = .startWait → .requestWithdrawal (.pump p) ∈ (silenced s p).raised)
    ∧ ((s.pump p).state = .starting → (s.pump p).charge = .start → .grantReturn (.pump p) ∈ (silenced s p).raised)
    ∧ ((s.pump p).state = .running → (s.pump p).charge = .running → .externalCharge p true ∈ (silenced s p).raised) := by
  unfold silenced
  refine ⟨fun waits => ?_, fun starting held => ?_, fun runs held => ?_⟩
  · simp [waits, withdraw]
  · simp [starting, returnCharge_eq, held]
  · simp [runs, held, chargeExternal_eq]

/-- The state in which a silent pump's STOP, if any, is offered. -/
def silent (s : State) (p : Pump) (wasRunning : Bool) : State :=
  let s := enter (silenced s p) p (.unavailable .noStatus)
  s.setPump p { s.pump p with silentRunning := wasRunning }

theorem fallSilent_eq (s : State) (p : Pump) (wasRunning : Bool) : fallSilent s p wasRunning =
    if startingOrRunning (s.pump p).state || (s.pump p).state == .stopping then buildCommand (silent s p wasRunning) p true
    else silent s p wasRunning := rfl

/-- The record of a silent pump. -/
def silentRecord (s : State) (r : PumpRecord) (wasRunning : Bool) : PumpRecord :=
  { inState s (withCharge r (silentCharge r)) (.unavailable .noStatus) with silentRunning := wasRunning }

theorem silent_pump (wasRunning : Bool) : (silent s p wasRunning).pump p = silentRecord s (s.pump p) wasRunning := by
  unfold silent
  simp only [State.pump_setPump, if_true, enter_pump]
  rw [inState_congr silenced_dc, silenced_pump]
  rfl

theorem fallSilent_bare (wasRunning : Bool) :
    bare ((fallSilent s p wasRunning).pump p) = bare (silentRecord s (s.pump p) wasRunning) := by
  rw [fallSilent_eq, ← silent_pump]
  split
  · exact buildCommand_bare true
  · rfl

theorem fallSilent_raised (wasRunning : Bool) : ∀ e ∈ (silenced s p).raised, e ∈ (fallSilent s p wasRunning).raised := by
  rw [fallSilent_eq]
  intro e member
  split
  · exact (buildCommand_grows _ p true).mem_raised member
  · exact member

/-- The state in which a drive's status has become unknown. -/
def unheard (s : State) (p : Pump) : State := s.setPump p { s.pump p with drive := .unknown, statusAt := none }

theorem unheard_pump : (unheard s p).pump p = { s.pump p with drive := .unknown, statusAt := none } := by
  unfold unheard
  rw [State.pump_setPump, if_pos rfl]

/-- What a silent drive brings, by the state of its pump. -/
def takeSilence (s : State) (p : Pump) (wasRunning : Bool) : State :=
  match (s.pump p).state with
  | .float => s.raise (.driveStatusReport p false)
  | .unavailable .notFitted => s
  | _ => fallSilent s p wasRunning

theorem exec_statusDeadline (live : s.live = true) (now : due (s.pump p).statusAt s.now = true) :
    exec (.statusDeadlineExpiry p) s = .next (settle s (takeSilence (unheard s p) p (countsRunning (s.pump p)))) :=
  whenDueDc_next live now

/-- A drive that falls silent. -/
theorem falls_silent (t : State) (after : t = settle s (takeSilence (unheard s p) p (countsRunning (s.pump p)))) :
    (t.pump p).drive = .unknown ∧ (t.pump p).statusAt = none ∧ (t.pump p).lastReport = (s.pump p).lastReport
      ∧ ((s.pump p).state = .float → (t.pump p).state = .float ∧ .driveStatusReport p false ∈ t.raised)
      ∧ ((s.pump p).state ≠ .float → (s.pump p).state ≠ .unavailable .notFitted →
          (t.pump p).state = .unavailable .noStatus)
      ∧ ((s.pump p).state = .startWait → .requestWithdrawal (.pump p) ∈ t.raised)
      ∧ ((s.pump p).state = .starting → (s.pump p).charge = .start →
          (t.pump p).charge = .none ∧ .grantReturn (.pump p) ∈ t.raised)
      ∧ ((s.pump p).state = .running → (s.pump p).charge = .running →
          (t.pump p).charge = .external ∧ .externalCharge p true ∈ t.raised) := by
  have record : (unheard s p).pump p = { s.pump p with drive := .unknown, statusAt := none } := unheard_pump
  have state : ((unheard s p).pump p).state = (s.pump p).state := by rw [record]
  have charge : ((unheard s p).pump p).charge = (s.pump p).charge := by rw [record]
  generalize unheard s p = u at *
  generalize countsRunning (s.pump p) = was at after
  have falls (float : (s.pump p).state ≠ .float) (fitted : (s.pump p).state ≠ .unavailable .notFitted) :
      takeSilence u p was = fallSilent u p was := by
    unfold takeSilence
    split
    · next h => exact absurd (state.symm.trans h) float
    · next h => exact absurd (state.symm.trans h) fitted
    · rfl
  have kept : reported (t.pump p) = reported (u.pump p) := by
    rw [after]
    refine settle_reported.trans ?_
    unfold takeSilence
    split
    · rfl
    · rfl
    · exact (of_bare reported (fun _ => rfl) (fallSilent_bare was)).trans rfl
  rw [record] at kept
  simp only [reported, Prod.mk.injEq] at kept
  have settled (float : (s.pump p).state ≠ .float) (fitted : (s.pump p).state ≠ .unavailable .notFitted) :
      (t.pump p).state = .unavailable .noStatus ∧ (t.pump p).charge = silentCharge (u.pump p)
      ∧ ∀ e ∈ (silenced u p).raised, e ∈ t.raised := by
    rw [falls float fitted] at after
    have held : Held ((fallSilent u p was).pump p) := .of_bare (fallSilent_bare was) (.inr (by simp [silentRecord]))
    have fields := of_bare (fun r => (r.state, r.charge)) (fun _ => rfl) ((settle_of_held (b := s) held).trans (fallSilent_bare was))
    subst after
    exact ⟨congrArg Prod.fst fields, congrArg Prod.snd fields, fun e member =>
      (settle_grows s _).mem_raised (fallSilent_raised was e member)⟩
  obtain ⟨withdrawn, returns, externals⟩ := silenced_raised (s := u) (p := p)
  refine ⟨kept.1, kept.2.2, kept.2.1, fun float => ?_, fun float fitted => (settled float fitted).1, fun waits => ?_,
    fun starting held => ?_, fun runs held => ?_⟩
  · have stays : takeSilence u p was = u.raise (.driveStatusReport p false) := by
      unfold takeSilence
      rw [state, float]
    have held : Held ((u.raise (.driveStatusReport p false)).pump p) := .inr (by rw [pump_raise, state, float]; simp)
    rw [stays] at after
    subst after
    exact ⟨(of_still (·.state) (fun _ => rfl) (settle_held s _ p held)).trans (state.trans float),
      (settle_grows s _).mem_raised (List.mem_append_right _ (.head _))⟩
  · exact (settled (by rw [waits]; simp) (by rw [waits]; simp)).2.2 _ (withdrawn (state.trans waits))
  · obtain ⟨-, left, raised⟩ := settled (by rw [starting]; simp) (by rw [starting]; simp)
    refine ⟨left.trans ?_, raised _ (returns (state.trans starting) (charge.trans held))⟩
    simp [silentCharge, state, starting, charge, held, returned]
  · obtain ⟨-, left, raised⟩ := settled (by rw [runs]; simp) (by rw [runs]; simp)
    refine ⟨left.trans ?_, raised _ (externals (state.trans runs) (charge.trans held))⟩
    simp [silentCharge, state, runs, charge, held]

/-! ## The return (R60, R61) -/

theorem turning_iff (away : d.state ≠ .localHand) :
    turning d = true ↔ d.state = .running ∨ d.state = .starting ∨ d.state = .float ∧ d.floatRunning = true := by
  unfold turning
  cases h : d.state <;> simp_all

theorem not_turning_of (rests : d.state = .stopped ∨ d.state = .tripped ∨ d.state = .float ∧ d.floatRunning = false) :
    turning d = false := by
  unfold turning
  rcases rests with h | h | ⟨h, still⟩
  · rw [h]
  · rw [h]
  · rw [h]; exact still

/-- The state in which a report that shows no turning motor has been recorded, a trip with its cause. -/
def returning (s : State) (p : Pump) (d : DriveReport) : State := if d.state = .tripped then returnTripped s p d else s

theorem returning_pump : (returning s p d).pump p = { s.pump p with
    lastTrip := if d.state = .tripped then d.cause else (s.pump p).lastTrip
    lockout := (s.pump p).lockout || d.state == .tripped && d.cause == .moisture } := by
  unfold returning
  split
  · next trips =>
    rw [returnTripped_pump, trips]
    rfl
  · next other =>
    have no : (d.state == .tripped) = false := by simpa using other
    rw [no, Bool.false_and, Bool.or_false]

theorem leaveLocal_turning (turns : turning d = true) : leaveLocal s p d = stopPump s p true := by
  have other : d.state ≠ .tripped := by
    intro trips
    rw [not_turning_of (.inr (.inl trips))] at turns
    cases turns
  rw [leaveLocal_eq, if_neg other, if_pos turns]

theorem leaveLocal_still (still : turning d = false) :
    leaveLocal s p d = enterOff (releaseCharge (returning s p d) p) p := by
  rw [leaveLocal_eq]
  unfold returning
  split
  · rfl
  · rw [if_neg (by simp [still])]

/-- What a report that shows no turning motor leaves of a pump in local control or silence. -/
structure Returns (s t : State) (p : Pump) (d : DriveReport) : Prop where
  charge : (t.pump p).charge = .none
  releases : (s.pump p).charge ≠ .none → .chargeRelease (.pump p) ∈ t.raised
  lockout : (t.pump p).lockout = true ↔ (s.pump p).lockout = true ∨ d.state = .tripped ∧ d.cause = .moisture
  locked : (t.pump p).lockout = true → (t.pump p).state = .lockedOut
  disabled : (t.pump p).lockout = false → (s.pump p).disabled = true → (t.pump p).state = .unavailable .disabled
  free : (t.pump p).lockout = false → (s.pump p).disabled = false → (t.pump p).state = .off ∨ (t.pump p).state = .startWait
  quiet : (t.pump p).lockout = false → (s.pump p).disabled = false → Quiet s → (t.pump p).state = .off
  trips : d.state = .tripped → (t.pump p).lastTrip = d.cause
  tripped : reportsTripped (s.pump p) = true → (t.pump p).lockout = false → (s.pump p).disabled = false →
    (t.pump p).state = .off

theorem leaveLocal_returns (still : turning d = false) : Returns s (settle b (leaveLocal s p d)) p d := by
  rw [leaveLocal_still still]
  have before : (releaseCharge (returning s p d) p).pump p = { s.pump p with
      charge := .none
      lastTrip := if d.state = .tripped then d.cause else (s.pump p).lastTrip
      lockout := (s.pump p).lockout || d.state == .tripped && d.cause == .moisture } := by
    rw [releaseCharge_pump, returning_pump]
    rfl
  have mask : dcMask (releaseCharge (returning s p d) p) = dcMask s := by
    rw [releaseCharge_dc]
    unfold returning
    split <;> rfl
  have charge : ((returning s p d).pump p).charge = (s.pump p).charge := by rw [returning_pump]
  have released : (s.pump p).charge ≠ .none → .chargeRelease (.pump p) ∈ (releaseCharge (returning s p d) p).raised := by
    intro held
    rw [releaseCharge_eq, charge, raiseIf_of (by simpa using held)]
    exact List.mem_append_right _ (.head _)
  generalize releaseCharge (returning s p d) p = v at *
  obtain ⟨locked, disabled, free, quiet⟩ := offTo_settle (b := b) (a := enterOff v p) (s := v) (p := p) rfl (enterOff_dc v p)
  have steady := settle_steady b (enterOff v p) p
  have none : ((enterOff v p).pump p).charge = .none := by
    rw [enterOff_pump, before]
    rfl
  have lockout : ((settle b (enterOff v p)).pump p).lockout = (v.pump p).lockout := by
    rw [steady.lockout, enterOff_pump]
    rfl
  have enabled : (v.pump p).disabled = (s.pump p).disabled := by rw [before]
  have grown := (enterOff_grows v p).trans (settle_grows b _)
  rw [enabled] at disabled free quiet
  rw [← lockout] at locked disabled free quiet
  refine ⟨?_, fun held => grown.mem_raised (released held), ?_, fun lock => (locked lock).1, fun un dis => (disabled un dis).1, free,
    fun un en still => (quiet un en (quiet_of_dc mask still)).1, fun trips => ?_, fun trip un en => ?_⟩
  · rw [steady.charge (by rw [none]; simp), none]
  · rw [lockout, before]
    simp
  · rw [steady.lastTrip, enterOff_pump]
    show (v.pump p).lastTrip = _
    rw [before, if_pos trips]
  · rw [enterOff_tripped (by rw [before]; exact trip), enabled, en, ← lockout, un]
    rfl

/-- Settles O34. -/
theorem drivesFallSilentAndReturn : Obligations.DrivesFallSilentAndReturn := by
  intro p s live
  refine ⟨fun now => ⟨_, exec_statusDeadline live now, falls_silent _ rfl⟩, fun src payload d pump report away from_ => ?_⟩
  have h : Heard s (recordReport s p d) p d := recordReport_heard
  refine ⟨_, exec_driveStat live pump report, ?_⟩
  have leaves : takeReport (recordReport s p d) p d = leaveLocal (recordReport s p d) p d := by
    rw [takeReport_away (by rw [h.state]; exact from_), if_neg away]
  have kept : reported ((settle s (leaveLocal (recordReport s p d) p d)).pump p) = reported ((recordReport s p d).pump p) :=
    settle_reported.trans leaveLocal_reported
  have lockout : ((recordReport s p d).pump p).lockout = (s.pump p).lockout := by rw [h.record]
  have disabled : ((recordReport s p d).pump p).disabled = (s.pump p).disabled := by rw [h.record]
  rw [leaves]
  refine ⟨?_, fun turns => ?_, fun rests => ?_⟩
  · rw [h.record] at kept
    exact congrArg Prod.fst kept
  · rw [leaveLocal_turning ((turning_iff away).mpr turns)]
    have stops := stopPump_settle (b := s) (s := recordReport s p d) (p := p) true
    exact ⟨stops.state, stops.owner, stops.deadline, fun held => stops.notices .external (.inr rfl) (h.charge.trans held)⟩
  · have returns := leaveLocal_returns (b := s) (s := recordReport s p d) (p := p) (not_turning_of rests)
    obtain ⟨charge, releases, locks, locked, off, free, quiet, trips, tripped⟩ := returns
    rw [h.charge] at releases
    rw [lockout] at locks
    rw [disabled] at off free quiet tripped
    refine ⟨charge, releases, locks, locked, off, free, fun un en calm => ?_, trips⟩
    rcases calm with trip | calm
    · exact tripped (reportsTripped_heard h trip) un en
    · exact quiet un en (quiet_of_dc h.mask calm)

end Silence

end Sys2Proof.Machine
end


section
/-! PROOF. The level demand and the demand that follows it (R50, R52, R141, R142). -/

namespace Sys2Proof.Machine

section Demand

variable {s t u a b : State} {p q : Pump} {w : Well}

/-! ## The two series of levels (R50) -/

theorem riseDemand_eq {starts : Four Int} {level : Int} {up : Nat} (most : up ≤ 4)
    (reached : ∀ k, 1 ≤ k → k ≤ 4 → (starts.get k ≤ level ↔ k ≤ up)) (fuel n : Nat) (few : n ≤ 4) (enough : 4 ≤ n + fuel) :
    riseDemand starts level fuel n = max n up := by
  induction fuel generalizing n with
  | zero =>
    show n = max n up
    omega
  | succ fuel ih =>
    unfold riseDemand
    split
    · next rises =>
      have below := (reached (n + 1) (by omega) (by omega)).mp rises.2
      rw [ih (n + 1) (by omega) (by omega)]
      omega
    · next stays =>
      refine (Nat.max_eq_left ?_).symm
      by_contra short
      exact stays ⟨by omega, (reached (n + 1) (by omega) (by omega)).mpr (by omega)⟩

theorem fallDemand_eq {stops : Four Int} {level : Int} {down : Nat}
    (kept : ∀ k, 1 ≤ k → k ≤ 4 → (stops.get k < level ↔ k ≤ down)) (fuel n : Nat) (few : n ≤ 4) (enough : n ≤ fuel) :
    fallDemand stops level fuel n = min n down := by
  induction fuel generalizing n with
  | zero =>
    obtain rfl : n = 0 := by omega
    exact (Nat.zero_min down).symm
  | succ fuel ih =>
    unfold fallDemand
    split
    · next falls =>
      have above : ¬ n ≤ down := fun h => absurd ((kept n (by omega) few).mpr h) (Int.not_lt.mpr falls.2)
      rw [ih (n - 1) (by omega) (by omega)]
      omega
    · next stays =>
      refine (Nat.min_eq_left ?_).symm
      by_contra long
      have none : ¬ stops.get n < level := fun h => long ((kept n (by omega) few).mp h)
      exact stays ⟨by omega, Int.not_lt.mp none⟩

/-- The count of a falling condition says where it holds. -/
theorem count_iff (holds : Nat → Bool) (falls : ∀ k, 1 ≤ k → k ≤ 3 → holds (k + 1) = true → holds k = true) (k : Nat)
    (first : 1 ≤ k) (last : k ≤ 4) : holds k = true ↔ k ≤ ([1, 2, 3, 4].filter holds).length := by
  have h1 : holds 2 = true → holds 1 = true := falls 1 (by omega) (by omega)
  have h2 : holds 3 = true → holds 2 = true := falls 2 (by omega) (by omega)
  have h3 : holds 4 = true → holds 3 = true := falls 3 (by omega) (by omega)
  obtain rfl | rfl | rfl | rfl : k = 1 ∨ k = 2 ∨ k = 3 ∨ k = 4 := by omega
  all_goals
    simp only [List.filter_cons, List.filter_nil]
    revert h1 h2 h3
    generalize holds 1 = b1, holds 2 = b2, holds 3 = b3, holds 4 = b4
    revert b1 b2 b3 b4
    decide

theorem levelDemand_eq {t : Setup} {level : Int} {n up down : Nat} (few : n ≤ 4)
    (reached : ∀ k, 1 ≤ k → k ≤ 4 → ((t.startLevels.get w).get k ≤ level ↔ k ≤ up)) (most : up ≤ 4)
    (kept : ∀ k, 1 ≤ k → k ≤ 4 → ((t.stopLevels.get w).get k < level ↔ k ≤ down)) (order : up ≤ down) :
    levelDemand t w level n = max up (min n down) := by
  unfold levelDemand
  rw [riseDemand_eq most reached 4 n few (by omega)]
  dsimp only
  split
  · rw [fallDemand_eq kept 4 n few (by omega)]
    omega
  · omega

/-! ## What evaluations on the records as they stand keep -/

/-- What a property of states that share what DC does not own needs, to stand through all that follows a change. -/
structure Standing (s : State) (P : State → Prop) : Prop where
  mask : ∀ {x}, P x → dcMask x = dcMask s
  once : ∀ {x} w, P x → P (evaluateOnce x w (deliveryOf (s.well w)))
  rotates : ∀ {x} w, P x → P (rotateIfDue x w)
  judge : ∀ {x} p, P x → P (judgeDeadHead x p)
  tick : ∀ {x} p y, P x → P (x.setPump p { x.pump p with runTickAt := y })
  raise : ∀ {x} e, P x → P (x.raise e)

namespace Standing

variable {P : State → Prop}

theorem each {α : Type} (f : State → α → State) (step : ∀ x i, P x → P (f x i)) (xs : List α) {x : State} (h : P x) :
    P (State.each f xs x) := by
  induction xs generalizing x with
  | nil => exact h
  | cons i xs ih => exact ih (step x i h)

theorem evaluateFuel (k : Standing s P) (n : Nat) (w : Well) {x : State} (h : P x) :
    P (evaluateFuel n x w (deliveryOf (s.well w))) := by
  induction n generalizing x with
  | zero => exact h
  | succ n ih =>
    unfold Machine.evaluateFuel
    dsimp only
    split
    · exact ih (k.rotates w (k.once w h))
    · exact k.rotates w (k.once w h)

theorem well_eq (k : Standing s P) {x : State} (h : P x) (w : Well) : x.well w = s.well w :=
  congrArg (·.get w) (eq_of_mask dcMask State.wells (fun _ => rfl) (k.mask h))

theorem evaluateLive (k : Standing s P) (w : Well) {x : State} (h : P x) : P (evaluateLive x w) := by
  unfold Machine.evaluateLive
  rw [k.well_eq h]
  exact k.evaluateFuel 8 w (k.rotates w h)

theorem settle (k : Standing s P) (b : State) {x : State} (h : P x) : P (settle b x) := by
  unfold Machine.settle
  refine each _ (fun x p h => ?_) _ (each _ (fun x p h => ?_) _ (each _ (fun x w => k.rotates w) _ (each _ (fun x w h => ?_) _ h)))
  · have tick : P (runTick b x p) := by
      unfold runTick
      split
      · exact h
      · exact k.tick p _ h
    unfold noticeFlow State.raiseIf
    dsimp only
    split
    · exact k.raise _ tick
    · exact tick
  · unfold judgeChanged
    split
    · exact h
    · exact k.judge p h
  · unfold evaluateChanged
    split
    · exact k.evaluateLive w h
    · exact h

end Standing

/-! ## The demands after an evaluation -/

theorem select_duty (s : State) (w : Well) (demand : Nat) : (select s w demand).duty = s.duty := each_treat_duty _ _

theorem rotateIfDue_demands (s : State) (v : Well) : (rotateIfDue s v).duty.levelDemand = s.duty.levelDemand
    ∧ (rotateIfDue s v).duty.demand = s.duty.demand := by
  unfold rotateIfDue
  split <;> exact ⟨rfl, rfl⟩

/-- The demand of a well in DRY (R52). -/
def dryDemand (s : State) (w : Well) (level : Int) (n : Nat) : Nat :=
  if s.ssu.well.get w = .restricted ∧ level ≤ s.setup.restrictedStop.get w then 0 else min n (s.setup.maxRunning.get w).toNat

/-- An evaluation of a well whose record allows one. -/
theorem evaluateOnce_eq {d : WellDelivery} {level : Int} (active : s.ssu.well.get w ≠ .fallback) (known : d.quality ≠ .lost)
    (at_level : d.level = some level) : ∃ due, evaluateOnce s w d = select (demanded s w
      (levelDemand s.setup w level (s.duty.levelDemand.get w))
      (demandOf s w (levelDemand s.setup w level (s.duty.levelDemand.get w)) level d.smoothedInflow) due) w
      (demandOf s w (levelDemand s.setup w level (s.duty.levelDemand.get w)) level d.smoothedInflow) := by
  unfold evaluateOnce
  rw [if_neg (by simp [active, known]), at_level]
  exact ⟨_, rfl⟩

theorem demandOf_dry {n inflow : Nat} {level : Int} (dry : s.ssu.state = .dry) :
    demandOf s w n level inflow = dryDemand s w level n := by
  unfold demandOf dryDemand flowDemand maxRunning
  simp [dry]

/-- The demands of a well, in a state that shares what DC does not own. -/
structure DemandsAt (s : State) (w : Well) (n : Nat) (demand : Nat) (x : State) : Prop where
  mask : dcMask x = dcMask s
  levelDemand : x.duty.levelDemand.get w = n
  demand : s.ssu.state = .dry → x.duty.demand.get w = demand

/-- A state before the evaluation of a well, or after it. -/
def DemandsFrom (s : State) (w : Well) (n next demand : Nat) (x : State) : Prop :=
  dcMask x = dcMask s ∧ (x.duty.levelDemand.get w = n ∨ DemandsAt s w next demand x)

/-- What a well's evaluation does to its demands. -/
structure Steps (s : State) (w : Well) (level : Int) (n next : Nat) : Prop where
  active : s.ssu.well.get w ≠ .fallback
  known : (s.well w).quality ≠ .lost
  at_level : (s.well w).level = some level
  first : levelDemand s.setup w level n = next
  again : levelDemand s.setup w level next = next

variable {level : Int} {n next : Nat}

theorem Steps.once_at (k : Steps s w level n next) {x : State} (mask : dcMask x = dcMask s)
    (before : x.duty.levelDemand.get w = n ∨ x.duty.levelDemand.get w = next) :
    DemandsAt s w next (dryDemand s w level next) (evaluateOnce x w (deliveryOf (s.well w))) := by
  have setup := setup_of_dc mask
  have ssu : x.ssu = s.ssu := eq_of_mask dcMask State.ssu (fun _ => rfl) mask
  have goes : levelDemand x.setup w level (x.duty.levelDemand.get w) = next := by
    rw [setup]
    rcases before with h | h <;> rw [h]
    · exact k.first
    · exact k.again
  obtain ⟨due, evaluated⟩ := evaluateOnce_eq (s := x) (w := w) (d := deliveryOf (s.well w)) (level := level)
    (by rw [ssu]; exact k.active) k.known k.at_level
  rw [goes] at evaluated
  refine ⟨(evaluateOnce_dc x w _).trans mask, ?_, fun dry => ?_⟩
  · rw [evaluated, select_duty]
    simp [demanded]
  · rw [evaluated, select_duty]
    have demand := demandOf_dry (s := x) (w := w) (n := next) (inflow := (deliveryOf (s.well w)).smoothedInflow) (level := level)
      (by rw [ssu]; exact dry)
    rw [demand]
    simp [demanded, dryDemand, ssu, setup]

theorem evaluateOnce_elsewhere {v : Well} (d : WellDelivery) (apart : v ≠ w) :
    (evaluateOnce s v d).duty.levelDemand.get w = s.duty.levelDemand.get w
    ∧ (evaluateOnce s v d).duty.demand.get w = s.duty.demand.get w := by
  rcases evaluateOnce_cases s v d with same | ⟨n, demand, due, evaluated⟩
  · rw [same]
    exact ⟨rfl, rfl⟩
  · rw [evaluated, select_duty]
    simp [demanded, Ne.symm apart]

theorem demandsAt_of_duty {demand : Nat} {x y : State} (h : DemandsAt s w n demand x) (mask : dcMask y = dcMask x)
    (levels : y.duty.levelDemand.get w = x.duty.levelDemand.get w) (demands : y.duty.demand.get w = x.duty.demand.get w) :
    DemandsAt s w n demand y :=
  ⟨mask.trans h.mask, levels.trans h.levelDemand, fun dry => demands.trans (h.demand dry)⟩

theorem demandsFrom_of_duty {demand : Nat} {x y : State} (h : DemandsFrom s w n next demand x) (mask : dcMask y = dcMask x)
    (levels : y.duty.levelDemand.get w = x.duty.levelDemand.get w) (demands : y.duty.demand.get w = x.duty.demand.get w) :
    DemandsFrom s w n next demand y :=
  ⟨mask.trans h.1, h.2.imp levels.trans fun h => demandsAt_of_duty h mask levels demands⟩

/-- Once a well has been evaluated, its demands stand. -/
theorem Steps.standing (k : Steps s w level n next) : Standing s (DemandsAt s w next (dryDemand s w level next)) where
  mask h := h.mask
  once v h := by
    by_cases same : v = w
    · subst same
      exact k.once_at h.mask (.inr h.levelDemand)
    · obtain ⟨levels, demands⟩ := evaluateOnce_elsewhere (s := _) (deliveryOf (s.well v)) same
      exact demandsAt_of_duty h (evaluateOnce_dc _ v _) levels demands
  rotates v h := demandsAt_of_duty h (rotateIfDue_dc _ v) (by rw [(rotateIfDue_demands _ v).1]) (by rw [(rotateIfDue_demands _ v).2])
  judge p h := demandsAt_of_duty h (judgeDeadHead_dc _ p) (by rw [judgeDeadHead_duty]) (by rw [judgeDeadHead_duty])
  tick _ _ h := demandsAt_of_duty h rfl rfl rfl
  raise _ h := demandsAt_of_duty h rfl rfl rfl

/-- Evaluations of the other well leave a well's demands. -/
theorem Steps.standing_from (k : Steps s w level n next) :
    Standing s (DemandsFrom s w n next (dryDemand s w level next)) where
  mask h := h.1
  once v h := by
    obtain ⟨mask, before⟩ := h
    refine ⟨(evaluateOnce_dc _ v _).trans mask, ?_⟩
    by_cases same : v = w
    · subst same
      exact .inr (k.once_at mask (before.imp id fun h => h.levelDemand))
    · obtain ⟨levels, demands⟩ := evaluateOnce_elsewhere (s := _) (deliveryOf (s.well v)) same
      exact before.imp levels.trans fun h => demandsAt_of_duty h (evaluateOnce_dc _ v _) levels demands
  rotates v h := demandsFrom_of_duty h (rotateIfDue_dc _ v) (by rw [(rotateIfDue_demands _ v).1]) (by rw [(rotateIfDue_demands _ v).2])
  judge p h := demandsFrom_of_duty h (judgeDeadHead_dc _ p) (by rw [judgeDeadHead_duty]) (by rw [judgeDeadHead_duty])
  tick _ _ h := demandsFrom_of_duty h rfl rfl rfl
  raise _ h := demandsFrom_of_duty h rfl rfl rfl

/-- The evaluation of the well itself. -/
theorem Steps.evaluates (k : Steps s w level n next) {x : State} (h : DemandsFrom s w n next (dryDemand s w level next) x) :
    DemandsAt s w next (dryDemand s w level next) (evaluate x w (deliveryOf (s.well w))) := by
  have rotated := k.standing_from.rotates w h
  have once : DemandsAt s w next (dryDemand s w level next) (evaluateOnce (rotateIfDue x w) w (deliveryOf (s.well w))) :=
    k.once_at rotated.1 (rotated.2.imp id fun h => h.levelDemand)
  unfold evaluate evaluateFuel
  dsimp only
  split
  · exact k.standing.evaluateFuel 7 w (k.standing.rotates w once)
  · exact k.standing.rotates w once

theorem Steps.evaluatesLive (k : Steps s w level n next) {x : State}
    (h : DemandsFrom s w n next (dryDemand s w level next) x) :
    DemandsAt s w next (dryDemand s w level next) (evaluateLive x w) := by
  unfold evaluateLive
  rw [k.standing_from.well_eq h]
  exact k.evaluates h

/-! ## What comes before the evaluation at a delivery (R54, R84, R86) -/

theorem each_duty {α : Type} {f : State → α → State} (step : ∀ s x, (f s x).duty = s.duty) (xs : List α) (s : State) :
    (State.each f xs s).duty = s.duty := by
  induction xs generalizing s with
  | nil => rfl
  | cons x xs ih => exact (ih (f s x)).trans (step s x)

theorem interlockPump_duty (s : State) (p : Pump) : (interlockPump s p).duty = s.duty := by
  unfold interlockPump
  dsimp only
  split
  · rfl
  · exact stopPump_duty true
  · exact stopPump_duty true
  · rfl

theorem evalInterlock_duty (d : WellDelivery) (s : State) (p : Pump) : (evalInterlock d s p).duty = s.duty := by
  unfold evalInterlock
  dsimp only
  split
  · rw [interlockPump_duty]; rfl
  · rfl

theorem restageWell_duty (d : WellDelivery) : (restageWell s w d).duty = s.duty := by
  unfold restageWell
  split
  · rfl
  · rfl
  · exact each_duty (f := restage _ _) (fun _ _ => rfl) _ s

/-- The state that the evaluation at a delivery finds. -/
def prepared (s : State) (w : Well) (d : WellDelivery) : State :=
  State.each judgeDeadHead (s.setup.pumpsOf w) (restageWell (State.each (evalInterlock d) (s.setup.pumpsOf w) s) w d)

theorem prepared_dc (s : State) (w : Well) (d : WellDelivery) : dcMask (prepared s w d) = dcMask s := by
  have locked : dcMask (State.each (evalInterlock d) (s.setup.pumpsOf w) s) = dcMask s :=
    each_dc _ (fun s p => evalInterlock_dc d s p) _ s
  have staged : dcMask (restageWell (State.each (evalInterlock d) (s.setup.pumpsOf w) s) w d) = dcMask s :=
    (restageWell_dc _ w d).trans locked
  exact (each_dc _ (fun s p => judgeDeadHead_dc s p) _ _).trans staged

theorem prepared_duty (s : State) (w : Well) (d : WellDelivery) : (prepared s w d).duty = s.duty := by
  unfold prepared
  rw [each_duty (fun _ _ => judgeDeadHead_duty), restageWell_duty, each_duty (evalInterlock_duty d)]

theorem takeDelivery_eq (s : State) (w : Well) (d : WellDelivery) : takeDelivery s w d = evaluate (prepared s w d) w d := by
  have locked : dcMask (State.each (evalInterlock d) (s.setup.pumpsOf w) s) = dcMask s :=
    each_dc _ (fun s p => evalInterlock_dc d s p) _ s
  have staged : dcMask (restageWell (State.each (evalInterlock d) (s.setup.pumpsOf w) s) w d) = dcMask s :=
    (restageWell_dc _ w d).trans locked
  unfold takeDelivery prepared
  dsimp only
  rw [setup_of_dc staged]

/-- Settles O28. -/
theorem levelDemandIsEvaluated : Obligations.LevelDemandIsEvaluated := by
  intro c w level up down s live command active known at_level apart rising few reached kept
  let starts := s.setup.startLevels.get w
  let stops := s.setup.stopLevels.get w
  have up_iff (k : Nat) (first : 1 ≤ k) (last : k ≤ 4) : starts.get k ≤ level ↔ k ≤ up := by
    have counted := count_iff (fun k => decide (starts.get k ≤ level)) (fun k first last holds => by
      have order := (rising k first last).1
      simp only [decide_eq_true_eq] at holds ⊢
      exact Int.le_trans order holds) k first last
    rw [reached, ← counted, decide_eq_true_iff]
  have down_iff (k : Nat) (first : 1 ≤ k) (last : k ≤ 4) : stops.get k < level ↔ k ≤ down := by
    have counted := count_iff (fun k => decide (stops.get k < level)) (fun k first last holds => by
      have order := (rising k first last).2
      simp only [decide_eq_true_eq] at holds ⊢
      exact Int.lt_of_le_of_lt order holds) k first last
    rw [kept, ← counted, decide_eq_true_iff]
  have most : up ≤ 4 := by
    rw [reached]
    exact List.length_filter_le _ _
  have order : up ≤ down := by
    by_contra more
    have here : starts.get up ≤ level := (up_iff up (by omega) most).mpr (Nat.le_refl _)
    have there : stops.get up < level := Int.lt_of_lt_of_le (apart up (by omega) most) here
    exact more ((down_iff up (by omega) most).mp there)
  let n := s.duty.levelDemand.get w
  let next := max up (min n down)
  have steps : Steps s w level n next := by
    refine ⟨active, known, at_level, levelDemand_eq few up_iff most down_iff order, ?_⟩
    rw [levelDemand_eq (n := next) (by omega) up_iff most down_iff order]
    omega
  have start {x : State} (mask : dcMask x = dcMask s) (duty : x.duty = s.duty) :
      DemandsFrom s w n next (dryDemand s w level next) x := ⟨mask, .inl (by rw [duty])⟩
  have ends {x : State} (h : DemandsAt s w next (dryDemand s w level next) x) :
      (settle s x).duty.levelDemand.get w = next
      ∧ (s.ssu.state = .dry → (settle s x).duty.demand.get w =
          if s.ssu.well.get w = .restricted ∧ level ≤ s.setup.restrictedStop.get w then 0
          else min ((settle s x).duty.levelDemand.get w) (s.setup.maxRunning.get w).toNat) := by
    have settled := steps.standing.settle s h
    exact ⟨settled.levelDemand, fun dry => by rw [settled.levelDemand]; exact settled.demand dry⟩
  rcases command with rfl | ⟨st, rfl⟩ | ⟨st, rfl⟩
  · refine ⟨_, whenDc_next live, ends ?_⟩
    rw [takeDelivery_eq]
    exact steps.evaluates (start (prepared_dc s w _) (prepared_duty s w _))
  · exact ⟨_, whenDc_next live, ends (steps.evaluatesLive (start rfl rfl))⟩
  · refine ⟨_, whenDc_next live, ends ?_⟩
    rw [each_wells]
    have start_ := start (x := s) rfl rfl
    clear_value next
    clear start ends
    cases w with
    | a => exact steps.standing.evaluateLive .b (steps.evaluatesLive start_)
    | b => exact steps.evaluatesLive (steps.standing_from.evaluateLive .a start_)

end Demand

end Sys2Proof.Machine
end


section
/-! PROOF. A delivery: the interlock, the staged speeds and the dead-head timers (R54, R84, R86). -/

namespace Sys2Proof.Machine

section Interlock

variable {s t u a b x : State} {p q : Pump} {w : Well} {d : WellDelivery}

/-! ## Each pump of a well is come to once -/

theorem pumpsOf_nodup (t : Setup) (w : Well) : (t.pumpsOf w).Nodup := List.Nodup.filter _ (by decide)

/-- What an operation on one pump after another leaves of a pump it comes to once. -/
theorem each_reaches {f : State → Pump → State} {xs : List Pump} (once : xs.Nodup) (member : p ∈ xs)
    (other : ∀ s q, p ≠ q → (f s q).pump p = s.pump p) (mask : ∀ s q, dcMask (f s q) = dcMask s)
    (duty : ∀ s q, (f s q).duty = s.duty) (s : State) :
    ∃ u, u.pump p = s.pump p ∧ dcMask u = dcMask s ∧ u.duty = s.duty ∧ (State.each f xs s).pump p = (f u p).pump p := by
  induction xs generalizing s with
  | nil => cases member
  | cons y ys ih =>
    obtain ⟨fresh, once⟩ := List.nodup_cons.mp once
    by_cases here : p = y
    · subst here
      exact ⟨s, rfl, rfl, rfl, each_away other fresh (f s p)⟩
    · have later := (List.mem_cons.mp member).resolve_left here
      obtain ⟨u, record, same, kept, reached⟩ := ih once later (f s y)
      exact ⟨u, record.trans (other s y here), same.trans (mask s y), kept.trans (duty s y), reached⟩

/-! ## The interlock (R54) -/

theorem interlockHolds_iff {t : Setup} : interlockHolds t p d = true ↔
    d.lowFloat = .on ∨ d.level = none ∨ ∃ level, d.level = some level ∧ level ≤ t.dryLevel.get p := by
  unfold interlockHolds
  cases d.level <;> simp

/-- The state in which a pump's interlock has been evaluated. -/
def locked (s : State) (p : Pump) (d : WellDelivery) : State :=
  s.setPump p { s.pump p with interlock := interlockHolds s.setup p d }

theorem locked_pump : (locked s p d).pump p = { s.pump p with interlock := interlockHolds s.setup p d } := by
  unfold locked
  rw [State.pump_setPump, if_pos rfl]

theorem evalInterlock_eq (d : WellDelivery) (s : State) (p : Pump) :
    evalInterlock d s p = if interlockHolds s.setup p d then interlockPump (locked s p d) p else locked s p d := rfl

/-- What an interlock that is set leaves of its pump. -/
theorem interlockPump_cases (s : State) (p : Pump) :
    ((s.pump p).state = .startWait ∧ bare ((interlockPump s p).pump p) = bare ((enterOff s p).pump p))
    ∨ (((s.pump p).state = .starting ∨ (s.pump p).state = .running)
        ∧ bare ((interlockPump s p).pump p) = bare (stopped s (s.pump p)))
    ∨ ((s.pump p).state ≠ .startWait ∧ (s.pump p).state ≠ .starting ∧ (s.pump p).state ≠ .running
        ∧ (interlockPump s p).pump p = s.pump p) := by
  have halted : bare ((stopPump (removeRuns s (driveOf s p)) p true).pump p) = bare (stopped s (s.pump p)) :=
    (stopPump_bare (s := removeRuns s (driveOf s p)) true).trans rfl
  have state : ((removeRuns s (driveOf s p)).pump p).state = (s.pump p).state := rfl
  unfold interlockPump
  dsimp only
  split
  · next h => exact .inl ⟨state.symm.trans h, rfl⟩
  · next h => exact .inr (.inl ⟨.inl (state.symm.trans h), halted⟩)
  · next h => exact .inr (.inl ⟨.inr (state.symm.trans h), halted⟩)
  · next h1 h2 h3 => exact .inr (.inr ⟨h1, h2, h3, rfl⟩)

/-- The interlock as it is left, and what it leaves of its pump. -/
theorem evalInterlock_interlock : ((evalInterlock d s p).pump p).interlock = interlockHolds s.setup p d := by
  have set : ((locked s p d).pump p).interlock = interlockHolds s.setup p d := by rw [locked_pump]
  rw [evalInterlock_eq, ← set]
  split
  · rcases interlockPump_cases (locked s p d) p with ⟨-, same⟩ | ⟨-, same⟩ | ⟨-, -, -, same⟩
    · rw [enterOff_pump] at same
      exact (of_bare (·.interlock) (fun _ => rfl) same).trans rfl
    · exact (of_bare (·.interlock) (fun _ => rfl) same).trans rfl
    · rw [same]
  · rfl

/-- A pump with its interlock set that neither waits, starts nor runs. -/
def Parked (r : PumpRecord) : Prop :=
  r.interlock = true ∧ r.state ≠ .startWait ∧ r.state ≠ .starting ∧ r.state ≠ .running

theorem Settles.following {R : State → State → Prop} (h : Settles R) : Following R where
  refl := h.refl
  trans := h.trans
  once := h.evaluateOnce
  rotates := h.rotateIfDue
  judge := h.judge
  tick := h.tick
  raise := h.raise

/-- A parked pump stays as it is. -/
theorem Parked.stays (h : Parked (a.pump p))
    (held : Held (a.pump p) → still (b.pump p) = still (a.pump p))
    (unasked : Unasked (a.pump p) → still (b.pump p) = still (a.pump p)) : still (b.pump p) = still (a.pump p) := by
  obtain ⟨locked, waits, -, runs⟩ := h
  by_cases off : (a.pump p).state = .off
  · exact unasked ⟨off, .inr locked⟩
  · exact held (.inr ⟨off, waits, runs⟩)

theorem evalInterlock_parked (holds : interlockHolds s.setup p d = true) : Parked ((evalInterlock d s p).pump p) := by
  refine ⟨evalInterlock_interlock.trans holds, ?_⟩
  rw [evalInterlock_eq, if_pos holds]
  rcases interlockPump_cases (locked s p d) p with ⟨-, same⟩ | ⟨-, same⟩ | ⟨waits, starts, runs, same⟩
  · rw [of_bare (·.state) (fun _ => rfl) same, enterOff_pump, inState_state]
    split
    · simp
    · split <;> simp
  · rw [of_bare (·.state) (fun _ => rfl) same]
    exact ⟨by simp [stopped], by simp [stopped], by simp [stopped]⟩
  · rw [same]
    exact ⟨waits, starts, runs⟩

/-- An interlock that is set stops a pump that starts or runs. -/
theorem evalInterlock_stops (holds : interlockHolds s.setup p d = true)
    (going : (s.pump p).state = .starting ∨ (s.pump p).state = .running) :
    ((evalInterlock d s p).pump p).state = .stopping
    ∧ ((evalInterlock d s p).pump p).stopAt = some (s.now + 30000) := by
  have state : ((locked s p d).pump p).state = (s.pump p).state := by rw [locked_pump]
  rw [evalInterlock_eq, if_pos holds]
  rcases interlockPump_cases (locked s p d) p with ⟨waits, -⟩ | ⟨-, same⟩ | ⟨-, starts, runs, -⟩
  · rw [state] at waits
    rcases going with h | h <;> rw [waits] at h <;> cases h
  · exact Prod.mk.inj (of_bare (fun r => (r.state, r.stopAt)) (fun _ => rfl) same)
  · rw [state] at starts runs
    exact absurd going (by simp [starts, runs])

/-! ## Nothing that would run the drive waits to leave (R54, R172) -/

theorem Runless.noRunWaits {drive : Addr} (h : Runless s t) (free : NoRunWaits s drive) : NoRunWaits t drive := by
  obtain ⟨control, forward⟩ := free
  refine ⟨fun f member => ?_, by rw [h.forward]; exact forward⟩
  rcases h.control f member with before | none
  · exact control f before
  · exact none drive

theorem removeRuns_free (s : State) (drive : Addr) : NoRunWaits (removeRuns s drive) drive := by
  constructor
  · intro f member
    simpa using (List.mem_filter.mp member).2
  · intro f member
    simpa using (List.mem_filter.mp member).2

theorem removeRuns_noRunWaits {drive : Addr} (other : Addr) (free : NoRunWaits s drive) : NoRunWaits (removeRuns s other) drive :=
  ⟨fun f member => free.1 f (List.mem_filter.mp member).1, fun f member => free.2 f (List.mem_filter.mp member).1⟩

theorem interlockPump_runless (s : State) (p : Pump) : Runless (removeRuns s (driveOf s p)) (interlockPump s p) := by
  unfold interlockPump
  dsimp only
  split
  · exact .of_lp rfl
  · exact stopPump_runless true
  · exact stopPump_runless true
  · exact .refl _

theorem evalInterlock_noRunWaits {drive : Addr} (q : Pump) (free : NoRunWaits s drive) :
    NoRunWaits (evalInterlock d s q) drive := by
  rw [evalInterlock_eq]
  split
  · exact (interlockPump_runless _ q).noRunWaits (removeRuns_noRunWaits _ free)
  · exact free

theorem evalInterlock_free (holds : interlockHolds s.setup p d = true) : NoRunWaits (evalInterlock d s p) (driveOf s p) := by
  rw [evalInterlock_eq, if_pos holds]
  exact (interlockPump_runless _ p).noRunWaits (removeRuns_free _ _)

/-- Once a pump of a list has had its drive's RUN frames removed, none joins. -/
theorem each_noRunWaits {f : State → Pump → State} {xs : List Pump} {drive : Addr} (member : p ∈ xs)
    (mask : ∀ s q, dcMask (f s q) = dcMask s) (clears : ∀ x, dcMask x = dcMask s → NoRunWaits (f x p) drive)
    (keeps : ∀ x q, NoRunWaits x drive → NoRunWaits (f x q) drive) : NoRunWaits (State.each f xs s) drive := by
  have later (ys : List Pump) (x : State) (free : NoRunWaits x drive) : NoRunWaits (State.each f ys x) drive := by
    induction ys generalizing x with
    | nil => exact free
    | cons y ys ih => exact ih (f x y) (keeps x y free)
  have general (x : State) (same : dcMask x = dcMask s) : NoRunWaits (State.each f xs x) drive := by
    induction xs generalizing x with
    | nil => cases member
    | cons y ys ih =>
      by_cases here : p = y
      · subst here
        exact later ys _ (clears x same)
      · exact ih ((List.mem_cons.mp member).resolve_left here) (f x y) ((mask x y).trans same)
  exact general s rfl

/-! ## The staged speed (R84) -/

/-- The staged speed is the formula's, or 100 under forcing. -/
def Staged (r : PumpRecord) : Prop := r.staged = if r.forcing then 100 else r.formula

theorem staged_inState (r : PumpRecord) (st : PumpState) (h : Staged r) : Staged (inState s r st) := by
  unfold Staged inState at *
  dsimp only
  cases st == .running with
  | true => exact h
  | false => rfl

theorem staged_of_commands {r r' : PumpRecord} (h : Staged r)
    (same : (r'.staged, r'.forcing, r'.formula) = (r.staged, r.forcing, r.formula)) : Staged r' := by
  simp only [Prod.mk.injEq] at same
  obtain ⟨staged, forcing, formula⟩ := same
  unfold Staged
  rw [staged, forcing, formula]
  exact h

theorem stopPump_staged (send : Bool) : Staged ((stopPump s p send).pump p) := by
  obtain ⟨count, refresh, retry, record⟩ := stopPump_pump s p send
  rw [record]
  rfl

theorem enterOff_staged (h : Staged (s.pump p)) : Staged ((enterOff s p).pump p) := by
  rw [enterOff_pump]
  exact staged_inState _ _ h

theorem judgeDeadHead_staged (h : Staged (s.pump p)) : Staged ((judgeDeadHead s p).pump p) := by
  unfold judgeDeadHead
  split
  · next v _ =>
    split
    · rw [State.pump_setPump, if_pos rfl]
      unfold Staged at *
      dsimp only
      split
      · next lift =>
        have lifted := (Bool.and_eq_true_iff.mp lift).2
        have forced := (Bool.and_eq_true_iff.mp lift).1
        simp [forced, lifted]
      · next lift =>
        have no : ((s.pump p).forcing && decide (0 < estimate s v p (s.pump p).formula)) = false := by simpa using lift
        rw [no, Bool.not_false, Bool.and_true]
        exact h
    · exact h
  · exact h

theorem treat_staged (chosen : List Pump) (h : Staged (s.pump p)) : Staged ((treat chosen s p).pump p) := by
  unfold treat
  dsimp only
  split
  · exact h
  · split
    · split
      · rw [pump_raise, enter_pump]
        exact staged_inState _ _ h
      · exact h
    · split
      · exact h
      · exact enterOff_staged (s := withdraw s p) h
    · split
      · rw [State.pump_setPump, if_pos rfl]; exact h
      · split
        · exact stopPump_staged true
        · rw [State.pump_setPump, if_pos rfl]; exact h
    · exact h

theorem judgeDeadHead_other (apart : q ≠ p) : (judgeDeadHead s p).pump q = s.pump q := by
  unfold judgeDeadHead
  split
  · split
    · rw [State.pump_setPump, if_neg apart]
    · rfl
  · rfl

theorem staged_settles (p : Pump) : Settles fun s t => Staged (s.pump p) → Staged (t.pump p) where
  refl _ := id
  trans h k := k ∘ h
  duty _ _ := id
  treat l s q h := by
    by_cases same : p = q
    · subst same; exact treat_staged l h
    · rwa [treat_other l s same]
  judge s q h := by
    by_cases same : p = q
    · subst same; exact judgeDeadHead_staged h
    · rwa [judgeDeadHead_other same]
  tick s q x h := by
    by_cases same : p = q
    · subst same
      rw [State.pump_setPump, if_pos rfl]
      exact h
    · rwa [State.pump_setPump, if_neg same]
  raise _ _ := id

theorem evalInterlock_staged (h : Staged (s.pump p)) : Staged ((evalInterlock d s p).pump p) := by
  have before : Staged ((locked s p d).pump p) := by rw [locked_pump]; exact h
  rw [evalInterlock_eq]
  split
  · unfold interlockPump
    dsimp only
    split
    · exact enterOff_staged (s := withdraw (removeRuns (locked s p d) _) p) before
    · exact stopPump_staged true
    · exact stopPump_staged true
    · exact before
  · exact before

/-! ## The stages of a delivery -/

/-- What the interlock leaves of a pump of the well. -/
theorem interlocked_pump (here : s.wellOf p = some w) : ∃ u, u.pump p = s.pump p ∧ dcMask u = dcMask s ∧ u.duty = s.duty
    ∧ (State.each (evalInterlock d) (s.setup.pumpsOf w) s).pump p = (evalInterlock d u p).pump p :=
  each_reaches (pumpsOf_nodup _ _) ((mem_pumpsOf _ _ _).mpr here) (fun _ _ => evalInterlock_other d)
    (evalInterlock_dc d) (evalInterlock_duty d) s

/-- The speed of the formula (R84). -/
def formulaAt (t : Setup) (w : Well) (p : Pump) (level : Int) : Nat := if t.isVariable p then stagedAt t w p level else 100

theorem restageWell_pump {level : Int} (here : s.wellOf p = some w) (known : d.quality ≠ .lost) (at_level : d.level = some level) :
    (restageWell s w d).pump p = { s.pump p with
      formula := formulaAt s.setup w p level
      staged := if (s.pump p).forcing then 100 else formulaAt s.setup w p level } := by
  have unfolded : restageWell s w d = State.each (restage w level) (s.setup.pumpsOf w) s := by
    unfold restageWell
    rw [at_level]
    cases quality : d.quality with
    | lost => exact absurd quality known
    | good | held => rfl
  obtain ⟨u, record, mask, -, reached⟩ := each_reaches (f := restage w level) (pumpsOf_nodup s.setup w)
    ((mem_pumpsOf _ _ p).mpr here) (fun _ _ => restage_other level) (fun _ _ => rfl) (fun _ _ => rfl) s
  rw [unfolded, reached]
  unfold restage
  rw [State.pump_setPump, if_pos rfl, record, setup_of_dc mask]
  rfl

theorem restageWell_none (unknown : d.quality = .lost ∨ d.level = none) : restageWell s w d = s := by
  unfold restageWell
  split
  · rfl
  · rfl
  · next at_level known =>
    rcases unknown with h | h
    · exact absurd h known
    · rw [at_level] at h; cases h

/-- What the dead-head judgement leaves of a pump of the well. -/
theorem judged_pump (here : s.wellOf p = some w) : ∃ u, u.pump p = s.pump p ∧ dcMask u = dcMask s ∧ u.duty = s.duty
    ∧ (State.each judgeDeadHead (s.setup.pumpsOf w) s).pump p = (judgeDeadHead u p).pump p :=
  each_reaches (pumpsOf_nodup _ _) ((mem_pumpsOf _ _ _).mpr here) (fun _ _ => judgeDeadHead_other)
    judgeDeadHead_dc (fun _ _ => judgeDeadHead_duty) s

/-! ## The dead-head timer and forcing (R86) -/

theorem estimate_congr {speed : Nat} (mask : dcMask x = dcMask s) (curves : x.duty.newCurves = s.duty.newCurves) :
    estimate x w p speed = estimate s w p speed := by
  rw [frame_of_dc mask]
  unfold estimate dcCurves
  dsimp only
  rw [curves]
  rfl

/-- The dead-head timer and forcing of a VARIABLE pump from its judgement at a delivery on. -/
structure DeadHead (s : State) (w : Well) (p : Pump) (f : Nat) (x : State) : Prop where
  mask : dcMask x = dcMask s
  curves : x.duty.newCurves = s.duty.newCurves
  formula : (x.pump p).formula = f
  applied : (x.pump p).applied = (s.pump p).applied
  runs : (x.pump p).state = .running →
    (x.pump p).deadHeadAt = (if estimate s w p (s.pump p).applied = 0 then
        some ((s.pump p).deadHeadAt.getD (s.now + s.setup.deadHeadTime.toNat * 1000)) else none)
    ∧ ((x.pump p).forcing = true ↔ (s.pump p).forcing = true ∧ estimate s w p f = 0)
  rests : (x.pump p).state ≠ .running → (x.pump p).deadHeadAt = none
    ∧ ((s.pump p).state = .running → (x.pump p).forcing = false)

/-- A dead-head judgement of a VARIABLE pump. -/
theorem judgeDeadHead_pump (here : s.wellOf p = some w) (variable_ : s.setup.isVariable p = true) :
    let r := s.pump p
    let timer := if r.state = .running ∧ estimate s w p r.applied = 0 then
      some (r.deadHeadAt.getD (s.now + s.setup.deadHeadTime.toNat * 1000)) else none
    ((judgeDeadHead s p).pump p).deadHeadAt = timer
    ∧ (((judgeDeadHead s p).pump p).forcing = true ↔ r.forcing = true ∧ estimate s w p r.formula = 0)
    ∧ ((judgeDeadHead s p).pump p).state = r.state ∧ ((judgeDeadHead s p).pump p).formula = r.formula
    ∧ ((judgeDeadHead s p).pump p).applied = r.applied := by
  unfold judgeDeadHead
  rw [here]
  simp only [variable_, if_true, State.pump_setPump]
  refine ⟨?_, ?_, by trivial⟩
  · simp only [decide_eq_true_eq]
    split
    · split
      · next h => rw [h]; rfl
      · next h => rw [h]; rfl
    · rfl
  · cases forced : (s.pump p).forcing <;> simp

namespace DeadHead

variable {f : Nat}

theorem of_record {y : State} (h : DeadHead s w p f x) (mask : dcMask y = dcMask x) (curves : y.duty.newCurves = x.duty.newCurves)
    (record : (fun r : PumpRecord => (r.state, r.formula, r.applied, r.deadHeadAt, r.forcing)) (y.pump p)
      = (fun r : PumpRecord => (r.state, r.formula, r.applied, r.deadHeadAt, r.forcing)) (x.pump p)) : DeadHead s w p f y := by
  simp only [Prod.mk.injEq] at record
  obtain ⟨state, formula, applied, timer, forcing⟩ := record
  refine ⟨mask.trans h.mask, curves.trans h.curves, formula.trans h.formula, applied.trans h.applied, fun runs => ?_, fun rests => ?_⟩
  · rw [timer, forcing]
    exact h.runs (state ▸ runs)
  · rw [timer, forcing]
    exact h.rests (state ▸ rests)

/-- A pump that leaves RUNNING, or was not in it, has neither. -/
theorem of_rest {y : State} (h : DeadHead s w p f x) (mask : dcMask y = dcMask x) (curves : y.duty.newCurves = x.duty.newCurves)
    (rests : (y.pump p).state ≠ .running) (timer : (y.pump p).deadHeadAt = none) (forcing : (y.pump p).forcing = false)
    (formula : (y.pump p).formula = (x.pump p).formula) (applied : (y.pump p).applied = (x.pump p).applied) :
    DeadHead s w p f y :=
  ⟨mask.trans h.mask, curves.trans h.curves, formula.trans h.formula, applied.trans h.applied, fun runs => absurd runs rests,
    fun _ => ⟨timer, fun _ => forcing⟩⟩

theorem enter {st : PumpState} (h : DeadHead s w p f x) (away : st ≠ .running) : DeadHead s w p f (enter x p st) := by
  have no : (st == .running) = false := by simpa using away
  refine h.of_rest rfl rfl ?_ ?_ ?_ ?_ ?_ <;> rw [enter_pump]
  · exact away
  · simp [inState, no]
  · simp [inState, no]
  · rfl
  · rfl

theorem enterOff (h : DeadHead s w p f x) : DeadHead s w p f (enterOff x p) := by
  refine h.enter ?_
  split
  · simp
  · split <;> simp

theorem treat (chosen : List Pump) (q : Pump) (h : DeadHead s w p f x) : DeadHead s w p f (treat chosen x q) := by
  by_cases same : p = q
  · subst same
    unfold Machine.treat
    dsimp only
    split
    · exact h
    · split
      · split
        · exact (h.enter (st := .startWait) (by simp)).of_record rfl rfl rfl
        · exact h
      · split
        · exact h
        · exact enterOff (x := withdraw x p) (h.of_record rfl rfl rfl)
      · split
        · exact h.of_record rfl rfl (by rw [State.pump_setPump, if_pos rfl])
        · split
          · obtain ⟨count, refresh, retry, record⟩ := stopPump_pump x p true
            refine h.of_rest (stopPump_dc x p true) (by rw [stopPump_duty]) ?_ ?_ ?_ ?_ ?_ <;> rw [record]
            · simp
            · rfl
            · rfl
            · rfl
            · rfl
          · exact h.of_record rfl rfl (by rw [State.pump_setPump, if_pos rfl])
      · exact h
  · exact h.of_record (treat_dc chosen x q) (by rw [treat_duty]) (by rw [treat_other chosen x same])

theorem judge (here : s.wellOf p = some w) (variable_ : s.setup.isVariable p = true) (q : Pump) (h : DeadHead s w p f x) :
    DeadHead s w p f (judgeDeadHead x q) := by
  by_cases same : p = q
  · subst same
    have setup := setup_of_dc h.mask
    have at_x : x.wellOf p = some w := by unfold State.wellOf; rw [setup]; exact here
    obtain ⟨timer, forcing, state, formula, applied⟩ := judgeDeadHead_pump at_x (by rw [setup]; exact variable_)
    have now := now_of_dc h.mask
    rw [estimate_congr h.mask h.curves, h.applied, now, setup] at timer
    rw [estimate_congr h.mask h.curves, h.formula] at forcing
    refine ⟨(judgeDeadHead_dc x p).trans h.mask, (congrArg Duty.newCurves judgeDeadHead_duty).trans h.curves,
      formula.trans h.formula, applied.trans h.applied, fun runs => ?_, fun rests => ?_⟩
    · rw [state] at runs
      obtain ⟨before, forced⟩ := h.runs runs
      rw [timer, forcing, forced, before]
      refine ⟨?_, by simp⟩
      by_cases dead : estimate s w p (s.pump p).applied = 0
      · simp [runs, dead]
      · simp [dead]
    · rw [state] at rests
      obtain ⟨-, free⟩ := h.rests rests
      refine ⟨timer.trans (if_neg fun both => rests both.1), fun ran => ?_⟩
      have no : ¬ ((judgeDeadHead x p).pump p).forcing = true := by
        rw [forcing, free ran]
        simp
      simpa using no
  · exact h.of_record (judgeDeadHead_dc x q) (by rw [judgeDeadHead_duty]) (by rw [judgeDeadHead_other same])

theorem each {α : Type} {g : State → α → State} (step : ∀ x i, DeadHead s w p f x → DeadHead s w p f (g x i)) (xs : List α) {x : State}
    (h : DeadHead s w p f x) : DeadHead s w p f (State.each g xs x) := by
  induction xs generalizing x with
  | nil => exact h
  | cons i xs ih => exact ih (step x i h)

theorem following (here : s.wellOf p = some w) (variable_ : s.setup.isVariable p = true) :
    Following fun x y => DeadHead s w p f x → DeadHead s w p f y where
  refl _ := id
  trans h k := k ∘ h
  once x v d h := by
    rcases evaluateOnce_cases x v d with same | ⟨n, demand, due, evaluated⟩
    · rwa [same]
    · rw [evaluated]
      exact each (fun y q k => k.treat _ q) _ (h.of_record (y := demanded x v n demand due) rfl rfl rfl)
  rotates x v h := by
    refine h.of_record (rotateIfDue_dc x v) ?_ ?_
    · unfold rotateIfDue
      split <;> rfl
    · unfold State.pump
      rw [rotateIfDue_pumps]
  judge x q := judge here variable_ q
  tick x q y h := by
    refine h.of_record rfl rfl ?_
    by_cases same : p = q
    · subst same
      rw [State.pump_setPump, if_pos rfl]
    · rw [State.pump_setPump, if_neg same]
  raise _ _ h := h.of_record rfl rfl rfl

end DeadHead

/-! ## The delivery -/

/-- The stages of a delivery for a pump of the well: after the interlock, after the staged speed, and after the judgement. -/
structure Delivered (s : State) (w : Well) (d : WellDelivery) (p : Pump) (x y z : State) : Prop where
  locked : ∃ u, u.pump p = s.pump p ∧ dcMask u = dcMask s ∧ u.duty = s.duty ∧ x.pump p = (evalInterlock d u p).pump p
  staged : y = restageWell x w d
  judged : ∃ u, u.pump p = y.pump p ∧ dcMask u = dcMask s ∧ u.duty = s.duty ∧ z.pump p = (judgeDeadHead u p).pump p
  mask : dcMask x = dcMask s ∧ dcMask y = dcMask s ∧ dcMask z = dcMask s
  duty : z.duty = s.duty
  last : z = prepared s w d
  free : interlockHolds s.setup p d = true → NoRunWaits z (driveOf s p)

theorem judgeDeadHead_lp : (judgeDeadHead s p).lp = s.lp := by
  unfold judgeDeadHead
  split
  · split <;> rfl
  · rfl

theorem each_lp {α : Type} {f : State → α → State} (step : ∀ s x, (f s x).lp = s.lp) (xs : List α) (s : State) :
    (State.each f xs s).lp = s.lp := by
  induction xs generalizing s with
  | nil => rfl
  | cons x xs ih => exact (ih (f s x)).trans (step s x)

theorem restageWell_lp : (restageWell s w d).lp = s.lp := by
  unfold restageWell
  split
  · rfl
  · rfl
  · exact each_lp (f := restage _ _) (fun _ _ => rfl) _ s

theorem delivered (here : s.wellOf p = some w) : ∃ x y z, Delivered s w d p x y z := by
  let x := State.each (evalInterlock d) (s.setup.pumpsOf w) s
  have xmask : dcMask x = dcMask s := each_dc _ (evalInterlock_dc d) _ s
  have ymask : dcMask (restageWell x w d) = dcMask s := (restageWell_dc x w d).trans xmask
  have setup := setup_of_dc ymask
  have yduty : (restageWell x w d).duty = s.duty := by
    rw [restageWell_duty]
    exact each_duty (evalInterlock_duty d) _ s
  have last : State.each judgeDeadHead ((restageWell x w d).setup.pumpsOf w) (restageWell x w d) = prepared s w d := by
    rw [setup]
    rfl
  obtain ⟨u, record, mask, duty, judged⟩ := judged_pump (s := restageWell x w d) (p := p) (w := w)
    (by unfold State.wellOf; rw [setup]; exact here)
  rw [last] at judged
  refine ⟨x, restageWell x w d, prepared s w d, interlocked_pump here, rfl, ⟨u, record, mask.trans ymask, duty.trans yduty, judged⟩,
    ⟨xmask, ymask, prepared_dc s w d⟩, prepared_duty s w d, rfl, fun holds => ?_⟩
  have free : NoRunWaits x (driveOf s p) := by
    refine each_noRunWaits ((mem_pumpsOf _ _ _).mpr here) (evalInterlock_dc d) (fun y same => ?_)
      fun y q => evalInterlock_noRunWaits q
    have drive : driveOf s p = driveOf y p := by unfold driveOf; rw [setup_of_dc same]
    rw [drive]
    exact evalInterlock_free (by rw [setup_of_dc same]; exact holds)
  have lp : (prepared s w d).lp = x.lp := by
    rw [← last, each_lp (fun _ _ => judgeDeadHead_lp), restageWell_lp]
  unfold NoRunWaits
  rw [lp]
  exact free

variable {y z : State}

/-- What the staged speed does not touch. -/
theorem Delivered.restaged (k : Delivered s w d p x y z) (here : s.wellOf p = some w) {α : Type} (g : PumpRecord → α)
    (blind : ∀ r f v, g { r with formula := f, staged := v } = g r) : g (y.pump p) = g (x.pump p) := by
  rw [k.staged]
  by_cases known : d.quality = .lost ∨ d.level = none
  · rw [restageWell_none known]
  · rw [not_or] at known
    obtain ⟨level, at_level⟩ := Option.ne_none_iff_exists'.mp known.2
    have at_x : x.wellOf p = some w := by unfold State.wellOf; rw [setup_of_dc k.mask.1]; exact here
    rw [restageWell_pump at_x known.1 at_level, blind]

/-- What neither the staged speed nor a judgement touches. -/
theorem Delivered.kept (k : Delivered s w d p x y z) (here : s.wellOf p = some w) {α : Type} (g : PumpRecord → α)
    (blind : ∀ r, g { still r with formula := 0 } = g r) : g (z.pump p) = g (x.pump p) := by
  obtain ⟨u, record, -, -, judged⟩ := k.judged
  have step : g (y.pump p) = g (x.pump p) := k.restaged here g fun r f v => by rw [← blind, ← blind r]; rfl
  rw [judged, ← step, ← record, ← blind, ← blind (u.pump p), judgeDeadHead_still u p p]

theorem Delivered.interlock (k : Delivered s w d p x y z) : (x.pump p).interlock = interlockHolds s.setup p d := by
  obtain ⟨u, -, mask, -, reached⟩ := k.locked
  rw [reached, evalInterlock_interlock, setup_of_dc mask]

/-- A pump whose interlock a delivery sets is parked. -/
theorem Delivered.parked (k : Delivered s w d p x y z) (holds : interlockHolds s.setup p d = true) : Parked (x.pump p) := by
  obtain ⟨u, -, mask, -, reached⟩ := k.locked
  rw [reached]
  exact evalInterlock_parked (by rw [setup_of_dc mask]; exact holds)

theorem Delivered.stops (k : Delivered s w d p x y z) (holds : interlockHolds s.setup p d = true)
    (going : (s.pump p).state = .starting ∨ (s.pump p).state = .running) :
    (x.pump p).state = .stopping ∧ (x.pump p).stopAt = some (s.now + 30000) := by
  obtain ⟨u, record, mask, -, reached⟩ := k.locked
  rw [reached]
  have stops := evalInterlock_stops (s := u) (p := p) (d := d) (by rw [setup_of_dc mask]; exact holds) (by rw [record]; exact going)
  rwa [now_of_dc mask] at stops

theorem Parked.still_follows (h : Parked (a.pump p)) (v : Well) (e : WellDelivery) :
    still ((settle b (evaluate a v e)).pump p) = still (a.pump p) := by
  have first := h.stays (b := evaluate a v e) ((held_settles p).evaluate a v e) ((unasked_following p).evaluate a v e)
  have parked : Parked ((evaluate a v e).pump p) := by
    have fields := of_still (fun r => (r.interlock, r.state)) (fun _ => rfl) first
    obtain ⟨locked, state⟩ := Prod.mk.inj fields
    unfold Parked
    rw [locked, state]
    exact h
  exact (parked.stays (b := settle b (evaluate a v e)) (settle_held b _ p)
    ((unasked_following p).settle b (evaluate a v e))).trans first

/-- What the interlock leaves of a pump's dead-head timer and forcing. -/
theorem evalInterlock_deadHead :
    (((evalInterlock d s p).pump p).state = .running → (s.pump p).state = .running
      ∧ ((evalInterlock d s p).pump p).deadHeadAt = (s.pump p).deadHeadAt
      ∧ ((evalInterlock d s p).pump p).forcing = (s.pump p).forcing)
    ∧ (((evalInterlock d s p).pump p).state ≠ .running → (s.pump p).state = .running →
      ((evalInterlock d s p).pump p).forcing = false)
    ∧ ((evalInterlock d s p).pump p).applied = (s.pump p).applied := by
  have record : (locked s p d).pump p = { s.pump p with interlock := interlockHolds s.setup p d } := locked_pump
  have state : ((locked s p d).pump p).state = (s.pump p).state := by rw [record]
  have same : ((locked s p d).pump p).deadHeadAt = (s.pump p).deadHeadAt ∧ ((locked s p d).pump p).forcing = (s.pump p).forcing
      ∧ ((locked s p d).pump p).applied = (s.pump p).applied := by
    rw [record]
    exact ⟨rfl, rfl, rfl⟩
  have unmoved : (((locked s p d).pump p).state = .running → (s.pump p).state = .running
      ∧ ((locked s p d).pump p).deadHeadAt = (s.pump p).deadHeadAt ∧ ((locked s p d).pump p).forcing = (s.pump p).forcing)
      ∧ (((locked s p d).pump p).state ≠ .running → (s.pump p).state = .running → ((locked s p d).pump p).forcing = false)
      ∧ ((locked s p d).pump p).applied = (s.pump p).applied :=
    ⟨fun runs => ⟨state.symm.trans runs, same.1, same.2.1⟩, fun rests ran => absurd (state.trans ran) rests, same.2.2⟩
  rw [evalInterlock_eq]
  split
  · have halted : let t := stopPump (removeRuns (locked s p d) (driveOf (locked s p d) p)) p true
        ((t.pump p).state = .running → (s.pump p).state = .running ∧ (t.pump p).deadHeadAt = (s.pump p).deadHeadAt
          ∧ (t.pump p).forcing = (s.pump p).forcing)
        ∧ ((t.pump p).state ≠ .running → (s.pump p).state = .running → (t.pump p).forcing = false)
        ∧ (t.pump p).applied = (s.pump p).applied := by
      obtain ⟨count, refresh, retry, stops⟩ := stopPump_pump (removeRuns (locked s p d) (driveOf (locked s p d) p)) p true
      dsimp only
      rw [stops]
      exact ⟨fun runs => (by cases runs), fun _ _ => rfl, same.2.2⟩
    have state' : ((removeRuns (locked s p d) (driveOf (locked s p d) p)).pump p) = (locked s p d).pump p := rfl
    unfold interlockPump
    dsimp only
    rw [state', state]
    split
    · next waits =>
      have redirected : ∀ st : PumpState, st = (if (s.pump p).lockout then .lockedOut
          else if (s.pump p).disabled then .unavailable .disabled else .off) → st ≠ .running := by
        rintro st rfl
        split
        · simp
        · split <;> simp
      have off : (enterOff (withdraw (removeRuns (locked s p d) (driveOf (locked s p d) p)) p) p).pump p = inState
          (withdraw (removeRuns (locked s p d) (driveOf (locked s p d) p)) p) ((locked s p d).pump p)
          (if (s.pump p).lockout then .lockedOut else if (s.pump p).disabled then .unavailable .disabled else .off) := by
        have flags : ((locked s p d).pump p).lockout = (s.pump p).lockout ∧ ((locked s p d).pump p).disabled = (s.pump p).disabled := by
          rw [record]
          exact ⟨rfl, rfl⟩
        rw [← flags.1, ← flags.2]
        exact enterOff_pump (withdraw (removeRuns (locked s p d) (driveOf (locked s p d) p)) p) p
      rw [off]
      refine ⟨fun runs => absurd runs (redirected _ rfl), fun _ runs => ?_, same.2.2⟩
      rw [waits] at runs
      cases runs
    · exact halted
    · exact halted
    · exact unmoved
  · exact unmoved

/-- The judgement of a delivery leaves the dead-head timer and forcing that R86 asks for. -/
theorem Delivered.deadHead (k : Delivered s w d p x y z) (here : s.wellOf p = some w) (variable_ : s.setup.isVariable p = true) :
    DeadHead s w p (z.pump p).formula z := by
  obtain ⟨u, record, mask, duty, judged⟩ := k.judged
  obtain ⟨v, before, vmask, -, reached⟩ := k.locked
  have kept := k.restaged here (fun r => (r.state, r.deadHeadAt, r.forcing, r.applied)) (fun _ _ _ => rfl)
  rw [← record, reached] at kept
  simp only [Prod.mk.injEq] at kept
  obtain ⟨state, timer, forcing, applied⟩ := kept
  obtain ⟨runs, rests, speed⟩ := evalInterlock_deadHead (d := d) (s := v) (p := p)
  rw [before] at runs rests speed
  have at_u : u.wellOf p = some w := by unfold State.wellOf; rw [setup_of_dc mask]; exact here
  obtain ⟨timer', forcing', state', formula', applied'⟩ := judgeDeadHead_pump at_u (by rw [setup_of_dc mask]; exact variable_)
  rw [estimate_congr mask (by rw [duty]), applied, speed, now_of_dc mask, setup_of_dc mask] at timer'
  rw [estimate_congr mask (by rw [duty])] at forcing'
  rw [← judged] at timer' forcing' state' formula' applied'
  refine ⟨k.mask.2.2, by rw [k.duty], rfl, by rw [applied', applied, speed], fun running => ?_, fun resting => ?_⟩
  · rw [state', state] at running
    obtain ⟨-, sameTimer, sameForcing⟩ := runs running
    rw [timer', forcing', formula', forcing, sameForcing, timer, sameTimer]
    refine ⟨?_, Iff.rfl⟩
    rw [state]
    simp [running]
  · rw [state', state] at resting
    refine ⟨timer'.trans (if_neg fun both => resting (state ▸ both.1)), fun ran => ?_⟩
    have no : ¬ (z.pump p).forcing = true := by
      rw [forcing', forcing, rests resting ran]
      simp
    simpa using no

/-- Settles O27. -/
theorem interlockStopsPumps : Obligations.InterlockStopsPumps := by
  intro w d s live
  refine ⟨_, whenDc_next live, fun p here => ?_⟩
  rw [takeDelivery_eq]
  obtain ⟨x, y, z, k⟩ := delivered (d := d) here
  rw [← k.last]
  have steady := ((steady_settles p).evaluate z w d).trans (settle_steady s (evaluate z w d) p)
  have interlock : ((settle s (evaluate z w d)).pump p).interlock = interlockHolds s.setup p d := by
    rw [steady.interlock, k.kept here (·.interlock) (fun _ => rfl), k.interlock]
  have coherent (h : Staged (z.pump p)) : Staged ((settle s (evaluate z w d)).pump p) :=
    (staged_settles p).settle s _ ((staged_settles p).evaluate z w d h)
  have parked (holds : interlockHolds s.setup p d = true) :
      still ((settle s (evaluate z w d)).pump p) = still (z.pump p) := by
    refine Parked.still_follows ?_ w d
    have fields := k.kept here (fun r => (r.interlock, r.state)) (fun _ => rfl)
    obtain ⟨locked, state⟩ := Prod.mk.inj fields
    unfold Parked
    rw [locked, state]
    exact k.parked holds
  refine ⟨?iff, fun set => ?idle, fun set going => ?stop, fun set => ?runs, fun level known at_level => ?speed, fun unknown => ?kept,
    fun variable_ => ?dead⟩
  case iff => rw [interlock, interlockHolds_iff]
  case idle =>
    have same := parked (interlock.symm.trans set)
    rw [of_still (·.state) (fun _ => rfl) same, k.kept here (·.state) (fun _ => rfl)]
    exact (k.parked (interlock.symm.trans set)).2
  case stop =>
    have same := parked (interlock.symm.trans set)
    have fields := (of_still (fun r => (r.state, r.stopAt)) (fun _ => rfl) same).trans
      (k.kept here (fun r => (r.state, r.stopAt)) (fun _ => rfl))
    obtain ⟨state, stop⟩ := Prod.mk.inj fields
    obtain ⟨stopping, deadline⟩ := k.stops (interlock.symm.trans set) going
    exact ⟨state.trans stopping, stop.trans deadline⟩
  case runs =>
    exact ((runless_settles.evaluate z w d).trans (runless_settles.settle s _)).noRunWaits (k.free (interlock.symm.trans set))
  case speed =>
    obtain ⟨u, record, mask, -, judged⟩ := k.judged
    have at_x : x.wellOf p = some w := by unfold State.wellOf; rw [setup_of_dc k.mask.1]; exact here
    have staged := restageWell_pump at_x known at_level
    rw [← k.staged, setup_of_dc k.mask.1] at staged
    refine ⟨?_, coherent ?_⟩
    · rw [steady.formula, judged, of_still (·.formula) (fun _ => rfl) (judgeDeadHead_still u p p), record, staged]
      rfl
    · rw [judged]
      refine judgeDeadHead_staged ?_
      rw [record, staged]
      rfl
  case kept =>
    obtain ⟨u, record, mask, -, judged⟩ := k.judged
    obtain ⟨v, before, vmask, -, reached⟩ := k.locked
    have stays : y = x := by rw [k.staged, restageWell_none unknown]
    refine ⟨?_, fun held => coherent ?_⟩
    · rw [steady.formula, judged, of_still (·.formula) (fun _ => rfl) (judgeDeadHead_still u p p), record, stays, reached, ← before]
      rw [evalInterlock_eq]
      have same : ((Machine.locked v p d).pump p).formula = (v.pump p).formula := by rw [locked_pump]
      split
      · rcases interlockPump_cases (Machine.locked v p d) p with ⟨-, h⟩ | ⟨-, h⟩ | ⟨-, -, -, h⟩
        · rw [of_bare (·.formula) (fun _ => rfl) h, enterOff_pump]
          exact same
        · rw [of_bare (·.formula) (fun _ => rfl) h]
          exact same
        · rw [h]
          exact same
      · exact same
    · rw [judged]
      refine judgeDeadHead_staged ?_
      rw [record, stays, reached]
      exact evalInterlock_staged (by rw [before]; exact held)
  case dead =>
    have dead : DeadHead s w p (z.pump p).formula (settle s (evaluate z w d)) :=
      (DeadHead.following here variable_).settle s _ ((DeadHead.following here variable_).evaluate z w d (k.deadHead here variable_))
    refine ⟨fun runs => ?_, dead.rests⟩
    rw [dead.formula]
    exact dead.runs runs

end Interlock

end Sys2Proof.Machine
end


section
/-! PROOF. A rotation that waited for a stop (R49, R80): the evaluation of the other well can come first. -/

namespace Sys2Proof.Machine

section Crossed

/-- A state in which pumps 1 and 5 stand in both Rotation Lists: pump 5, of well B, is STOPPING and holds back the rotation of
well B, whose level is LOST; pump 1 is OFF and well A, with a GOOD level above its first start level, would ask for it. -/
def crossed : State :=
  { State.reset with
    ssu := { State.reset.ssu with well := ⟨.normal, .normal⟩ }
    wells := ⟨{ State.reset.wells.a with level := some 2200, quality := .good }, { State.reset.wells.b with quality := .lost }⟩
    tables := { State.reset.tables with pumpCurves := .valid (List.replicate 54 500) }
    pumps := PerPump.make fun p => { State.reset.pump p with
      state := if p = .p5 then .stopping else .off, owner := .auto, interlock := false, staged := 100, formula := 100 }
    duty := { State.reset.duty with rotation := ⟨[.p5, .p1], [.p5, .p1]⟩, rotationDue := ⟨false, true⟩ } }

/-- The rotation-due flag of well B after a command. -/
def dueInB (o : Host.Outcome State Fault Refusal) : Bool :=
  match o with
  | .next t => t.duty.rotationDue.get .b
  | _ => false

theorem dueInB_next (t : State) : dueInB (.next t) = t.duty.rotationDue.get .b := rfl

/-- The report that stops pump 5 brings an evaluation of well A before the rotation of well B is looked at: pump 1 passes to
START_WAIT and, being in the list of well B too, holds its rotation back. -/
theorem crossed_stays_due : dueInB (exec (.driveStat 25 [0, 0, 100, 50, 0]) crossed) = true := by decide +kernel

/-- Refutes O29: with a pump in both Rotation Lists a confirmed stop need not make the rotation that waited for it. -/
theorem not_pumpsAreSelected : ¬ Obligations.PumpsAreSelected := by
  intro holds
  obtain ⟨-, -, -, -, -, -, rotates⟩ := holds .b .p5 crossed
  obtain ⟨t, next, rotated, -⟩ := rotates 25 [0, 0, 100, 50, 0] ⟨.stopped, false, 100, 50, .none⟩ (by decide +kernel)
    (by decide +kernel) (by decide +kernel) rfl (by decide +kernel) (by decide +kernel) (by decide +kernel) (by decide +kernel)
    (by decide +kernel) (by decide +kernel) (by decide +kernel)
  have due := crossed_stays_due
  rw [next, dueInB_next, rotated] at due
  cases due

end Crossed

end Sys2Proof.Machine
end


section
/-! PROOF. Channels: edges, deadlines and notices. -/

namespace Sys2Proof.Machine

/-- A state with one channel's record replaced and events on their way: the form in which CU leaves a state when it takes a
reading, an edge or a deadline. -/
def State.onChan (s : State) (q : Quantity) (r : ChannelRecord) (es : List Instr) : State :=
  { s with channels := s.channels.set q r, raised := s.raised ++ es }

/-- The delivery of a quantity whose record has become `r`. -/
def told (s : State) (q : Quantity) (r : ChannelRecord) (stored : Bool) : Instr :=
  updateEvent (s.onChan q r []) q ⟨r.value, r.quality, r.storedAt, stored⟩

section Form

variable {s t : State} {q q' : Quantity} {r r' : ChannelRecord} {es es' : List Instr}

theorem PerQuantity.set_get {α : Type} (f : PerQuantity α) (q : Quantity) : f.set q (f.get q) = f := by cases q <;> rfl
theorem PerQuantity.set_set {α : Type} (f : PerQuantity α) (q : Quantity) (x y : α) : (f.set q x).set q y = f.set q y := by
  cases q <;> rfl

@[simp] theorem onChan_chan : (s.onChan q r es).chan q' = if q' = q then r else s.chan q' := by
  simp [State.onChan, State.chan]
@[simp] theorem onChan_raised : (s.onChan q r es).raised = s.raised ++ es := rfl
@[simp] theorem onChan_now : (s.onChan q r es).now = s.now := rfl
@[simp] theorem onChan_live : (s.onChan q r es).live = s.live := rfl
@[simp] theorem onChan_nodes : (s.onChan q r es).nodes = s.nodes := rfl
@[simp] theorem onChan_lp : (s.onChan q r es).lp = s.lp := rfl
@[simp] theorem onChan_ssu : (s.onChan q r es).ssu = s.ssu := rfl
@[simp] theorem onChan_tables : (s.onChan q r es).tables = s.tables := rfl
@[simp] theorem onChan_blanking : (s.onChan q r es).blanking = s.blanking := rfl
@[simp] theorem onChan_entryFor : entryFor (s.onChan q r es) q' = entryFor s q' := rfl

theorem onChan_self : s.onChan q (s.chan q) [] = s := by simp [State.onChan, State.chan, PerQuantity.set_get]

theorem setChan_onChan : s.setChan q r = s.onChan q r [] := by simp [State.onChan, State.setChan]

theorem onChan_onChan : (s.onChan q r es).onChan q r' es' = s.onChan q r' (es ++ es') := by
  simp [State.onChan, PerQuantity.set_set]

theorem raise_onChan (e : Instr) : s.raise e = s.onChan q (s.chan q) [e] := by
  simp [State.onChan, State.raise, State.chan, PerQuantity.set_get]

theorem updateEvent_congr (same : t.channels = s.channels) (u : ChannelUpdate) : updateEvent t q u = updateEvent s q u := by
  cases q <;> simp [updateEvent, channelView, State.chan, same]

theorem told_onChan (stored : Bool) : told (s.onChan q r es) q r' stored = told s q r' stored :=
  updateEvent_congr (by simp [State.onChan, PerQuantity.set_set]) _

theorem told_eq {u : ChannelUpdate} (same : u = ⟨r.value, r.quality, r.storedAt, u.stored⟩) :
    updateEvent (s.onChan q r es) q u = told s q r u.stored := by
  unfold told
  rw [← same]
  exact updateEvent_congr (by simp [State.onChan]) _

theorem deliver_onChan (stored : Bool) : deliver (s.onChan q r es) q stored = s.onChan q r (es ++ [told s q r stored]) := by
  unfold deliver
  rw [told_eq (s := s) (by simp [channelView])]
  rw [raise_onChan (q := q), onChan_onChan, onChan_chan, if_pos rfl]

theorem submit_onChan (body : RecordBody) :
    (s.onChan q r es).submit body = s.onChan q r (es ++ [.recordSubmission body]) := by
  unfold State.submit
  rw [raise_onChan (q := q), onChan_onChan, onChan_chan, if_pos rfl]

/-! ## The operations in that form -/

/-- A record that entered SUSPECT. -/
def suspected (r : ChannelRecord) : ChannelRecord := { r with quality := .suspect, holdAt := none }

theorem enterSuspect_eq (cause : SuspectCause) : enterSuspect s q cause =
    if (s.chan q).quality = .suspect then s
    else s.onChan q (suspected (s.chan q))
      [told s q (suspected (s.chan q)) false, .recordSubmission (.sensorSuspect q cause)] := by
  unfold enterSuspect
  dsimp only
  split
  · rfl
  · rw [setChan_onChan, deliver_onChan, submit_onChan]; rfl

theorem enterSuspect_onChan (cause : SuspectCause) : enterSuspect (s.onChan q r es) q cause =
    if r.quality = .suspect then s.onChan q r es
    else s.onChan q (suspected r) (es ++ [told s q (suspected r) false, .recordSubmission (.sensorSuspect q cause)]) := by
  rw [enterSuspect_eq]
  simp only [onChan_chan, ↓reduceIte, onChan_onChan, told_onChan]

theorem becomeHeld_eq : becomeHeld s q = s.onChan q
    { s.chan q with quality := .held, recovery := 0, holdAt := some (s.now + holdLimitOf s q * 1000) }
    [told s q { s.chan q with quality := .held, recovery := 0, holdAt := some (s.now + holdLimitOf s q * 1000) } false] := by
  unfold becomeHeld
  dsimp only
  rw [setChan_onChan, deliver_onChan]
  rfl

theorem becomeLost_eq : becomeLost s q = s.onChan q { s.chan q with quality := .lost, recovery := 0, holdAt := none }
    [told s q { s.chan q with quality := .lost, recovery := 0, holdAt := none } false, .recordSubmission (.sensorLost q)] := by
  unfold becomeLost
  dsimp only
  rw [setChan_onChan, deliver_onChan, submit_onChan]
  rfl

/-- The events of a recovery: the record, when the channel leaves LOST. -/
def recoveryNews (q : Quantity) (before after : Quality) : List Instr :=
  if before = .lost ∧ after = .good then [.recordSubmission (.sensorRecovered q .lost)] else []

theorem recoveryRecord_onChan (before after : Quality) :
    recoveryRecord (s.onChan q r es) q before after = s.onChan q r (es ++ recoveryNews q before after) := by
  unfold recoveryRecord recoveryNews
  split
  · rw [submit_onChan]
  · simp

/-! ## Recovery (R13) -/

theorem recovered_eq (r : ChannelRecord) : recovered r = { r with
    quality := (recovered r).quality, recovery := (recovered r).recovery, holdAt := (recovered r).holdAt } := by
  unfold recovered
  repeat' split
  all_goals rfl

theorem recovered_settled (settled : r.quality = .good ∨ r.quality = .suspect) : recovered r = r := by
  unfold recovered
  rcases settled with good | suspect
  · simp [good]
  · simp [suspect]

theorem recovered_first (out : r.quality = .held ∨ r.quality = .lost) (first : r.recovery = 0) :
    recovered r = { r with recovery := 1 } := by
  unfold recovered
  rcases out with held | lost
  · simp [held, first]
  · simp [lost, first]

theorem recovered_again (out : r.quality = .held ∨ r.quality = .lost) (again : r.recovery ≠ 0) :
    recovered r = { r with quality := .good, recovery := 0, holdAt := none } := by
  have reached : 1 ≤ r.recovery := Nat.pos_of_ne_zero again
  unfold recovered
  rcases out with held | lost
  · simp [held, reached]
  · simp [lost, reached]

/-! ## Edges (R9) -/

/-- The edge of a home switch that SC is told of. -/
def homeEdge (s : State) (k : Screen) (before : Option Int) (after : Int) : List Instr :=
  if before = some 1 ∧ after = 0 then [.homeOffEdge k s.now]
  else if before = some 0 ∧ after = 1 then [.homeOnEdge k s.now] else []

/-- What CU delivers for a changed discrete state. -/
def edgeNews (s : State) (q : Quantity) (r : ChannelRecord) (before : Option Int) (after : Int) (changed : Bool) :
    List Instr :=
  match homeScreen q with
  | some k => homeEdge s k before after ++ if changed || before.isNone then [told s q r true] else []
  | none => [told s q r true]

theorem deliverEdge_onChan (before : Option Int) (after : Int) (changed : Bool) :
    deliverEdge (s.onChan q r []) q before after changed = s.onChan q r (edgeNews s q r before after changed) := by
  unfold deliverEdge edgeNews
  cases homeScreen q with
  | none => exact deliver_onChan true
  | some k =>
    dsimp only
    have edge : (if before = some 1 ∧ after = 0 then (s.onChan q r []).raise (.homeOffEdge k (s.onChan q r []).now)
        else if before = some 0 ∧ after = 1 then (s.onChan q r []).raise (.homeOnEdge k (s.onChan q r []).now)
        else s.onChan q r []) = s.onChan q r (homeEdge s k before after) := by
      unfold homeEdge
      split
      · rw [raise_onChan (q := q), onChan_onChan, onChan_chan, if_pos rfl]; rfl
      · split
        · rw [raise_onChan (q := q), onChan_onChan, onChan_chan, if_pos rfl]; rfl
        · rfl
    rw [edge]
    split
    · exact deliver_onChan true
    · simp

/-- The events of an arrival for a discrete entry, the record having been `before` and become `r`. -/
def arrivalNews (s : State) (q : Quantity) (before r : ChannelRecord) (v : Int) : List Instr :=
  (if before.value ≠ some v then edgeNews s q r before.value v (before.quality != r.quality)
    else if before.quality ≠ r.quality then [told s q r true] else [])
  ++ recoveryNews q before.quality r.quality

/-- The state an EDGE frame carries for an entry. -/
def edgeState (e : SampleEntry) (st : Bool) : Int := if st != e.invert then 1 else 0

/-- The record with the arrival for a discrete entry stored in it, before recovery. -/
def edging (s : State) (q : Quantity) (e : SampleEntry) (st : Bool) (count : BitVec 8) : ChannelRecord :=
  { s.chan q with
    arrivedAt := some s.now, staleAt := some (s.now + staleOf s e.node)
    value := some (edgeState e st), storedAt := some s.now, edgeCount := some count }

/-- The record after an arrival for a discrete entry. -/
def edged (s : State) (q : Quantity) (e : SampleEntry) (st : Bool) (count : BitVec 8) : ChannelRecord :=
  recovered (edging s q e st count)

theorem takeEdge_eq (e : SampleEntry) (st : Bool) (count : BitVec 8) : takeEdge s q e st count =
    s.onChan q (edged s q e st count) (arrivalNews s q (s.chan q) (edged s q e st count) (edgeState e st)) := by
  unfold takeEdge arrive arrivalNews
  rw [setChan_onChan]
  dsimp only
  simp only [setChan_onChan, onChan_onChan, onChan_chan, ↓reduceIte, onChan_now, List.nil_append]
  change recoveryRecord (if (s.chan q).value ≠ some (edgeState e st) then
      deliverEdge (s.onChan q (edged s q e st count) []) q (s.chan q).value (edgeState e st)
        ((s.chan q).quality != (edged s q e st count).quality)
    else if (s.chan q).quality ≠ (edged s q e st count).quality then deliver (s.onChan q (edged s q e st count) []) q true
    else s.onChan q (edged s q e st count) []) q (s.chan q).quality (edged s q e st count).quality = _
  split
  · rw [deliverEdge_onChan, recoveryRecord_onChan]
  · split
    · rw [deliver_onChan, recoveryRecord_onChan]; rfl
    · rw [recoveryRecord_onChan]

end Form

theorem entryAt_node {s : State} {node ch : Nat} {e : SampleEntry} (found : entryAt s node ch = some e) :
    e ∈ mapEntries s ∧ e.node = node ∧ e.channel = ch := by
  unfold entryAt at found
  have keyed := List.find?_some found
  simp only [Bool.and_eq_true, beq_iff_eq] at keyed
  exact ⟨List.mem_of_find?_eq_some found, keyed⟩

theorem mem_arrivalNews_changed {s : State} {q : Quantity} {before r : ChannelRecord} {v : Int}
    (changed : before.quality ≠ r.quality) : told s q r true ∈ arrivalNews s q before r v := by
  unfold arrivalNews edgeNews
  apply List.mem_append_left
  split
  · cases homeScreen q with
    | none => simp
    | some k => simp [changed]
  · simp [changed]

/-- Settles O20. -/
theorem edgeIsStored : Obligations.EdgeIsStored := by
  unfold Obligations.EdgeIsStored
  intro src payload ch st n e q s live fields found kind named
  obtain ⟨-, node, -⟩ := entryAt_node found
  have taken : exec (.edgeFrame src payload) s = .next (takeEdge s q e st n) := by
    apply whenLive_next live
    simp only [fields, found, kind, named]
  refine ⟨_, taken, ?_⟩
  rw [takeEdge_eq]
  set r := edged s q e st n with hr
  have state : r.value = some (edgeState e st) := by rw [hr, edged, recovered_eq]; rfl
  have value : r.value = some (if st = e.invert then 0 else 1) := by
    rw [state]
    unfold edgeState
    cases st <;> cases e.invert <;> rfl
  have stored : r.storedAt = some s.now := by rw [hr, edged, recovered_eq]; rfl
  have toldIs : ∀ quality, r.quality = quality →
      updateEvent (s.onChan q r (arrivalNews s q (s.chan q) r (edgeState e st))) q ⟨r.value, quality, some s.now, true⟩
        = told s q r true := by
    intro quality is
    exact told_eq (by rw [← is, stored])
  simp only [onChan_chan, ↓reduceIte, onChan_raised]
  refine ⟨value, ?_, stored, ?_, ?_, ?_, ?_, ?_, ?_, ?_, ?_, ?_⟩
  · rw [hr, edged, recovered_eq]; rfl
  · rw [hr, edged, recovered_eq]; rfl
  · rw [hr, edged, recovered_eq, edging, node]
  · intro out
    split
    · next first =>
      rw [hr, edged, recovered_first (r := edging s q e st n) out first]
      exact ⟨rfl, rfl⟩
    · next again =>
      have good : r.quality = .good := by rw [hr, edged, recovered_again (r := edging s q e st n) out again]
      have changed : (s.chan q).quality ≠ r.quality := by
        rw [good]; rcases out with held | lost
        · simp [held]
        · simp [lost]
      refine ⟨good, by rw [hr, edged, recovered_again (r := edging s q e st n) out again], by rw [hr, edged, recovered_again (r := edging s q e st n) out again], ?_, ?_⟩
      · rw [toldIs _ good]
        exact List.mem_append_right _ (mem_arrivalNews_changed changed)
      · intro lost
        exact List.mem_append_right _ (List.mem_append_right _ (by simp [recoveryNews, lost, good]))
  · intro settled
    rw [hr, edged, recovered_settled (r := edging s q e st n) settled]; rfl
  · intro w inWell differs
    rw [toldIs _ rfl]
    have away : homeScreen q = none := by cases q <;> simp_all [quantityWell, homeScreen]
    apply List.mem_append_right
    rw [state] at differs
    simp [arrivalNews, edgeNews, away, differs]
  · intro k home before after
    apply List.mem_append_right
    rw [state] at after
    simp only [Option.some.injEq] at after
    simp [arrivalNews, edgeNews, home, before, after, homeEdge]
  · intro k home before after
    apply List.mem_append_right
    rw [state] at after
    simp only [Option.some.injEq] at after
    simp [arrivalNews, edgeNews, home, before, after, homeEdge]
  · intro same good
    have kept : r.quality = .good := by rw [hr, edged, recovered_settled (r := edging s q e st n) (.inl good)]; exact good
    rw [state] at same
    simp [arrivalNews, recoveryNews, same, good, kept]
  · intro other away
    rw [if_neg away]

/-! ## Deadlines and notices -/

theorem contradict_eq {s : State} {q : Quantity} {reported : Bool} : contradict s q reported =
    if reported = true ∧ (s.chan q).quality ≠ .suspect ∧ (entryFor s q).isSome = true then
      s.onChan q (suspected (s.chan q))
        [told s q (suspected (s.chan q)) false, .recordSubmission (.sensorSuspect q .float)]
    else s := by
  unfold contradict
  rw [enterSuspect_eq]
  cases reported <;> cases (entryFor s q).isSome <;> simp

/-- What one report of a float contradiction leaves of a channel. -/
theorem contradict_chan {s : State} {q q' : Quantity} {reported : Bool} : (contradict s q reported).chan q' =
    if q' = q ∧ reported = true ∧ (s.chan q').quality ≠ .suspect ∧ (entryFor s q').isSome = true then suspected (s.chan q')
    else s.chan q' := by
  rw [contradict_eq]
  by_cases same : q' = q
  · subst same
    simp only [true_and]
    split <;> simp
  · simp only [same, false_and, ↓reduceIte]
    split <;> simp [same]

theorem contradict_entryFor {s : State} {q q' : Quantity} {reported : Bool} :
    entryFor (contradict s q reported) q' = entryFor s q' := by
  rw [contradict_eq]; split <;> simp

theorem contradict_raised {s : State} {q : Quantity} {reported : Bool} : s.raised <+: (contradict s q reported).raised := by
  rw [contradict_eq]; split <;> simp

/-- The news of a channel that becomes SUSPECT at a float contradiction. -/
theorem contradict_told {s : State} {q : Quantity} {reported : Bool} {w : Well} (inWell : quantityWell q = some w)
    (now : reported = true ∧ (s.chan q).quality ≠ .suspect ∧ (entryFor s q).isSome = true) :
    .recordSubmission (.sensorSuspect q .float) ∈ (contradict s q reported).raised
    ∧ ∃ a b, .levelSelection q ⟨(s.chan q).value, .suspect, (s.chan q).storedAt, false⟩ a b
        ∈ (contradict s q reported).raised := by
  rw [contradict_eq, if_pos now]
  refine ⟨by simp, ?_⟩
  have event : ∃ a b, told s q (suspected (s.chan q)) false =
      .levelSelection q ⟨(s.chan q).value, .suspect, (s.chan q).storedAt, false⟩ a b := by
    unfold told suspected
    cases q <;> simp_all [quantityWell, updateEvent]
  obtain ⟨a, b, event⟩ := event
  exact ⟨a, b, by simp [event]⟩

theorem floatContradiction_treats {w : Well} {first second : Bool} {s : State} (q : Quantity) :
    let t := contradict (contradict s (firstTransducer w) first) (secondTransducer w) second
    if (q = firstTransducer w ∧ first = true ∨ q = secondTransducer w ∧ second = true)
        ∧ (s.chan q).quality ≠ .suspect ∧ (entryFor s q).isSome then
      t.chan q = suspected (s.chan q)
        ∧ .recordSubmission (.sensorSuspect q .float) ∈ t.raised
        ∧ ∃ a b, .levelSelection q ⟨(s.chan q).value, .suspect, (s.chan q).storedAt, false⟩ a b ∈ t.raised
    else t.chan q = s.chan q := by
  dsimp only
  have apart : firstTransducer w ≠ secondTransducer w := by cases w <;> decide
  have firstWell : quantityWell (firstTransducer w) = some w := by cases w <;> rfl
  have secondWell : quantityWell (secondTransducer w) = some w := by cases w <;> rfl
  have kept : (contradict s (firstTransducer w) first).chan (secondTransducer w) = s.chan (secondTransducer w) := by
    rw [contradict_chan, if_neg (fun h => apart h.1.symm)]
  split
  · next now =>
    obtain ⟨which, sound, mapped⟩ := now
    rcases which with ⟨rfl, rfl⟩ | ⟨rfl, rfl⟩
    · refine ⟨?_, ?_⟩
      · rw [contradict_chan, if_neg (fun h => apart h.1), contradict_chan, if_pos ⟨rfl, rfl, sound, mapped⟩]
      · obtain ⟨record, a, b, event⟩ := contradict_told (reported := true) firstWell ⟨rfl, sound, mapped⟩
        exact ⟨contradict_raised.subset record, a, b, contradict_raised.subset event⟩
    · refine ⟨?_, ?_⟩
      · rw [contradict_chan, kept, contradict_entryFor, if_pos ⟨rfl, rfl, sound, mapped⟩]
      · have news := contradict_told (s := contradict s (firstTransducer w) first) (reported := true) secondWell
          ⟨rfl, by rw [kept]; exact sound, by rw [contradict_entryFor]; exact mapped⟩
        rw [kept] at news
        exact news
  · next still =>
    have first_keeps : (contradict s (firstTransducer w) first).chan q = s.chan q := by
      rw [contradict_chan, if_neg (fun h => still ⟨.inl ⟨h.1, h.2.1⟩, h.2.2⟩)]
    rw [contradict_chan, first_keeps, contradict_entryFor, if_neg (fun h => still ⟨.inr ⟨h.1, h.2.1⟩, h.2.2⟩)]

/-- Settles O21. -/
theorem channelDeadlinesAndNotices : Obligations.ChannelDeadlinesAndNotices := by
  unfold Obligations.ChannelDeadlinesAndNotices
  intro q w first second s live
  refine ⟨?_, ?_, ?_, ?_, ?_⟩
  · intro d at_ passed
    have ripe : due (s.chan q).staleAt s.now = true := by simpa [at_, due] using passed
    refine ⟨if (s.chan q).quality = .good then becomeHeld s q else s, whenDue_next live ripe rfl, ?_⟩
    split
    · next good => rw [becomeHeld_eq]; exact congrArg (fun e => s.onChan q _ [e]) (told_eq (u := ⟨_, _, _, false⟩) rfl).symm
    · rfl
  · intro d at_ passed
    have ripe : due (s.chan q).holdAt s.now = true := by simpa [at_, due] using passed
    refine ⟨if (s.chan q).quality = .held then becomeLost s q else s, whenDue_next live ripe rfl, ?_⟩
    split
    · next held => rw [becomeLost_eq]; exact congrArg (fun e => s.onChan q _ [e, _]) (told_eq (u := ⟨_, _, _, false⟩) rfl).symm
    · rfl
  · refine ⟨_, ?_, floatContradiction_treats⟩
    apply whenLive_next live
    rfl
  · apply whenLive_next live
    rfl
  · intro since timing passed
    have ripe : due (disagreeAt (s.well w)) s.now = true := by simpa [disagreeAt, timing, due] using passed
    apply whenDue_next live ripe
    rfl

end Sys2Proof.Machine
end


section
/-! PROOF. Channels: reference checks and CADENCE frames. -/

namespace Sys2Proof.Machine

/-! ## A change of channels' staleness, of nodes and of the CONTROL queue, and of nothing else -/

section Cadence

variable {s t : State} {node : Nat}

theorem findNode_updateNode {f : CadenceState → CadenceState} (keeps : ∀ c, (f c).node = c.node) (n : Nat) :
    findNode (updateNode s node f) n = if n = node then (findNode s n).map f else findNode s n := by
  unfold findNode updateNode
  dsimp only
  rw [List.find?_map]
  have same : ((fun c : CadenceState => c.node == n) ∘ fun c => if (c.node == node) = true then f c else c)
      = fun c => c.node == n := by
    funext c
    dsimp only [Function.comp]
    split
    · rw [keeps]
    · rfl
  rw [same]
  cases found : s.nodes.find? fun c => c.node == n with
  | none => simp
  | some c =>
    have at_ : c.node = n := by simpa using List.find?_some found
    by_cases h : n = node
    · subst h; simp [at_]
    · simp [h, at_]

/-- What a placement or an offer of a CADENCE frame changes of the part. -/
structure Cadenced (s t : State) : Prop where
  now : t.now = s.now
  ssu : t.ssu = s.ssu
  tables : t.tables = s.tables

theorem Cadenced.refl : Cadenced s s := ⟨rfl, rfl, rfl⟩
theorem Cadenced.trans {u : State} (h : Cadenced s t) (h' : Cadenced t u) : Cadenced s u :=
  ⟨h'.now.trans h.now, h'.ssu.trans h.ssu, h'.tables.trans h.tables⟩

theorem Cadenced.mapEntries (h : Cadenced s t) : mapEntries t = mapEntries s := by
  unfold Machine.mapEntries; rw [h.tables]

/-- The reset of the staleness deadline of one channel of a changed class. -/
def restale (cls : StationState) (s : State) (e : SampleEntry) : State :=
  match e.quantity with
  | .name q => s.setChan q { s.chan q with staleAt := some (s.now + staleMs cls) }
  | .unnamed _ => s

theorem resetStale_eq (cls : StationState) : resetStale s node cls =
    State.each (restale cls) ((mapEntries s).filter fun e => e.node == node) s := rfl

/-- A channel with its staleness deadline taken afresh. -/
def freshened (s : State) (cls : StationState) (r : ChannelRecord) : ChannelRecord :=
  { r with staleAt := some (s.now + staleMs cls) }

theorem restale_chan (cls : StationState) (e : SampleEntry) (q : Quantity) : (restale cls s e).chan q =
    if e.quantity = .name q then freshened s cls (s.chan q) else s.chan q := by
  unfold restale
  cases e.quantity with
  | name q' =>
    rw [State.chan_setChan]
    by_cases h : q = q'
    · subst h; simp [freshened]
    · simp [h, Ne.symm h]
  | unnamed _ => simp

theorem restale_same (cls : StationState) (e : SampleEntry) : Cadenced s (restale cls s e)
    ∧ (restale cls s e).nodes = s.nodes ∧ (restale cls s e).lp = s.lp ∧ (restale cls s e).raised = s.raised := by
  unfold restale
  cases e.quantity <;> exact ⟨⟨rfl, rfl, rfl⟩, rfl, rfl, rfl⟩

theorem each_restale (cls : StationState) (es : List SampleEntry) : ∀ s : State,
    Cadenced s (State.each (restale cls) es s) ∧ (State.each (restale cls) es s).nodes = s.nodes
    ∧ (State.each (restale cls) es s).lp = s.lp
    ∧ ∀ q, (State.each (restale cls) es s).chan q =
        if ∃ e ∈ es, e.quantity = .name q then freshened s cls (s.chan q) else s.chan q := by
  induction es with
  | nil => intro s; exact ⟨.refl, rfl, rfl, fun q => by simp [State.each]⟩
  | cons e es ih =>
    intro s
    obtain ⟨same, nodes, lp, chans⟩ := ih (restale cls s e)
    obtain ⟨one, oneNodes, oneLp, -⟩ := restale_same (s := s) cls e
    refine ⟨one.trans same, nodes.trans oneNodes, lp.trans oneLp, fun q => ?_⟩
    change (State.each (restale cls) es (restale cls s e)).chan q = _
    rw [chans, restale_chan]
    have fresh : freshened (restale cls s e) cls = freshened s cls := by unfold freshened; rw [one.now]
    rw [fresh]
    by_cases here : e.quantity = .name q
    · simp [here, freshened]
    · simp [here]

theorem resetStale_chan (cls : StationState) (q : Quantity) : (resetStale s node cls).chan q =
    if ∃ e ∈ mapEntries s, e.node = node ∧ e.quantity = .name q then freshened s cls (s.chan q) else s.chan q := by
  rw [resetStale_eq, (each_restale cls _ s).2.2.2]
  simp [and_assoc]

/-- A node's cadence state once its frame is placed. -/
def cadenced (s : State) (c : CadenceState) : CadenceState :=
  { c with recorded := s.ssu.state, retryAt := none, repeatAt := some (s.now + 600000) }

/-- A node's cadence state when its frame is not placed. -/
def deferred (s : State) (c : CadenceState) : CadenceState := { c with retryAt := nextOffer c.retryAt s.now }

/-- The class recorded for a node is not the one its frame carries. -/
def Reclassed (s : State) (node : Nat) : Prop := ∃ c, findNode s node = some c ∧ c.recorded ≠ s.ssu.state

/-- The bookkeeping of a placed frame (R18). -/
theorem cadencePlaced_spec : let t := cadencePlaced s node s.ssu.state
    Cadenced s t ∧ t.lp = s.lp ∧ t.nodes = s.nodes.map (fun c => if c.node == node then cadenced s c else c)
    ∧ (∀ n, findNode t n = if n = node then (findNode s n).map (cadenced s) else findNode s n)
    ∧ (∀ q, Reclassed s node → (∃ e ∈ mapEntries s, e.node = node ∧ e.quantity = .name q) →
        t.chan q = freshened s s.ssu.state (s.chan q))
    ∧ ∀ q, (Reclassed s node → ∀ e ∈ mapEntries s, e.node = node → e.quantity ≠ .name q) → t.chan q = s.chan q := by
  dsimp only
  have split : (Reclassed s node ∧ cadencePlaced s node s.ssu.state
        = updateNode (resetStale s node s.ssu.state) node (cadenced s))
      ∨ ¬Reclassed s node ∧ cadencePlaced s node s.ssu.state = updateNode s node (cadenced s) := by
    unfold cadencePlaced Reclassed
    cases findNode s node with
    | none => right; exact ⟨by simp, rfl⟩
    | some c =>
      by_cases same : c.recorded = s.ssu.state
      · right; simp only [same, bne_self_eq_false]; exact ⟨by simp [same], rfl⟩
      · left
        have differs : (c.recorded != s.ssu.state) = true := by simp [same]
        simp only [differs]
        refine ⟨⟨c, rfl, same⟩, ?_⟩
        obtain ⟨one, -⟩ := each_restale s.ssu.state ((mapEntries s).filter fun e => e.node == node) s
        have now : (resetStale s node s.ssu.state).now = s.now := one.now
        simp only [↓reduceIte, now]
        rfl
  rcases split with ⟨changed, eq⟩ | ⟨unchanged, eq⟩
  · obtain ⟨same, nodes, lp, -⟩ := each_restale s.ssu.state ((mapEntries s).filter fun e => e.node == node) s
    rw [eq]
    refine ⟨⟨same.now, same.ssu, same.tables⟩, lp, ?_, ?_, ?_, ?_⟩
    · unfold updateNode; dsimp only; rw [show (resetStale s node s.ssu.state).nodes = s.nodes from nodes]
    · intro n
      rw [findNode_updateNode (f := cadenced s) (fun c => rfl)]
      unfold findNode
      rw [show (resetStale s node s.ssu.state).nodes = s.nodes from nodes]
    · intro q _ mapped
      change (resetStale s node s.ssu.state).chan q = _
      rw [resetStale_chan, if_pos mapped]
    · intro q away
      change (resetStale s node s.ssu.state).chan q = _
      rw [resetStale_chan, if_neg]
      rintro ⟨e, mem, at_, named⟩
      exact away changed e mem at_ named
  · rw [eq]
    exact ⟨⟨rfl, rfl, rfl⟩, rfl, rfl, fun n => findNode_updateNode (f := cadenced s) (fun c => rfl) n, fun q h => absurd h unchanged,
      fun q _ => rfl⟩

/-- The CADENCE frame offered to a node. -/
def cadenceFrame (s : State) (node : Nat) (ref : Option Nat) : OutFrame :=
  ⟨node, s.lp.ownAddress, s.lp.ownSequence, .cadence s.ssu.state ref⟩

/-- Placing a CADENCE frame in a queue with room. -/
theorem placeCadence_of_room (room : s.lp.control.length < 8) (ref : Option Nat) : ∃ t, placeCadence s node ref = some t
    ∧ Cadenced s t ∧ t.lp.control = s.lp.control ++ [cadenceFrame s node ref]
    ∧ t.lp.ownSequence = s.lp.ownSequence + 1 ∧ t.lp.ownAddress = s.lp.ownAddress
    ∧ t.nodes = s.nodes.map (fun c => if c.node == node then cadenced s c else c)
    ∧ (∀ n, findNode t n = if n = node then (findNode s n).map (cadenced s) else findNode s n)
    ∧ (∀ q, Reclassed s node → (∃ e ∈ mapEntries s, e.node = node ∧ e.quantity = .name q) →
        t.chan q = freshened s s.ssu.state (s.chan q))
    ∧ ∀ q, (Reclassed s node → ∀ e ∈ mapEntries s, e.node = node → e.quantity ≠ .name q) → t.chan q = s.chan q := by
  have offered : ∃ es, offerControl s node none (.cadence s.ssu.state ref) = some { s with
      lp := { s.lp with control := s.lp.control ++ [cadenceFrame s node ref], ownSequence := s.lp.ownSequence + 1 }
      raised := s.raised ++ es } := by
    unfold offerControl
    rw [if_pos room]
    cases choiceOnJoin s.lp
    · exact ⟨[], by simp [State.raiseIf, sequenceAfter]; rfl⟩
    · exact ⟨[.loopOutFree false], rfl⟩
  obtain ⟨es, offered⟩ := offered
  unfold placeCadence
  rw [offered]
  refine ⟨_, rfl, ?_⟩
  obtain ⟨same, lp, nodes, found, changed, kept⟩ := cadencePlaced_spec (node := node) (s := { s with
      lp := { s.lp with control := s.lp.control ++ [cadenceFrame s node ref], ownSequence := s.lp.ownSequence + 1 }
      raised := s.raised ++ es })
  exact ⟨⟨same.now, same.ssu, same.tables⟩, congrArg (·.control) lp, congrArg (·.ownSequence) lp,
    congrArg (·.ownAddress) lp, nodes, found, changed, kept⟩

theorem placeCadence_of_full (full : ¬s.lp.control.length < 8) (ref : Option Nat) : placeCadence s node ref = none := by
  unfold placeCadence
  rw [offerControl_of_full full]
  rfl

theorem offerCadence_of_full (full : ¬s.lp.control.length < 8) : offerCadence s node = updateNode s node (deferred s) := by
  unfold offerCadence
  rw [placeCadence_of_full full]
  rfl

theorem nextOffer_idle {x : Option Ms} {now : Ms} (idle : x = none ∨ due x now = true) :
    nextOffer x now = some (now + 1000) := by
  rcases idle with rfl | passed
  · rfl
  · cases x with
    | none => rfl
    | some d =>
      have ripe : ¬now < d := by simpa [due] using passed
      simp [nextOffer, ripe]

end Cadence

/-! ## Reference checks (R16, R17) -/

theorem requestReference_asks {s : State} {q : Quantity} {e : SampleEntry} : let t := requestReference s q e
    if s.lp.control.length < 8 then
      t.lp.control = s.lp.control ++ [cadenceFrame s e.node (some e.channel)]
        ∧ t.lp.ownSequence = s.lp.ownSequence + 1
        ∧ (t.chan q).awaiting = some s.now ∧ (t.chan q).referenceRetryAt = none
        ∧ (t.chan q).referenceAt = some (s.now + s.setup.referenceInterval.toNat * 3600000)
    else t.lp = s.lp ∧ (t.chan q).awaiting = (s.chan q).awaiting
      ∧ ((s.chan q).referenceRetryAt = none ∨ due (s.chan q).referenceRetryAt s.now = true →
          (t.chan q).referenceRetryAt = some (s.now + 1000)) := by
  dsimp only
  unfold requestReference
  split
  · next room =>
    obtain ⟨t, placed, same, control, sequence, -⟩ := placeCadence_of_room (node := e.node) room (some e.channel)
    simp only [placed, State.setChan_lp, State.chan_setChan, ↓reduceIte, same.now]
    refine ⟨control, sequence, True.intro, True.intro, ?_⟩
    unfold referenceMs State.setup
    rw [same.tables]
  · next full =>
    simp only [placeCadence_of_full full, State.setChan_lp, State.chan_setChan, ↓reduceIte, true_and]
    exact nextOffer_idle

/-- Settles O22. -/
theorem referenceChecks : Obligations.ReferenceChecks := by
  unfold Obligations.ReferenceChecks
  intro q e s live mapped
  refine ⟨?_, ?_, ?_⟩
  · intro d x at_ passed awaited
    apply whenDue_next live (by simpa [at_, due] using passed)
    simp only [mapped, awaited, Option.isSome_some, ↓reduceIte]
    rfl
  · rintro c (⟨rfl, ripe, free⟩ | ⟨rfl, ripe⟩)
    · refine ⟨requestReference (s.setChan q { s.chan q with referenceAt := none }) q e, ?_, ?_⟩
      · apply whenDue_next live ripe
        simp [mapped, free]
      · have asks := requestReference_asks (s := s.setChan q { s.chan q with referenceAt := none }) (q := q) (e := e)
        simp only [State.setChan_lp, State.chan_setChan, ↓reduceIte] at asks
        exact asks
    · refine ⟨requestReference s q e, ?_, requestReference_asks⟩
      apply whenDue_next live ripe
      simp only [mapped]
  · intro x awaited passed
    apply whenDue_next live (by simpa [referenceTimeoutAt, awaited, due] using passed)
    rfl

/-! ## CADENCE frames (R18) -/

/-- One offer of a CADENCE frame. -/
theorem offerCadence_of_room {s : State} {node : Nat} (room : s.lp.control.length < 8) : let t := offerCadence s node
    Cadenced s t ∧ t.lp.control = s.lp.control ++ [cadenceFrame s node none]
    ∧ t.lp.ownSequence = s.lp.ownSequence + 1 ∧ t.lp.ownAddress = s.lp.ownAddress
    ∧ t.nodes = s.nodes.map (fun c => if c.node == node then cadenced s c else c)
    ∧ (∀ n, findNode t n = if n = node then (findNode s n).map (cadenced s) else findNode s n)
    ∧ (∀ q, Reclassed s node → (∃ e ∈ mapEntries s, e.node = node ∧ e.quantity = .name q) →
        t.chan q = freshened s s.ssu.state (s.chan q))
    ∧ ∀ q, (Reclassed s node → ∀ e ∈ mapEntries s, e.node = node → e.quantity ≠ .name q) → t.chan q = s.chan q := by
  obtain ⟨t, placed, rest⟩ := placeCadence_of_room (node := node) room none
  unfold offerCadence
  rw [placed]
  exact rest

theorem offerCadence_node {s : State} {node : Nat} {x : CadenceState} (found : findNode s node = some x) :
    let t := offerCadence s node
    if s.lp.control.length < 8 then
      t.lp.control = s.lp.control ++ [⟨node, s.lp.ownAddress, s.lp.ownSequence, .cadence s.ssu.state none⟩]
        ∧ findNode t node = some ⟨node, s.ssu.state, none, some (s.now + 600000)⟩
        ∧ (x.recorded ≠ s.ssu.state → ∀ e ∈ mapEntries s, e.node = node → ∀ q, e.quantity = .name q →
            (t.chan q).staleAt = some (s.now + staleMs s.ssu.state))
    else t.lp = s.lp ∧ t.channels = s.channels
      ∧ ∃ y, findNode t node = some y ∧ y.recorded = x.recorded
        ∧ (x.retryAt = none ∨ due x.retryAt s.now = true → y.retryAt = some (s.now + 1000)) := by
  dsimp only
  have at_ : x.node = node := by simpa using List.find?_some found
  split
  · next room =>
    obtain ⟨-, control, -, -, -, nodes, changed, -⟩ := offerCadence_of_room (node := node) room
    refine ⟨control, ?_, ?_⟩
    · rw [nodes, if_pos rfl, found, ← at_]; rfl
    · intro differs e mem is q named
      rw [changed q ⟨x, found, differs⟩ ⟨e, mem, is, named⟩]
      rfl
  · next full =>
    rw [offerCadence_of_full full]
    refine ⟨rfl, rfl, deferred s x, ?_, rfl, nextOffer_idle⟩
    rw [findNode_updateNode (f := deferred s) (fun c => rfl), if_pos rfl, found]
    rfl

theorem cadenced_twice {s t : State} (same : Cadenced s t) (c : CadenceState) : cadenced t (cadenced s c) = cadenced s c := by
  unfold cadenced; rw [same.now, same.ssu]

/-- Offers to nodes for all of which there is room. -/
theorem each_offerCadence_of_room (ns : List Nat) : ∀ s : State, s.lp.control.length + ns.length ≤ 8 →
    let t := State.each offerCadence ns s
    ∃ fs, t.lp.control = s.lp.control ++ fs ∧ fs.map (·.destination) = ns
      ∧ (∀ f ∈ fs, f.payload = .cadence s.ssu.state none)
      ∧ t.lp.ownSequence = s.lp.ownSequence + BitVec.ofNat 6 ns.length
      ∧ t.nodes = s.nodes.map fun c => if c.node ∈ ns then cadenced s c else c := by
  induction ns with
  | nil => intro s _; exact ⟨[], by simp [State.each], rfl, by simp, by simp [State.each], by simp [State.each]⟩
  | cons n ns ih =>
    intro s room
    rw [List.length_cons] at room
    obtain ⟨same, control, sequence, -, nodes, -⟩ := offerCadence_of_room (s := s) (node := n) (by omega)
    obtain ⟨fs, rest, destinations, payloads, sequence', nodes'⟩ :=
      ih (offerCadence s n) (by rw [control, List.length_append, List.length_singleton]; omega)
    refine ⟨cadenceFrame s n none :: fs, ?_, by rw [List.map_cons, destinations]; rfl, ?_, ?_, ?_⟩
    · change (State.each offerCadence ns (offerCadence s n)).lp.control = _
      rw [rest, control, List.append_assoc]
      rfl
    · intro f mem
      rcases List.mem_cons.mp mem with rfl | later
      · rfl
      · rw [payloads f later, same.ssu]
    · change (State.each offerCadence ns (offerCadence s n)).lp.ownSequence = _
      rw [sequence', sequence, List.length_cons, BitVec.ofNat_add, BitVec.add_assoc, add_comm (1 : BitVec 6)]
      rfl
    · change (State.each offerCadence ns (offerCadence s n)).nodes = _
      rw [nodes', nodes, List.map_map]
      congr 1
      funext c
      dsimp only [Function.comp]
      by_cases here : c.node = n
      · have kept : (cadenced s c).node = n := here
        simp only [here, beq_self_eq_true, ↓reduceIte, kept, List.mem_cons, true_or]
        split
        · exact cadenced_twice same c
        · rfl
      · have fresh : cadenced (offerCadence s n) c = cadenced s c := by unfold cadenced; rw [same.now, same.ssu]
        simp [here, fresh]

theorem findNode_of_nodup {s : State} {before after : List CadenceState} {c : CadenceState}
    (nodes : s.nodes = before ++ c :: after) (distinct : (s.nodes.map (·.node)).Nodup) : findNode s c.node = some c := by
  unfold findNode
  rw [nodes] at distinct ⊢
  rw [List.find?_append]
  have none_before : before.find? (fun x => x.node == c.node) = none := by
    rw [List.find?_eq_none]
    intro x mem same
    rw [List.map_append, List.nodup_append] at distinct
    exact distinct.2.2 x.node (List.mem_map_of_mem mem) c.node (by simp) (by simpa using same)
  simp [none_before]

/-- A map that changes one node alone. -/
theorem map_one_node {before after : List CadenceState} {c : CadenceState} (f : CadenceState → CadenceState)
    (distinct : ((before ++ c :: after).map (·.node)).Nodup) :
    (before ++ c :: after).map (fun x => if x.node == c.node then f x else x) = before ++ f c :: after := by
  rw [List.map_append, List.map_cons, List.nodup_append, List.nodup_cons] at distinct
  obtain ⟨-, ⟨notAfter, -⟩, apart⟩ := distinct
  have keepBefore : before.map (fun x => if x.node == c.node then f x else x) = before := by
    rw [List.map_congr_left (g := id) ?_, List.map_id]
    intro x mem
    have ne : x.node ≠ c.node := apart x.node (List.mem_map_of_mem mem) c.node (by simp)
    simp [ne]
  have keepAfter : after.map (fun x => if x.node == c.node then f x else x) = after := by
    rw [List.map_congr_left (g := id) ?_, List.map_id]
    intro x mem
    have ne : x.node ≠ c.node := fun same => notAfter (same ▸ List.mem_map_of_mem mem)
    simp [ne]
  rw [List.map_append, List.map_cons, keepBefore, keepAfter, if_pos (by simp)]

/-- Offers to the nodes `cs`, of which the first `k` find room. -/
theorem each_offerCadence (cs : List CadenceState) : ∀ (before : List CadenceState) (k : Nat) (s : State),
    s.nodes = before ++ cs → (s.nodes.map (·.node)).Nodup → k = 8 - s.lp.control.length →
    let t := State.each (fun s c => offerCadence s c.node) cs s
    ∃ fs, t.lp.control = s.lp.control ++ fs ∧ fs.map (·.destination) = (cs.take k).map (·.node)
      ∧ (∀ f ∈ fs, f.payload = .cadence s.ssu.state none)
      ∧ t.nodes = before ++ ((cs.take k).map (cadenced s) ++ (cs.drop k).map (deferred s))
      ∧ ∀ q, (∀ c ∈ cs.take k, c.recorded ≠ s.ssu.state → (∃ e ∈ mapEntries s, e.node = c.node ∧ e.quantity = .name q) →
            (t.chan q).staleAt = some (s.now + staleMs s.ssu.state))
        ∧ ((s.chan q).staleAt = some (s.now + staleMs s.ssu.state) →
            (t.chan q).staleAt = some (s.now + staleMs s.ssu.state))
        ∧ ((∀ c ∈ cs.take k, c.recorded ≠ s.ssu.state → ∀ e ∈ mapEntries s, e.node = c.node → e.quantity ≠ .name q) →
            t.chan q = s.chan q) := by
  induction cs with
  | nil =>
    intro before k s nodes _ _
    exact ⟨[], by simp [State.each], by simp, by simp, by simp [State.each, nodes], by simp [State.each]⟩
  | cons c cs ih =>
    intro before k s nodes distinct free
    have found := findNode_of_nodup nodes distinct
    change ∃ fs, (State.each (fun s c => offerCadence s c.node) cs (offerCadence s c.node)).lp.control = _ ∧ _ ∧ _ ∧
      (State.each (fun s c => offerCadence s c.node) cs (offerCadence s c.node)).nodes = _ ∧ _
    by_cases room : s.lp.control.length < 8
    · obtain ⟨same, control, -, -, nodes', -, changed, kept⟩ := offerCadence_of_room (s := s) (node := c.node) room
      rw [nodes, map_one_node _ (nodes ▸ distinct)] at nodes'
      obtain ⟨j, rfl⟩ : ∃ j, k = j + 1 := ⟨k - 1, by omega⟩
      obtain ⟨fs, rest, destinations, payloads, left, chans⟩ := ih (before ++ [cadenced s c]) j (offerCadence s c.node)
        (by rw [nodes']; simp) (by
          rw [nodes']
          rw [nodes] at distinct
          simpa [cadenced] using distinct) (by rw [control, List.length_append, List.length_singleton]; omega)
      have forms : cadenced (offerCadence s c.node) = cadenced s ∧ deferred (offerCadence s c.node) = deferred s := by
        unfold cadenced deferred
        rw [same.now, same.ssu]
        exact ⟨rfl, rfl⟩
      rw [same.ssu, same.now, same.mapEntries] at chans
      refine ⟨cadenceFrame s c.node none :: fs, by rw [rest, control, List.append_assoc]; rfl,
        by rw [List.map_cons, destinations]; rfl, ?_, by rw [left, forms.1, forms.2]; simp, fun q => ?_⟩
      · intro f mem
        rcases List.mem_cons.mp mem with rfl | later
        · rfl
        · rw [payloads f later, same.ssu]
      · obtain ⟨fresh, stays, still⟩ := chans q
        have holds : (s.chan q).staleAt = some (s.now + staleMs s.ssu.state) →
            ((offerCadence s c.node).chan q).staleAt = some (s.now + staleMs s.ssu.state) := by
          intro was
          by_cases touched : Reclassed s c.node ∧ ∃ e ∈ mapEntries s, e.node = c.node ∧ e.quantity = .name q
          · rw [changed q touched.1 touched.2]; rfl
          · rw [kept q (fun h e mem at_ named => touched ⟨h, e, mem, at_, named⟩)]; exact was
        refine ⟨?_, fun was => stays (holds was), ?_⟩
        · intro x mem differs mapped
          rcases List.mem_cons.mp mem with rfl | later
          · apply stays
            rw [changed q ⟨_, found, differs⟩ mapped]
            rfl
          · exact fresh x later differs mapped
        · intro away
          refine (still (fun x mem => away x (List.mem_cons_of_mem _ mem))).trans (kept q ?_)
          rintro ⟨x, found', differs⟩ e mem at_
          obtain rfl : c = x := Option.some.inj (found.symm.trans found')
          exact away c (List.mem_cons_self ..) differs e mem at_
    · obtain rfl : k = 0 := by omega
      have nodes' : (offerCadence s c.node).nodes = before ++ deferred s c :: cs := by
        rw [offerCadence_of_full room]
        unfold updateNode
        dsimp only
        rw [nodes, map_one_node _ (nodes ▸ distinct)]
      have same : (offerCadence s c.node).lp = s.lp ∧ Cadenced s (offerCadence s c.node)
          ∧ (offerCadence s c.node).channels = s.channels := by
        rw [offerCadence_of_full room]; exact ⟨rfl, ⟨rfl, rfl, rfl⟩, rfl⟩
      obtain ⟨lp, same, channels⟩ := same
      obtain ⟨fs, rest, destinations, payloads, left, chans⟩ := ih (before ++ [deferred s c]) 0 (offerCadence s c.node)
        (by rw [nodes']; simp) (by
          rw [nodes']
          rw [nodes] at distinct
          simpa [deferred] using distinct) (by rw [lp]; exact free)
      have forms : cadenced (offerCadence s c.node) = cadenced s ∧ deferred (offerCadence s c.node) = deferred s := by
        unfold cadenced deferred
        rw [same.now, same.ssu]
        exact ⟨rfl, rfl⟩
      rw [same.ssu, same.now, same.mapEntries] at chans
      refine ⟨fs, by rw [rest, lp], by simpa using destinations, by rw [same.ssu] at payloads; exact payloads,
        by rw [left, forms.1, forms.2]; simp, fun q => ?_⟩
      obtain ⟨-, stays, still⟩ := chans q
      have chan : (offerCadence s c.node).chan q = s.chan q := by unfold State.chan; rw [channels]
      rw [chan] at stays still
      exact ⟨by simp, stays, fun _ => still (by simp)⟩

theorem offerCadenceAll_eq (s : State) : offerCadenceAll s = State.each offerCadence (s.nodes.map (·.node)) s := by
  unfold offerCadenceAll State.each
  rw [List.foldl_map]

/-- Settles O23. -/
theorem cadenceFrames : Obligations.CadenceFrames := by
  unfold Obligations.CadenceFrames
  intro s live
  refine ⟨?_, ?_, ?_⟩
  · rintro node x c found (⟨rfl, ripe⟩ | ⟨rfl, ripe⟩)
    · set s' := updateNode s node fun c => { c with repeatAt := none } with hs'
      refine ⟨offerCadence s' node, ?_, ?_⟩
      · apply whenDue_next live (by simpa [nodeRepeatAt, found] using ripe)
        rfl
      · have found' : findNode s' node = some { x with repeatAt := none } := by
          rw [hs', findNode_updateNode (f := fun c => { c with repeatAt := none }) (fun c => rfl), if_pos rfl, found]
          rfl
        exact offerCadence_node found'
    · refine ⟨offerCadence s node, ?_, offerCadence_node found⟩
      apply whenDue_next live (by simpa [nodeRetryAt, found] using ripe)
      rfl
  · intro st room
    obtain ⟨fs, control, destinations, payloads, sequence, nodes⟩ :=
      each_offerCadence_of_room (s.nodes.map (·.node)) s (by simpa using room)
    refine ⟨_, fs, whenLive_next live (f := offerCadenceAll) rfl, ?_⟩
    rw [offerCadenceAll_eq]
    refine ⟨control, destinations, payloads, by simpa using sequence, ?_⟩
    rw [nodes]
    apply List.map_congr_left
    intro c mem
    rw [if_pos (List.mem_map_of_mem mem)]
    rfl
  · intro st k distinct free
    obtain ⟨fs, control, destinations, payloads, nodes, chans⟩ := each_offerCadence s.nodes [] k s rfl distinct free
    refine ⟨offerCadenceAll s, fs, whenLive_next live rfl, control, destinations, payloads, ?_, fun q => ?_⟩
    · refine nodes.trans (congrArg (((s.nodes.take k).map (cadenced s)) ++ ·) (List.map_congr_left fun c _ => ?_))
      unfold deferred nextOffer
      congr 1
      cases c.retryAt with
      | none => rfl
      | some x => dsimp only; split <;> rfl
    · exact ⟨(chans q).1, (chans q).2.2⟩

end Sys2Proof.Machine
end


section
/-! PROOF. Channels: the readings of a SAMPLE. -/

namespace Sys2Proof.Machine

/-! ## The payload -/

theorem readingsOf_length (payload : List Byte) : match readingsOf payload with
    | some rs => payload.length = 3 * rs.length
    | none => payload.length % 3 ≠ 0 := by
  induction payload using readingsOf.induct with
  | case1 => simp [readingsOf]
  | case2 b0 b1 b2 rest ih =>
    unfold readingsOf
    cases h : readingsOf rest with
    | none => rw [h] at ih; simp only [Option.map_none, List.length_cons]; dsimp only at ih; omega
    | some rs => rw [h] at ih; simp only [Option.map_some, List.length_cons]; dsimp only at ih; omega
  | case3 payload notNil notThree =>
    have short : payload.length = 1 ∨ payload.length = 2 := by
      match payload with
      | [] => exact absurd rfl notNil
      | [_] => exact .inl rfl
      | [_, _] => exact .inr rfl
      | b0 :: b1 :: b2 :: rest => exact absurd rfl (notThree b0 b1 b2 rest)
    have bad : readingsOf payload = none := by
      match payload with
      | [] => exact absurd rfl notNil
      | [_] => rfl
      | [_, _] => rfl
      | b0 :: b1 :: b2 :: rest => exact absurd rfl (notThree b0 b1 b2 rest)
    rw [bad]
    dsimp only
    omega

theorem readingsOf_append (first rest : List Byte) (whole : first.length % 3 = 0) :
    readingsOf (first ++ rest) = (readingsOf first).bind fun xs => (readingsOf rest).map (xs ++ ·) := by
  induction first using readingsOf.induct with
  | case1 => simp [readingsOf]
  | case2 b0 b1 b2 tail ih =>
    have tailWhole : tail.length % 3 = 0 := by simp only [List.length_cons] at whole; omega
    simp only [List.cons_append, readingsOf, ih tailWhole]
    cases readingsOf tail <;> cases readingsOf rest <;> rfl
  | case3 first notNil notThree =>
    match first with
    | [] => exact absurd rfl notNil
    | [_] => simp at whole
    | [_, _] => simp at whole
    | b0 :: b1 :: b2 :: rest => exact absurd rfl (notThree b0 b1 b2 rest)

theorem sampleReadings_of_bad {payload : List Byte}
    (bad : payload.length % 3 ≠ 0 ∨ payload = [] ∨ 18 < payload.length) : sampleReadings payload = none := by
  have long := readingsOf_length payload
  unfold sampleReadings
  cases h : readingsOf payload with
  | none => rfl
  | some rs =>
    rw [h] at long
    dsimp only at long ⊢
    rw [if_pos]
    rcases bad with odd | rfl | tooLong
    · omega
    · simp only [List.length_nil] at long; omega
    · omega

theorem sampleReadings_of_whole {payload : List Byte} (whole : payload.length % 3 = 0) (some_ : payload ≠ [])
    (short : payload.length ≤ 18) : ∃ rs, readingsOf payload = some rs ∧ sampleReadings payload = some rs := by
  have long := readingsOf_length payload
  have positive : 0 < payload.length := List.length_pos_iff.mpr some_
  cases h : readingsOf payload with
  | none => rw [h] at long; exact absurd whole long
  | some rs =>
    rw [h] at long
    dsimp only at long
    refine ⟨rs, rfl, ?_⟩
    unfold sampleReadings
    rw [h]
    dsimp only
    rw [if_neg (by omega)]

/-! ## One reading -/

/-- What a reading leaves alone. -/
structure Sampled (s t : State) : Prop where
  now : t.now = s.now
  live : t.live = s.live
  tables : t.tables = s.tables
  nodes : t.nodes = s.nodes
  ssu : t.ssu = s.ssu
  blanking : t.blanking = s.blanking
  raised : s.raised <+: t.raised

section Reading

variable {s t : State} {q : Quantity} {src : Addr} {e : SampleEntry} {rd : Reading} {r : ChannelRecord} {es : List Instr}

theorem Sampled.refl : Sampled s s := ⟨rfl, rfl, rfl, rfl, rfl, rfl, List.prefix_rfl⟩
theorem Sampled.trans {u : State} (h : Sampled s t) (h' : Sampled t u) : Sampled s u :=
  ⟨h'.now.trans h.now, h'.live.trans h.live, h'.tables.trans h.tables, h'.nodes.trans h.nodes, h'.ssu.trans h.ssu,
    h'.blanking.trans h.blanking, h.raised.trans h'.raised⟩
theorem Sampled.onChan : Sampled s (s.onChan q r es) := ⟨rfl, rfl, rfl, rfl, rfl, rfl, List.prefix_append ..⟩

theorem Sampled.entryAt (h : Sampled s t) (node ch : Nat) : entryAt t node ch = entryAt s node ch := by
  unfold Machine.entryAt mapEntries; rw [h.tables]
theorem Sampled.staleOf (h : Sampled s t) (node : Nat) : staleOf t node = staleOf s node := by
  unfold Machine.staleOf findNode; rw [h.nodes, h.ssu]
theorem Sampled.blanked (h : Sampled s t) (q : Quantity) : blanked t q = blanked s q := by
  unfold Machine.blanked; rw [h.blanking, h.now]

/-- The record of a quantity with an arrival. -/
def arrived (s : State) (q : Quantity) (src : Nat) : ChannelRecord :=
  { s.chan q with arrivedAt := some s.now, staleAt := some (s.now + staleOf s src) }

theorem arrive_eq : arrive s q src = s.onChan q (arrived s q src) [] := setChan_onChan

/-- The record with a stored level in it. -/
def restored (s : State) (r : ChannelRecord) (v : Int) : ChannelRecord :=
  recovered { r with value := some v, storedAt := some s.now, rejects := 0 }

theorem storeReading_onChan (v : Int) : storeReading (s.onChan q r []) q v = s.onChan q (restored s r v)
    (told s q (restored s r v) true :: recoveryNews q r.quality (restored s r v).quality) := by
  unfold storeReading
  dsimp only
  rw [setChan_onChan, onChan_onChan, onChan_chan, if_pos rfl]
  change recoveryRecord (deliver (s.onChan q (restored s r v) []) q true) q r.quality (restored s r v).quality = _
  rw [deliver_onChan, recoveryRecord_onChan]
  rfl

theorem leaveSuspect_onChan (limit : Nat) (fresh : due r.staleAt s.now = false) :
    leaveSuspect (s.onChan q r []) q limit = if r.value = none then
      s.onChan q { r with rejects := 0, recovery := 0, quality := .lost }
        [told s q { r with rejects := 0, recovery := 0, quality := .lost } false]
    else s.onChan q { r with rejects := 0, recovery := 0, quality := .good }
      [told s q { r with rejects := 0, recovery := 0, quality := .good } false,
        .recordSubmission (.sensorRecovered q .suspect)] := by
  unfold leaveSuspect
  dsimp only
  simp only [onChan_chan, ↓reduceIte, setChan_onChan, onChan_onChan, List.nil_append, onChan_now, fresh, Bool.false_eq_true,
    Option.isNone_iff_eq_none]
  split
  · rw [deliver_onChan]; rfl
  · rw [deliver_onChan, submit_onChan]; rfl

/-- A reading changes the record of the quantity of its analog entry, and adds events. -/
theorem takeAnalog_form (rd : Reading) : ∃ r' es, takeAnalog (s.onChan q r []) q e rd = s.onChan q r' es := by
  have suspect : ∀ (r : ChannelRecord) (cause : SuspectCause),
      ∃ r' es, enterSuspect (s.onChan q r []) q cause = s.onChan q r' es := by
    intro r cause
    rw [enterSuspect_onChan]
    split
    · exact ⟨_, _, rfl⟩
    · exact ⟨_, _, rfl⟩
  unfold takeAnalog
  split
  · unfold takeReference
    dsimp only
    rw [onChan_chan, if_pos rfl]
    split
    · rw [setChan_onChan, onChan_onChan]
      split
      · exact suspect _ _
      · split
        · unfold leaveSuspect
          dsimp only
          simp only [onChan_chan, ↓reduceIte, setChan_onChan, onChan_onChan, List.nil_append, deliver_onChan, submit_onChan]
          split
          · exact ⟨_, _, rfl⟩
          · split
            · exact ⟨_, _, rfl⟩
            · exact ⟨_, _, rfl⟩
        · exact ⟨_, _, rfl⟩
    · exact ⟨_, _, rfl⟩
  · split
    · unfold rejectReading
      dsimp only
      rw [setChan_onChan, onChan_onChan]
      split
      · exact suspect _ _
      · exact ⟨_, _, rfl⟩
    · split
      · rw [setChan_onChan, onChan_onChan]; exact ⟨_, _, rfl⟩
      · rw [storeReading_onChan]; exact ⟨_, _, rfl⟩

theorem takeReading_of (found : entryAt s src rd.channel = some e) (kind : e.kind = .analog) (named : e.quantity = .name q) :
    takeReading src s rd = takeAnalog (s.onChan q (arrived s q src) []) q e rd := by
  unfold takeReading
  simp only [found, kind, named, arrive_eq]

/-- A reading leaves alone every channel but the one of its analog entry. -/
theorem takeReading_away
    (away : ∀ y, entryAt s src rd.channel = some y → y.kind = .analog → y.quantity ≠ .name q) :
    Sampled s (takeReading src s rd) ∧ (takeReading src s rd).chan q = s.chan q := by
  cases found : entryAt s src rd.channel with
  | none => unfold takeReading; simp only [found]; exact ⟨.refl, trivial⟩
  | some y =>
    cases kind : y.kind with
    | discrete => unfold takeReading; simp only [found, kind]; exact ⟨.refl, trivial⟩
    | analog =>
      cases named : y.quantity with
      | unnamed n => unfold takeReading; simp only [found, kind, named]; exact ⟨.refl, trivial⟩
      | name q' =>
        rw [takeReading_of found kind named]
        obtain ⟨r', es, form⟩ := takeAnalog_form (s := s) (q := q') (r := arrived s q' src) (e := y) rd
        have ne : q ≠ q' := by rintro rfl; exact away y found kind named
        rw [form, onChan_chan, if_neg ne]
        exact ⟨.onChan, rfl⟩

theorem each_takeReading_away {rs : List Reading} :
    ∀ s, (∀ x ∈ rs, ∀ y, entryAt s src x.channel = some y → y.kind = .analog → y.quantity ≠ .name q) →
    Sampled s (State.each (takeReading src) rs s) ∧ (State.each (takeReading src) rs s).chan q = s.chan q := by
  induction rs with
  | nil => intro s _; exact ⟨.refl, rfl⟩
  | cons x rs ih =>
    intro s away
    obtain ⟨one, chan⟩ := takeReading_away (away x (List.mem_cons_self ..))
    obtain ⟨rest, chans⟩ := ih (takeReading src s x) (fun z mem y found =>
      away z (List.mem_cons_of_mem _ mem) y (by rw [← one.entryAt]; exact found))
    exact ⟨one.trans rest, chans.trans chan⟩

theorem each_sampled {rs : List Reading} : ∀ s, Sampled s (State.each (takeReading src) rs s) := by
  induction rs with
  | nil => intro s; exact .refl
  | cons x rs ih =>
    intro s
    refine Sampled.trans ?_ (ih (takeReading src s x))
    cases found : entryAt s src x.channel with
    | none => unfold takeReading; simp only [found]; exact .refl
    | some y =>
      cases kind : y.kind with
      | discrete => unfold takeReading; simp only [found, kind]; exact .refl
      | analog =>
        cases named : y.quantity with
        | unnamed n => unfold takeReading; simp only [found, kind, named]; exact .refl
        | name q' =>
          rw [takeReading_of found kind named]
          obtain ⟨r', es, form⟩ := takeAnalog_form (s := s) (q := q') (r := arrived s q' src) (e := y) x
          rw [form]
          exact .onChan

theorem each_append {α : Type} (f : State → α → State) (xs ys : List α) (s : State) :
    State.each f (xs ++ ys) s = State.each f ys (State.each f xs s) := List.foldl_append ..

theorem told_delivers (stored : Bool) : Delivers q ⟨r.value, r.quality, r.storedAt, stored⟩ (told s q r stored) := by
  unfold Delivers told
  cases q <;> simp [updateEvent, quantityWell]
  all_goals rfl

/-- A reading that is stored. -/
theorem takeReading_stores (found : entryAt s src rd.channel = some e) (kind : e.kind = .analog)
    (named : e.quantity = .name q) (plain : rd.isRef = false)
    (within : rd.range = false ∧ e.windowLow ≤ rd.raw ∧ rd.raw ≤ e.windowHigh) (clear : blanked s q = false) :
    takeReading src s rd = s.onChan q (restored s (arrived s q src) (levelOf e rd.raw))
      (told s q (restored s (arrived s q src) (levelOf e rd.raw)) true
        :: recoveryNews q (s.chan q).quality (restored s (arrived s q src) (levelOf e rd.raw)).quality) := by
  obtain ⟨inRange, low, high⟩ := within
  rw [takeReading_of found kind named]
  unfold takeAnalog
  have clear' : blanked (s.onChan q (arrived s q src) []) q = false := clear
  rw [if_neg (by simp [plain]), if_neg (by simp [inRange]; omega), if_neg (by simp [clear']), storeReading_onChan]
  rfl

theorem restored_value (v : Int) : (restored s r v).value = some v := by unfold restored; rw [recovered_eq]
theorem restored_storedAt (v : Int) : (restored s r v).storedAt = some s.now := by unfold restored; rw [recovered_eq]
theorem restored_arrivedAt (v : Int) : (restored s r v).arrivedAt = r.arrivedAt := by unfold restored; rw [recovered_eq]
theorem restored_rejects (v : Int) : (restored s r v).rejects = 0 := by unfold restored; rw [recovered_eq]

/-- The qualities and the recovery count of a stored reading. -/
theorem restored_quality (v : Int) :
    (r.quality = .good ∨ r.quality = .suspect → (restored s r v).quality = r.quality
      ∧ (restored s r v).recovery = r.recovery ∧ (restored s r v).holdAt = r.holdAt)
    ∧ (r.quality = .held ∨ r.quality = .lost →
      if r.recovery = 0 then (restored s r v).quality = r.quality ∧ (restored s r v).recovery = 1
        ∧ (restored s r v).holdAt = r.holdAt
      else (restored s r v).quality = .good ∧ (restored s r v).recovery = 0 ∧ (restored s r v).holdAt = none) := by
  unfold restored
  refine ⟨fun settled => ?_, fun out => ?_⟩
  · rw [recovered_settled (r := { r with value := some v, storedAt := some s.now, rejects := 0 }) settled]
    exact ⟨rfl, rfl, rfl⟩
  · split
    · next first =>
      rw [recovered_first (r := { r with value := some v, storedAt := some s.now, rejects := 0 }) out first]
      exact ⟨rfl, rfl, rfl⟩
    · next again =>
      rw [recovered_again (r := { r with value := some v, storedAt := some s.now, rejects := 0 }) out again]
      exact ⟨rfl, rfl, rfl⟩

/-- What a reference reading does to the channel's record (R17). -/
theorem takeReference_chan (isRef : rd.isRef = true) :
    let t := takeAnalog (s.onChan q (arrived s q src) []) q e rd
    ((s.chan q).awaiting = none → t.chan q = arrived s q src)
    ∧ ∀ x y d, (s.chan q).awaiting = some d → e.expected = some x → e.tolerance = some y →
      if rd.range = true ∨ x + y < rd.raw ∨ rd.raw + y < x then
        if (s.chan q).quality = .suspect then t.chan q = { arrived s q src with awaiting := none }
        else t.chan q = { arrived s q src with awaiting := none, quality := .suspect, holdAt := none }
          ∧ .recordSubmission (.sensorSuspect q .reference) ∈ t.raised
      else if (s.chan q).quality = .suspect then
        if (s.chan q).value = none then
          t.chan q = { arrived s q src with awaiting := none, rejects := 0, recovery := 0, quality := .lost }
        else t.chan q = { arrived s q src with awaiting := none, rejects := 0, recovery := 0, quality := .good }
          ∧ .recordSubmission (.sensorRecovered q .suspect) ∈ t.raised
      else t.chan q = { arrived s q src with awaiting := none } := by
  dsimp only
  unfold takeAnalog
  rw [if_pos isRef]
  unfold takeReference
  dsimp only
  rw [onChan_chan, if_pos rfl]
  refine ⟨fun none_ => ?_, fun x y d awaited expected tolerance => ?_⟩
  · have none_' : (arrived s q src).awaiting = none := none_
    simp only [none_', onChan_chan, ↓reduceIte]
  · have awaited' : (arrived s q src).awaiting = some d := awaited
    have fresh : due ({ arrived s q src with awaiting := none } : ChannelRecord).staleAt s.now = false := by
      have positive : 0 < staleOf s src := by
        unfold staleOf
        cases findNode s src with
        | none => dsimp only; cases s.ssu.state <;> decide
        | some c => dsimp only; cases c.recorded <;> decide
      simp [arrived, due, Nat.ne_of_gt positive]
    simp only [awaited', expected, tolerance, setChan_onChan, onChan_onChan, List.nil_append]
    have fails : (rd.range || decide (y < rd.raw - x + (x - rd.raw))) = true
        ↔ rd.range = true ∨ x + y < rd.raw ∨ rd.raw + y < x := by
      rw [Bool.or_eq_true, decide_eq_true_eq]
      constructor
      · rintro (range | far)
        · exact .inl range
        · omega
      · rintro (range | far)
        · exact .inl range
        · right; omega
    by_cases bad : rd.range = true ∨ x + y < rd.raw ∨ rd.raw + y < x
    · rw [if_pos bad, if_pos (fails.mpr bad), enterSuspect_onChan]
      by_cases suspect : (s.chan q).quality = .suspect
      · rw [if_pos suspect, if_pos (show (arrived s q src).quality = .suspect from suspect)]
        simp
      · rw [if_neg suspect, if_neg (show (arrived s q src).quality ≠ .suspect from suspect)]
        simp [suspected]
    · rw [if_neg bad, if_neg (mt fails.mp bad)]
      by_cases suspect : (s.chan q).quality = .suspect
      · rw [if_pos suspect, if_pos (show (arrived s q src).quality = .suspect from suspect), leaveSuspect_onChan _ fresh]
        by_cases none_ : (s.chan q).value = none
        · rw [if_pos none_, if_pos (show (arrived s q src).value = none from none_)]
          simp
        · rw [if_neg none_, if_neg (show (arrived s q src).value ≠ none from none_)]
          simp
      · rw [if_neg suspect, if_neg (show (arrived s q src).quality ≠ .suspect from suspect)]
        simp

/-- What a rejected reading does to the channel's record (R7). -/
theorem rejectReading_chan (plain : rd.isRef = false) (bad : rd.range = true ∨ rd.raw < e.windowLow ∨ e.windowHigh < rd.raw) :
    let t := takeAnalog (s.onChan q (arrived s q src) []) q e rd
    if 3 ≤ satInc 255 (s.chan q).rejects ∧ (s.chan q).quality ≠ .suspect then
      t.chan q = { arrived s q src with
          rejects := satInc 255 (s.chan q).rejects, recovery := 0, quality := .suspect, holdAt := none }
        ∧ .recordSubmission (.sensorSuspect q .rejects) ∈ t.raised
    else t.chan q = { arrived s q src with rejects := satInc 255 (s.chan q).rejects, recovery := 0 } := by
  dsimp only
  unfold takeAnalog
  rw [if_neg (show ¬rd.isRef = true by simp [plain]),
    if_pos (show (rd.range || decide (rd.raw < e.windowLow ∨ e.windowHigh < rd.raw)) = true by
      rw [Bool.or_eq_true, decide_eq_true_eq]; exact bad)]
  unfold rejectReading
  dsimp only
  rw [setChan_onChan, onChan_onChan, onChan_chan, if_pos rfl]
  have count : (arrived s q src).rejects = (s.chan q).rejects := rfl
  rw [count]
  by_cases third : 3 ≤ satInc 255 (s.chan q).rejects
  · rw [if_pos third]
    rw [show ([] : List Instr) ++ [] = [] from rfl, enterSuspect_onChan]
    by_cases suspect : (s.chan q).quality = .suspect
    · rw [if_neg (fun h => h.2 suspect), if_pos (show (arrived s q src).quality = .suspect from suspect)]
      simp
    · rw [if_pos ⟨third, suspect⟩, if_neg (show (arrived s q src).quality ≠ .suspect from suspect)]
      simp [suspected]
  · rw [if_neg (fun h => third h.1), if_neg third]
    simp

end Reading

/-! ## A frame -/

section Frame

variable {s : State} {src : Addr} {payload : List Byte} {q : Quantity} {e : SampleEntry}

theorem exec_sampleFrame (live : s.live = true) {readings : List Reading} (taken : sampleReadings payload = some readings) :
    exec (.sampleFrame src payload) s = .next (State.each (takeReading src) readings s) := by
  apply whenLive_next live
  simp only [taken]

/-- The one reading of a quantity in a frame, seen through the others. -/
theorem each_takeReading_single (before after : List Reading) (rd : Reading)
    (away : ∀ x ∈ before ++ after, ∀ y, entryAt s src x.channel = some y → y.quantity ≠ .name q)
    (found : entryAt s src rd.channel = some e) (kind : e.kind = .analog) (named : e.quantity = .name q) :
    ∃ m t, t = State.each (takeReading src) (before ++ rd :: after) s ∧ Sampled s m ∧ m.chan q = s.chan q
      ∧ arrived m q src = arrived s q src ∧ Sampled m t
      ∧ t.chan q = (takeAnalog (m.onChan q (arrived m q src) []) q e rd).chan q
      ∧ (takeAnalog (m.onChan q (arrived m q src) []) q e rd).raised <+: t.raised
      ∧ entryAt m src rd.channel = some e := by
  have split : State.each (takeReading src) (before ++ rd :: after) s = State.each (takeReading src) after
      (takeReading src (State.each (takeReading src) before s) rd) := each_append _ before (rd :: after) s
  obtain ⟨first, chan⟩ := each_takeReading_away (src := src) (q := q) (rs := before) s
    (fun x mem y at_ _ => away x (List.mem_append_left _ mem) y at_)
  set m := State.each (takeReading src) before s
  have found' : entryAt m src rd.channel = some e := by rw [first.entryAt]; exact found
  have middle : takeReading src m rd = takeAnalog (m.onChan q (arrived m q src) []) q e rd := takeReading_of found' kind named
  obtain ⟨r, es, form⟩ := takeAnalog_form (s := m) (q := q) (r := arrived m q src) (e := e) rd
  have step : Sampled m (takeReading src m rd) := by rw [middle, form]; exact .onChan
  obtain ⟨last, chan'⟩ := each_takeReading_away (src := src) (q := q) (rs := after) (takeReading src m rd)
    (fun x mem y at_ _ => away x (List.mem_append_right _ mem) y (by
      rw [← (first.trans step).entryAt]; exact at_))
  refine ⟨m, _, rfl, first, chan, ?_, ?_, ?_, ?_, found'⟩
  · unfold arrived; rw [chan, first.now, first.staleOf]
  · rw [split]; exact step.trans last
  · rw [split, chan', middle]
  · rw [split, ← middle]; exact last.raised

/-- What becomes of a stored reading: the record and its delivery. -/
theorem stored_is_told {v : Int} {t : State} (stored : t.chan q = restored s (arrived s q src) v)
    (news : told s q (restored s (arrived s q src) v) true ∈ t.raised) :
    (quantityWell q = none → updateEvent t q ⟨(t.chan q).value, (t.chan q).quality, some s.now, true⟩ ∈ t.raised)
    ∧ (∀ w, quantityWell q = some w → ∃ a b,
        .levelSelection q ⟨(t.chan q).value, (t.chan q).quality, some s.now, true⟩ a b ∈ t.raised
          ∧ (q = firstTransducer w → a = ⟨(t.chan q).value, (t.chan q).quality, some s.now, false⟩)
          ∧ (q = secondTransducer w → b = ⟨(t.chan q).value, (t.chan q).quality, some s.now, false⟩)) := by
  set r := restored s (arrived s q src) v with hr
  have at_ : some s.now = r.storedAt := (restored_storedAt v).symm
  rw [stored, at_]
  refine ⟨fun free => ?_, fun w inWell => ?_⟩
  · have same : updateEvent t q ⟨r.value, r.quality, r.storedAt, true⟩ = told s q r true := by
      unfold told
      cases q <;> simp_all [quantityWell, updateEvent]
    rw [same]
    exact news
  · refine ⟨channelView (s.onChan q r []) (firstTransducer w), channelView (s.onChan q r []) (secondTransducer w), ?_, ?_, ?_⟩
    · have same : Instr.levelSelection q ⟨r.value, r.quality, r.storedAt, true⟩
          (channelView (s.onChan q r []) (firstTransducer w)) (channelView (s.onChan q r []) (secondTransducer w))
          = told s q r true := by
        unfold told
        cases q <;> cases inWell <;> rfl
      rw [same]
      exact news
    · rintro rfl; simp [channelView]
    · rintro rfl; simp [channelView]

/-- The five parts of the statement for a reading whose quantity no other reading of the frame has. -/
theorem single_reading (before after : List Reading) (rd : Reading) (live : s.live = true)
    (taken : sampleReadings payload = some (before ++ rd :: after))
    (away : ∀ x ∈ before ++ after, ∀ y, entryAt s src x.channel = some y → y.quantity ≠ .name q)
    (found : entryAt s src rd.channel = some e) (kind : e.kind = .analog) (named : e.quantity = .name q) :
    ∃ m t, exec (.sampleFrame src payload) s = .next t ∧ Sampled s m ∧ m.chan q = s.chan q
      ∧ arrived m q src = arrived s q src
      ∧ t.chan q = (takeAnalog (m.onChan q (arrived m q src) []) q e rd).chan q
      ∧ (takeAnalog (m.onChan q (arrived m q src) []) q e rd).raised <+: t.raised
      ∧ entryAt m src rd.channel = some e := by
  obtain ⟨m, t, rfl, same, chan, arr, -, chan', news, found'⟩ :=
    each_takeReading_single before after rd away found kind named
  exact ⟨m, _, exec_sampleFrame live taken, same, chan, arr, chan', news, found'⟩

/-- Two stored readings of a quantity in one frame. -/
theorem two_readings (before between after : List Reading) (x y : Reading) (live : s.live = true)
    (taken : sampleReadings payload = some (before ++ x :: between ++ y :: after))
    (away : ∀ z ∈ before ++ between ++ after, ∀ e', entryAt s src z.channel = some e' → e'.quantity ≠ .name q)
    (found : entryAt s src x.channel = some e) (channel : y.channel = x.channel) (kind : e.kind = .analog)
    (named : e.quantity = .name q)
    (plain : ∀ z, z = x ∨ z = y → z.isRef = false ∧ z.range = false ∧ e.windowLow ≤ z.raw ∧ z.raw ≤ e.windowHigh)
    (clear : blanked s q = false) : ∃ m n t, exec (.sampleFrame src payload) s = .next t
      ∧ Sampled s m ∧ Sampled s n
      ∧ m.chan q = s.chan q
      ∧ n.chan q = restored m (arrived m q src) (levelOf e x.raw)
      ∧ t.chan q = restored n (arrived n q src) (levelOf e y.raw)
      ∧ ∃ early middle late, t.raised = early
          ++ told m q (restored m (arrived m q src) (levelOf e x.raw)) true
            :: recoveryNews q (m.chan q).quality (restored m (arrived m q src) (levelOf e x.raw)).quality
          ++ middle
          ++ told n q (restored n (arrived n q src) (levelOf e y.raw)) true
            :: recoveryNews q (n.chan q).quality (restored n (arrived n q src) (levelOf e y.raw)).quality
          ++ late := by
  refine ⟨State.each (takeReading src) before s,
    State.each (takeReading src) between (takeReading src (State.each (takeReading src) before s) x), _,
    exec_sampleFrame live taken, ?_⟩
  have walk : State.each (takeReading src) (before ++ x :: between ++ y :: after) s
      = State.each (takeReading src) after (takeReading src
        (State.each (takeReading src) between (takeReading src (State.each (takeReading src) before s) x)) y) := by
    rw [each_append, each_append]
    rfl
  rw [walk]
  obtain ⟨same, chan⟩ := each_takeReading_away (src := src) (q := q) (rs := before) s
    (fun z mem y at_ _ => away z (List.mem_append_left _ (List.mem_append_left _ mem)) y at_)
  set m := State.each (takeReading src) before s
  have first := takeReading_stores (s := m) (src := src) (rd := x) (by rw [same.entryAt]; exact found) kind named
    (plain x (.inl rfl)).1 (plain x (.inl rfl)).2 (by rw [same.blanked]; exact clear)
  have step : Sampled s (takeReading src m x) := same.trans (by rw [first]; exact .onChan)
  obtain ⟨same', chan'⟩ := each_takeReading_away (src := src) (q := q) (rs := between) (takeReading src m x)
    (fun z mem y at_ _ => away z (List.mem_append_left _ (List.mem_append_right _ mem)) y (by
      rw [← step.entryAt]; exact at_))
  set n := State.each (takeReading src) between (takeReading src m x)
  have toN : Sampled s n := step.trans same'
  have second := takeReading_stores (s := n) (src := src) (rd := y) (by rw [toN.entryAt, channel]; exact found) kind named
    (plain y (.inr rfl)).1 (plain y (.inr rfl)).2 (by rw [toN.blanked]; exact clear)
  have step' : Sampled s (takeReading src n y) := toN.trans (by rw [second]; exact .onChan)
  obtain ⟨same'', chan''⟩ := each_takeReading_away (src := src) (q := q) (rs := after) (takeReading src n y)
    (fun z mem y at_ _ => away z (List.mem_append_right _ mem) y (by rw [← step'.entryAt]; exact at_))
  refine ⟨same, toN, chan, ?_, ?_, ?_⟩
  · rw [chan', first, onChan_chan, if_pos rfl]
  · rw [chan'', second, onChan_chan, if_pos rfl]
  · obtain ⟨middle, middleEq⟩ := same'.raised
    obtain ⟨late, lateEq⟩ := same''.raised
    refine ⟨m.raised, middle, late, ?_⟩
    rw [← lateEq, second, onChan_raised, ← middleEq, first, onChan_raised]

end Frame

theorem Sampled.arrived {s m : State} (h : Sampled s m) {q : Quantity} (chan : m.chan q = s.chan q) (src : Nat) :
    Machine.arrived m q src = Machine.arrived s q src := by
  unfold Machine.arrived; rw [chan, h.now, h.staleOf]

theorem Sampled.restored {s m : State} (h : Sampled s m) (r : ChannelRecord) (v : Int) :
    Machine.restored m r v = Machine.restored s r v := by
  unfold Machine.restored; rw [h.now]

/-- Settles O19. -/
theorem readingsAreTaken : Obligations.ReadingsAreTaken := by
  unfold Obligations.ReadingsAreTaken
  intro src s live
  refine ⟨?_, ?_, ?_, ?_, ?_⟩
  · intro payload bad
    apply whenLive_next live
    simp only [sampleReadings_of_bad bad]
  · intro first rest firstWhole restWhole firstSome restSome short
    obtain ⟨xs, readXs, takenXs⟩ := sampleReadings_of_whole firstWhole firstSome (by omega)
    obtain ⟨ys, readYs, takenYs⟩ := sampleReadings_of_whole restWhole restSome (by omega)
    obtain ⟨zs, readZs, takenZs⟩ := sampleReadings_of_whole (payload := first ++ rest)
      (by rw [List.length_append]; omega) (by simp [firstSome]) (by rw [List.length_append]; exact short)
    rw [readingsOf_append first rest firstWhole, readXs, readYs] at readZs
    obtain rfl : xs ++ ys = zs := Option.some.inj readZs
    have same := each_sampled (src := src) (rs := xs) s
    refine ⟨_, _, exec_sampleFrame live takenXs, same.now, exec_sampleFrame (same.live.trans live) takenYs, ?_⟩
    rw [exec_sampleFrame live takenZs, each_append]
  · intro payload readings q taken away
    exact ⟨_, exec_sampleFrame live taken, (each_takeReading_away s away).2⟩
  · intro payload before between after x y e q v taken away found channel kind named plain clear level
    obtain ⟨m, n, t, step, same, same', chan, chan', chan'', early, middle, late, news⟩ :=
      two_readings before between after x y live taken away found channel kind named plain clear
    subst level
    rw [same.arrived chan, same.restored] at chan' news
    set r₁ := restored s (arrived s q src) (levelOf e x.raw) with hr₁
    have base : arrived n q src = { r₁ with arrivedAt := some s.now, staleAt := some (s.now + staleOf s src) } := by
      unfold arrived; rw [chan', same'.now, same'.staleOf]
    rw [same'.restored] at chan'' news
    set r₂ := restored s (arrived n q src) (levelOf e y.raw) with hr₂
    have arrivedIs : (arrived n q src).arrivedAt = some s.now := by rw [base]
    obtain ⟨settled₁, out₁⟩ := restored_quality (s := s) (r := arrived s q src) (levelOf e x.raw)
    obtain ⟨settled₂, out₂⟩ := restored_quality (s := s) (r := arrived n q src) (levelOf e y.raw)
    rw [← hr₁] at settled₁ out₁
    rw [← hr₂] at settled₂ out₂
    have quality₁ : (arrived n q src).quality = r₁.quality := by rw [base]
    have recovery₁ : (arrived n q src).recovery = r₁.recovery := by rw [base]
    have hold₁ : (arrived n q src).holdAt = r₁.holdAt := by rw [base]
    rw [quality₁, recovery₁, hold₁] at settled₂ out₂
    have stays : (s.chan q).quality = .good ∨ (s.chan q).quality = .suspect → r₂.quality = (s.chan q).quality
        ∧ r₁.quality = (s.chan q).quality := by
      intro settled
      have kept : r₁.quality = (s.chan q).quality := (settled₁ settled).1
      exact ⟨(settled₂ (by rw [kept]; exact settled)).1.trans kept, kept⟩
    have recovers : (s.chan q).quality = .held ∨ (s.chan q).quality = .lost →
        (r₂.quality = .good ∧ r₂.recovery = 0 ∧ r₂.holdAt = none)
        ∧ r₁.quality = if (s.chan q).recovery = 0 then (s.chan q).quality else .good := by
      intro out
      have one := out₁ out
      split at one
      · next zero =>
        obtain ⟨kept, counted, -⟩ := one
        have two := out₂ (by rw [kept]; exact out)
        rw [if_neg (by rw [counted]; decide)] at two
        exact ⟨two, by rw [if_pos (show (s.chan q).recovery = 0 from zero)]; exact kept⟩
      · next more =>
        obtain ⟨good, zero, hold⟩ := one
        obtain ⟨two, two', two''⟩ := settled₂ (.inl good)
        exact ⟨⟨two.trans good, two'.trans zero, two''.trans hold⟩,
          by rw [if_neg (show ¬(s.chan q).recovery = 0 from more)]; exact good⟩
    refine ⟨t, step, ?_, ?_, ?_, ?_, ?_, ?_, ?_, ?_⟩
    · rw [chan'', hr₂, restored_value]; rfl
    · rw [chan'', hr₂, restored_storedAt]
    · rw [chan'', hr₂, restored_arrivedAt, arrivedIs]
    · rw [chan'', hr₂, restored_rejects]
    · intro settled; rw [chan'']; exact (stays settled).1
    · intro out; rw [chan'']; exact (recovers out).1
    · intro lost
      obtain ⟨⟨good, -⟩, first⟩ := recovers (.inr lost)
      rw [news]
      by_cases zero : (s.chan q).recovery = 0
      · rw [if_pos zero] at first
        simp [recoveryNews, chan', first, lost, good]
      · rw [if_neg zero] at first
        simp [recoveryNews, chan, first, lost]
    · rw [chan'']
      refine ⟨told m q r₁ true, told n q r₂ true, early,
        recoveryNews q (m.chan q).quality r₁.quality ++ middle,
        recoveryNews q (n.chan q).quality r₂.quality ++ late, by rw [news]; simp, ?_, ?_⟩
      · have told₁ := told_delivers (s := m) (q := q) (r := r₁) true
        rw [show r₁.value = _ from restored_value _, show r₁.storedAt = _ from restored_storedAt _] at told₁
        have quality : r₁.quality = if (s.chan q).recovery = 0 then (s.chan q).quality else r₂.quality := by
          cases is : (s.chan q).quality with
          | good => obtain ⟨two, one⟩ := stays (.inl is); rw [one, two, is]; simp
          | suspect => obtain ⟨two, one⟩ := stays (.inr is); rw [one, two, is]; simp
          | held => obtain ⟨⟨two, -⟩, one⟩ := recovers (.inl is); rw [one, two, is]
          | lost => obtain ⟨⟨two, -⟩, one⟩ := recovers (.inr is); rw [one, two, is]
        rw [quality] at told₁
        exact told₁
      · have told₂ := told_delivers (s := n) (q := q) (r := r₂) true
        rw [show r₂.value = _ from restored_value _, show r₂.storedAt = _ from restored_storedAt _] at told₂
        exact told₂
  · intro payload before after rd e q r taken away found kind named rEq
    obtain ⟨m, t, step, same, chan, arr, chan', news, found'⟩ := single_reading before after rd live taken away found kind named
    have rEq : r = arrived s q src := rEq
    subst rEq
    have clearM := same.blanked q
    refine ⟨t, step, ?_, ?_, ?_, ?_, ?_⟩
    · intro isRef none_
      rw [chan', (takeReference_chan isRef).1 (by rw [chan]; exact none_), arr]
    · intro x y d isRef awaited expected tolerance
      have spec := (takeReference_chan (s := m) (q := q) (src := src) (e := e) isRef).2 x y d (by rw [chan]; exact awaited)
        expected tolerance
      rw [arr] at chan' news
      simp only [chan, arr, ← chan'] at spec
      split_ifs at spec ⊢
      · exact spec
      · exact ⟨spec.1, news.subset spec.2⟩
      · exact spec
      · exact ⟨spec.1, news.subset spec.2⟩
      · exact spec
    · intro plain bad
      have spec := rejectReading_chan (s := m) (q := q) (src := src) (e := e) plain bad
      rw [arr] at chan' news
      simp only [chan, arr, ← chan'] at spec
      split_ifs at spec ⊢
      · exact ⟨spec.1, news.subset spec.2⟩
      · exact spec
    · intro plain inRange low high blind
      rw [chan', arr]
      unfold takeAnalog
      have blind' : blanked (m.onChan q (arrived s q src) []) q = true := clearM.trans blind
      rw [if_neg (by simp [plain]), if_neg (by simp [inRange]; omega), if_pos blind', setChan_onChan, onChan_onChan,
        onChan_chan, if_pos rfl, onChan_chan, if_pos rfl]
    · intro plain inRange low high clear
      have taken := takeReading_stores (s := m) found' kind named plain ⟨inRange, low, high⟩ (clearM.trans clear)
      rw [takeReading_of found' kind named] at taken
      rw [taken, onChan_chan, if_pos rfl, arr, same.restored] at chan'
      rw [taken, arr, same.restored] at news
      set r' := restored s (arrived s q src) (levelOf e rd.raw) with hr'
      obtain ⟨settled, out⟩ := restored_quality (s := s) (r := arrived s q src) (levelOf e rd.raw)
      rw [← hr'] at settled out
      have told' : told m q r' true ∈ t.raised := news.subset (by simp)
      have sold := stored_is_told (s := m) (src := src) (t := t) (v := levelOf e rd.raw) (q := q)
        (by rw [chan', hr', arr, same.restored]) (by rw [arr, same.restored]; exact told')
      rw [same.now] at sold
      refine ⟨?_, ?_, ?_, ?_, sold⟩
      · rw [chan', hr', restored_value]; rfl
      · rw [chan', hr']; unfold restored; rw [recovered_eq]
      · intro quiet; rw [chan']; exact settled quiet
      · intro outside
        have done := out outside
        rw [chan']
        split at done
        · next zero => rw [if_pos (show (s.chan q).recovery = 0 from zero)]; exact done
        · next more =>
          rw [if_neg (show ¬(s.chan q).recovery = 0 from more)]
          refine ⟨done.1, done.2.1, done.2.2, fun lost => news.subset ?_⟩
          simp [recoveryNews, chan, lost, done.1]

end Sys2Proof.Machine
end


section
/-! PROOF. Wells: flows, integration and selection. -/

namespace Sys2Proof.Machine

/-! ## Pumps that count, and their flows (R29, R30, R32) -/

theorem countsRunning_iff {r : PumpRecord} : countsRunning r = true ↔ CountsRunning r := by
  unfold countsRunning CountsRunning
  generalize r.state = state
  generalize r.lastReport = report
  cases state with
  | unavailable reason => cases reason <;> cases report <;> simp [and_assoc, or_assoc]
  | _ => cases report <;> simp

theorem riverLevel_eq (s : State) : riverLevel s = (match (s.chan .riv).quality, (s.chan .riv).value with
    | .good, some x => x
    | .held, some x => x
    | _, _ => s.setup.riverFallback) := by
  unfold riverLevel riverFrom usable usableValue
  cases (s.chan .riv).quality <;> cases (s.chan .riv).value <;> rfl

theorem newFlowSet_get (s : State) (w : Well) (p : Pump) : (newFlowSet s w).get p =
    if s.wellOf p = some w ∧ countsRunning (s.pump p) = true then pumpFlow (wmuCurves s w) (headOf s w) p (speedUsed s p) else 0 := by
  unfold newFlowSet
  rw [PerPump.get_make]

/-- The flow of a pump by its curve (R30). -/
theorem pumpFlow_of_head {bank : Option PumpCurves} {level : Nat} {p : Pump} {speed head : Nat} {curve : Option (List Nat)}
    (scaled : head = level * 10000 / (speed * speed)) (curveIs : curve = bank.map fun t => t.drop (9 * p.index)) :
    (curve = none ∨ 16000 < head → pumpFlow bank (some level) p speed = 0)
    ∧ ∀ (points : List Nat) (i f : Nat), curve = some points → head ≤ 16000 → head = 2000 * i + f → i ≤ 7 →
      (f < 2000 ∨ i = 7) → pumpFlow bank (some level) p speed =
        (truncDiv (((points.getD i 0 : Int)
          + truncDiv (((points.getD (i + 1) 0 : Int) - (points.getD i 0 : Nat)) * f) 2000) * speed) 100).toNat := by
  subst scaled curveIs
  cases bank with
  | none => exact ⟨fun _ => rfl, fun points i f h => by cases h⟩
  | some t =>
    refine ⟨fun out => ?_, fun points i f is low at_ small tail => ?_⟩
    · have high : 16000 < level * 10000 / (speed * speed) := out.resolve_left (by simp)
      unfold pumpFlow flowOn
      dsimp only
      rw [if_pos high]
    · obtain rfl : t.drop (9 * p.index) = points := Option.some.inj is
      have index : min (level * 10000 / (speed * speed) / 2000) 7 = i := by omega
      have rest : level * 10000 / (speed * speed) - 2000 * i = f := by omega
      unfold pumpFlow flowOn
      dsimp only
      rw [if_neg (Nat.not_lt.mpr low), index, rest]
      have point : ∀ j, j < 9 → pointAt (curveOf t p) j = (t.drop (9 * p.index)).getD j 0 := by
        intro j bound
        unfold pointAt curveOf
        rw [List.getD_eq_getElem?_getD, List.getD_eq_getElem?_getD, List.getElem?_take_of_lt bound]
      rw [point i (by omega), point (i + 1) (by omega)]

/-! ## Integration (R33) -/

/-- A Well Record after an integration event. -/
def integrated (s : State) (w : Well) : WellRecord :=
  { addPumped (s.well w) s.now with flowSet := newFlowSet s w, integratedAt := some s.now }

theorem addPumped_eq (r : WellRecord) (now : Ms) : addPumped r now = { r with
    pumpedLitres := (addPumped r now).pumpedLitres, remainder := (addPumped r now).remainder } := by
  unfold addPumped
  split
  · rfl
  · rfl

theorem addPumped_litres (r : WellRecord) (now : Ms) :
    (∀ d, r.integratedAt = some d → (addPumped r now).pumpedLitres * 1000 + (addPumped r now).remainder
        = r.pumpedLitres * 1000 + r.remainder + flowSum r.flowSet * (now - d) ∧ (addPumped r now).remainder < 1000)
    ∧ (r.integratedAt = none → (addPumped r now).pumpedLitres = r.pumpedLitres
        ∧ (addPumped r now).remainder = r.remainder) := by
  unfold addPumped
  refine ⟨fun d at_ => ?_, fun never => ?_⟩
  · simp only [at_]
    omega
  · simp only [never, and_self]

theorem integrate_eq (s : State) (w : Well) : integrate s w =
    if (s.well w).level.isSome = true then s.setWell w (integrated s w) else s := rfl

theorem integrate_well (s : State) (w v : Well) : (integrate s w).well v =
    if v = w ∧ (s.well w).level.isSome = true then integrated s w else s.well v := by
  rw [integrate_eq]
  by_cases level : (s.well w).level.isSome = true
  · rw [if_pos level, State.well_setWell]; simp [level]
  · rw [if_neg level]; simp [level]

/-- Which parts of a state an integration leaves. -/
theorem integrate_frame (s : State) (w : Well) : integrate s w = { s with wells := (integrate s w).wells } := by
  rw [integrate_eq]
  split
  · rfl
  · rfl

/-- The new flow set after another well's integration. -/
theorem integrated_after (s : State) (w v : Well) (apart : v ≠ w) : integrated (integrate s w) v = integrated s v := by
  have same : (integrate s w).well v = s.well v := by rw [integrate_well, if_neg (fun h => apart h.1)]
  have flows : newFlowSet (integrate s w) v = newFlowSet s v := by
    unfold newFlowSet wmuCurves headOf
    rw [same]
    rw [integrate_frame]
    rfl
  unfold integrated
  rw [same, flows]
  rw [integrate_frame]

/-- The wells of a pump flow notice. -/
theorem pumpFlowNotice_well {p : Pump} {left : Option Well} {s : State} (live : s.live = true) : ∃ t,
    exec (.pumpFlowNotice p left) s = .next t ∧ t.raised = s.raised
    ∧ ∀ v, t.well v = if (s.wellOf p = some v ∨ left = some v) ∧ (s.well v).level.isSome = true then integrated s v
        else s.well v := by
  have step : exec (.pumpFlowNotice p left) s = .next (match s.wellOf p with
      | some w => integrate (match left with
        | some x => if s.wellOf p = some x then s else integrate s x
        | none => s) w
      | none => match left with
        | some x => if s.wellOf p = some x then s else integrate s x
        | none => s) := by
    apply whenLive_next live
    dsimp only
    have setup : ∀ x, (integrate s x).wellOf p = s.wellOf p := by intro x; rw [integrate_frame]; rfl
    cases left with
    | none => rfl
    | some x =>
      dsimp only
      have same : (if s.wellOf p = some x then s else integrate s x).wellOf p = s.wellOf p := by
        split
        · rfl
        · exact setup x
      rw [same] <;> rfl
  refine ⟨_, step, ?_, ?_⟩
  · cases s.wellOf p with
    | none =>
      cases left with
      | none => rfl
      | some x => simp only [reduceCtorEq, ↓reduceIte]; rw [integrate_frame]
    | some w =>
      cases left with
      | none => dsimp only; rw [integrate_frame]
      | some x =>
        dsimp only
        rw [integrate_frame]
        split
        · rfl
        · dsimp only; rw [integrate_frame]
  · intro v
    cases s.wellOf p with
    | none =>
      cases left with
      | none => simp
      | some x =>
        simp only [reduceCtorEq, ↓reduceIte, integrate_well, false_or, Option.some.injEq]
        by_cases same : v = x
        · subst same; simp
        · simp [same, Ne.symm same]
    | some w =>
      cases left with
      | none =>
        simp only [integrate_well, reduceCtorEq, or_false, Option.some.injEq]
        by_cases same : v = w
        · subst same; simp
        · simp [same, Ne.symm same]
      | some x =>
        simp only [Option.some.injEq]
        by_cases here : w = x
        · subst here
          simp only [↓reduceIte, integrate_well, or_self]
          by_cases same : v = w
          · subst same; simp
          · simp [same, Ne.symm same]
        · simp only [here, ↓reduceIte]
          rw [integrate_well]
          by_cases same : v = w
          · subst same
            have kept : (integrate s x).well v = s.well v := by rw [integrate_well, if_neg (fun h => here h.1)]
            rw [kept, integrated_after s x v here]
            simp
          · rw [if_neg (fun h => same h.1), integrate_well]
            by_cases other : v = x
            · subst other; simp
            · simp [other, Ne.symm same, Ne.symm other]

/-- Settles O25. -/
theorem pumpedVolumeIsIntegrated : Obligations.PumpedVolumeIsIntegrated := by
  unfold Obligations.PumpedVolumeIsIntegrated
  intro p left river s live riverIs
  obtain ⟨t, step, raised, wells⟩ := pumpFlowNotice_well (p := p) (left := left) live
  refine ⟨t, step, raised, fun v away => by rw [wells, if_neg away], fun v level concerned at_ => ?_⟩
  have now : t.well v = integrated s v := by rw [wells, if_pos ⟨concerned, by rw [at_]; rfl⟩]
  obtain ⟨timed, untimed⟩ := addPumped_litres (s.well v) s.now
  rw [now]
  refine ⟨timed, untimed, ?_, ?_, ?_⟩
  · unfold integrated; rw [addPumped_eq]
  · intro q out
    refine (newFlowSet_get s v q).trans (if_neg ?_)
    rintro ⟨inWell, counts⟩
    exact out.elim (· inWell) (· (countsRunning_iff.mp counts))
  · intro q speed head curve inWell counts speedIs headIs curveIs
    have flow : (integrated s v).flowSet.get q = pumpFlow (wmuCurves s v)
        (some (max river s.setup.dischargeInvert - level).toNat) q speed := by
      refine ((newFlowSet_get s v q).trans (if_pos ⟨inWell, countsRunning_iff.mpr counts⟩)).trans ?_
      have used : speedUsed s q = speed := speedIs.symm
      have river' : river = riverLevel s := riverIs.trans (riverLevel_eq s).symm
      unfold headOf
      rw [used, at_, river']
    rw [flow]
    refine pumpFlow_of_head headIs ?_
    rw [curveIs]
    unfold wmuCurves curvesBank
    cases (s.well v).pendingCurves <;> cases curvesScheduled s <;> cases s.tables.pumpCurves.isEmpty <;> rfl

/-! ## Selection (R21 to R25) -/

section Selection

variable {s : State} {w : Well} {q : Quantity} {u first second : ChannelUpdate}

/-- The Well Record of a selection, before the integration. -/
def selectedRecord (s : State) (w : Well) (q : Quantity) (u first second : ChannelUpdate) : WellRecord :=
  applySelection s w (takeFloat w q u (s.well w))
    (selectLevel first second (s.setup.disagreement.get w) (takeFloat w q u (s.well w)).level)

/-- The state of a selection, before the integration. -/
def selecting (s : State) (w : Well) (q : Quantity) (u first second : ChannelUpdate) : State :=
  s.setWell w (selectedRecord s w q u first second)

/-- The Well Record that a selection delivers. -/
def deliveredRecord (s : State) (w : Well) (q : Quantity) (u first second : ChannelUpdate) : WellRecord :=
  if (selectedRecord s w q u first second).level.isSome = true then integrated (selecting s w q u first second) w
  else selectedRecord s w q u first second

theorem takeFloat_eq (r : WellRecord) : takeFloat w q u r = { r with
    highFloat := if q = highFloatOf w then floatOf u else r.highFloat
    lowFloat := if q = lowFloatOf w then floatOf u else r.lowFloat } := by
  have apart : highFloatOf w ≠ lowFloatOf w := by cases w <;> decide
  unfold takeFloat
  split
  · next high => subst high; simp [apart]
  · split
    · rfl
    · rfl

theorem applySelection_eq (r : WellRecord) (x : Selection) : applySelection s w r x = { r with
    level := x.level, quality := x.quality, episode := nextEpisode r.episode x.apart s.now
    volume := match x.level with | some level => (wellVolume s w level).1 | none => r.volume
    aboveTable := match x.level with | some level => (wellVolume s w level).2 | none => r.aboveTable } := by
  unfold applySelection
  cases x.level <;> rfl

theorem integrated_raised (es : List Instr) (v : Well) :
    integrated { s with raised := es } v = integrated s v := rfl

/-- The four deliveries of a Well Record. -/
def deliveries (w : Well) (r : WellRecord) : List Instr :=
  [.wellRecordDeliveryDc w (deliveryOf r), .wellRecordDeliverySc w (deliveryOf r), .wellRecordDeliveryOa w (deliveryOf r),
    .wellRecordDeliverySsu w (deliveryOf r)]

theorem selectionEvent_eq : selectionEvent s w q u first second = { s with
    wells := s.wells.set w (deliveredRecord s w q u first second)
    raised := s.raised ++ (if contradicted s.setup w (selectedRecord s w q u first second) = true
        then [contradictionEvent w first second] else []) ++ deliveries w (deliveredRecord s w q u first second) } := by
  have body : selectionEvent s w q u first second = deliverWell (integrate
      ((selecting s w q u first second).raiseIf
        (contradicted s.setup w ((selecting s w q u first second).well w)) (contradictionEvent w first second)) w) w := rfl
  have record : (selecting s w q u first second).well w = selectedRecord s w q u first second := by
    unfold selecting; rw [State.well_setWell, if_pos rfl]
  have raised : (selecting s w q u first second).raiseIf
      (contradicted s.setup w (selectedRecord s w q u first second)) (contradictionEvent w first second)
      = { selecting s w q u first second with
          raised := s.raised ++ (if contradicted s.setup w (selectedRecord s w q u first second) = true
            then [contradictionEvent w first second] else []) } := by
    unfold State.raiseIf
    split
    · rfl
    · rw [List.append_nil]; rfl
  rw [body, record, raised, integrate_eq]
  change deliverWell (if ((selecting s w q u first second).well w).level.isSome = true then _ else _) w = _
  rw [record, integrated_raised]
  unfold deliveredRecord
  have twice : ∀ (x y : WellRecord), (s.wells.set w x).set w y = s.wells.set w y := by intro x y; cases w <;> rfl
  split
  · unfold deliverWell
    rw [State.well_setWell, if_pos rfl]
    simp only [State.setWell, State.raiseAll, selecting, twice, deliveries]
  · unfold deliverWell
    change State.raiseAll _ [.wellRecordDeliveryDc w (deliveryOf ((selecting s w q u first second).well w)),
      .wellRecordDeliverySc w (deliveryOf ((selecting s w q u first second).well w)),
      .wellRecordDeliveryOa w (deliveryOf ((selecting s w q u first second).well w)),
      .wellRecordDeliverySsu w (deliveryOf ((selecting s w q u first second).well w))] = _
    rw [record]
    simp only [State.raiseAll, selecting, State.setWell, deliveries]

theorem selectionEvent_raised : (selectionEvent s w q u first second).raised = s.raised
    ++ (if contradicted s.setup w (selectedRecord s w q u first second) = true then [contradictionEvent w first second] else [])
    ++ deliveries w (deliveredRecord s w q u first second) := by rw [selectionEvent_eq]

theorem exec_levelSelection (live : s.live = true) (inWell : quantityWell q = some w) :
    exec (.levelSelection q u first second) s = .next (selectionEvent s w q u first second) := by
  apply whenLive_next live
  simp only [inWell]

/-! ### The rows of R22 -/

/-- The selection of a state and an update. -/
def selectionOf (s : State) (w : Well) (first second : ChannelUpdate) : Selection :=
  selectLevel first second (s.setup.disagreement.get w) (s.well w).level

theorem selectedRecord_eq : selectedRecord s w q u first second = { s.well w with
    highFloat := if q = highFloatOf w then floatOf u else (s.well w).highFloat
    lowFloat := if q = lowFloatOf w then floatOf u else (s.well w).lowFloat
    level := (selectionOf s w first second).level, quality := (selectionOf s w first second).quality
    episode := nextEpisode (s.well w).episode (selectionOf s w first second).apart s.now
    volume := match (selectionOf s w first second).level with
      | some level => (wellVolume s w level).1 | none => (s.well w).volume
    aboveTable := match (selectionOf s w first second).level with
      | some level => (wellVolume s w level).2 | none => (s.well w).aboveTable } := by
  unfold selectedRecord
  rw [applySelection_eq, takeFloat_eq]
  rfl

/-- What the integration of a delivery leaves of the selected record. -/
theorem deliveredRecord_eq : deliveredRecord s w q u first second = { selectedRecord s w q u first second with
    pumpedLitres := (deliveredRecord s w q u first second).pumpedLitres
    remainder := (deliveredRecord s w q u first second).remainder
    flowSet := (deliveredRecord s w q u first second).flowSet
    integratedAt := (deliveredRecord s w q u first second).integratedAt } := by
  unfold deliveredRecord
  split
  · unfold integrated
    rw [addPumped_eq]
    unfold selecting
    rw [State.well_setWell, if_pos rfl]
  · rfl

end Selection

end Sys2Proof.Machine
end


section
/-! PROOF. Wells: the rows of a selection. -/

namespace Sys2Proof.Machine

section Rows

variable {first second x y : ChannelUpdate} {limit : Int} {before : Option Int}

theorem goodValue_of_good {a : Int} (good : x.quality = .good) (value : x.value = some a) : goodValue x = some a := by
  simp [goodValue, good, value]
theorem goodValue_of_not (other : x.quality ≠ .good) : goodValue x = none := by simp [goodValue, other]
theorem heldValue_of_held {a : Int} (held : x.quality = .held) (value : x.value = some a) :
    heldValue x = some (a, x.storedAt.getD 0) := by simp [heldValue, held, value]
theorem heldValue_of_not (other : x.quality ≠ .held) : heldValue x = none := by simp [heldValue, other]

/-- Rows 1 and 2 of R22. -/
theorem selectLevel_both {a b : Int} (goodA : goodValue first = some a) (goodB : goodValue second = some b) :
    selectLevel first second limit before =
      if a - b ≤ limit ∧ b - a ≤ limit then ⟨some ((a + b) / 2), .good, false⟩ else ⟨some (max a b), .good, true⟩ := by
  unfold selectLevel
  simp only [goodA, goodB, max_le_iff]

/-- Row 3 of R22. -/
theorem selectLevel_one {a : Int} (which : x = first ∧ y = second ∨ x = second ∧ y = first)
    (good : goodValue x = some a) (other : goodValue y = none) :
    selectLevel first second limit before = ⟨some a, .good, false⟩ := by
  unfold selectLevel
  rcases which with ⟨rfl, rfl⟩ | ⟨rfl, rfl⟩
  · simp only [good, other]
  · simp only [good, other]

/-- Row 4 of R22. -/
theorem selectLevel_held {a b : Int} {c d : Ms} (bad : goodValue first = none) (bad' : goodValue second = none)
    (heldA : heldValue first = some (a, c)) (heldB : heldValue second = some (b, d)) :
    selectLevel first second limit before =
      ⟨some (if d < c then a else if c < d then b else max a b), .held, false⟩ := by
  unfold selectLevel
  simp only [bad, bad', heldA, heldB]

/-- Row 5 of R22. -/
theorem selectLevel_held_one {a : Int} {c : Ms} (which : x = first ∧ y = second ∨ x = second ∧ y = first)
    (bad : goodValue x = none) (bad' : goodValue y = none) (held : heldValue x = some (a, c)) (other : heldValue y = none) :
    selectLevel first second limit before = ⟨some a, .held, false⟩ := by
  unfold selectLevel
  rcases which with ⟨rfl, rfl⟩ | ⟨rfl, rfl⟩
  · simp only [bad, bad', held, other]
  · simp only [bad, bad', held, other]

/-- Row 6 of R22. -/
theorem selectLevel_lost (bad : goodValue first = none) (bad' : goodValue second = none)
    (other : heldValue first = none) (other' : heldValue second = none) :
    selectLevel first second limit before = ⟨before, .lost, false⟩ := by
  unfold selectLevel
  simp only [bad, bad', other, other']

end Rows

theorem floatOf_used {u : ChannelUpdate} {v : Int} (used : u.quality = .good ∨ u.quality = .held) (value : u.value = some v) :
    floatOf u = if v = 1 then .on else .off := by
  unfold floatOf usableUpdate usableValue
  rcases used with good | held
  · simp only [good, value]
  · simp only [held, value]

theorem floatOf_unknown {u : ChannelUpdate} (lost : u.quality = .lost ∨ u.quality = .suspect ∨ u.value = none) :
    floatOf u = .unknown := by
  unfold floatOf usableUpdate usableValue
  rcases lost with lost | suspect | none_
  · simp only [lost]
  · simp only [suspect]
  · rw [none_]; cases u.quality <;> rfl

theorem nextEpisode_false (e : Episode) (now : Ms) : nextEpisode e false now = .none := rfl
theorem nextEpisode_true (e : Episode) (now : Ms) :
    nextEpisode e true now = if e = .none then .timing now else e := by cases e <;> rfl

/-- The volume between two points of a table (R28). -/
theorem volumeOn_between {t : LevelVolume} {level : Int} {i f : Nat} (at_ : level = t.base + t.stepSize * i + f)
    (small : f < t.stepSize) (inside : i < 32) : volumeOn t level =
      (t.volumes.getD i 0 + (t.volumes.getD (i + 1) 0 - t.volumes.getD i 0) * f / t.stepSize, false) := by
  have offset : (level - t.base).toNat = t.stepSize * i + f := by rw [at_]; omega
  have positive : 0 < t.stepSize := by omega
  have index : (t.stepSize * i + f) / t.stepSize = i := by
    rw [Nat.mul_add_div positive, Nat.div_eq_of_lt small, Nat.add_zero]
  have rest : (t.stepSize * i + f) % t.stepSize = f := by rw [Nat.mul_add_mod, Nat.mod_eq_of_lt small]
  have low : ¬level < t.base := by
    have : (0 : Int) ≤ (t.stepSize : Int) * i := by positivity
    omega
  have high : ¬t.base + 32 * (t.stepSize : Int) ≤ level := by
    have bound : t.stepSize * i + t.stepSize ≤ 32 * t.stepSize := by
      calc t.stepSize * i + t.stepSize = (i + 1) * t.stepSize := by ring
        _ ≤ 32 * t.stepSize := Nat.mul_le_mul_right _ inside
    have cast : ((t.stepSize * i + t.stepSize : Nat) : Int) ≤ ((32 * t.stepSize : Nat) : Int) := by exact_mod_cast bound
    push_cast at cast
    omega
  unfold volumeOn
  rw [if_neg low, if_neg high]
  dsimp only
  rw [offset, index, rest]
  rfl

theorem contradicted_iff {t : Setup} {w : Well} {r : WellRecord} {level : Int} (at_ : r.level = some level) :
    contradicted t w r = true ↔ r.quality = .good
      ∧ (r.highFloat = .on ∧ level < t.highFloat.get w - 150 ∨ r.lowFloat = .on ∧ t.lowFloat.get w + 150 < level) := by
  unfold contradicted
  simp [at_]

theorem contradicted_of_none {t : Setup} {w : Well} {r : WellRecord} (none_ : r.level = none) :
    contradicted t w r = false := by
  unfold contradicted
  rw [none_]

/-- The channel of an update is GOOD. -/
theorem contradictionEvent_eq (w : Well) (first second : ChannelUpdate) : contradictionEvent w first second =
    .floatContradiction w (decide (first.quality = .good)) (decide (second.quality = .good)) := by
  unfold contradictionEvent
  cases first.quality <;> cases second.quality <;> rfl

/-- Settles O24. -/
theorem levelIsSelected : Obligations.LevelIsSelected := by
  unfold Obligations.LevelIsSelected
  intro q w u first second T s live inWell table
  refine ⟨_, _, exec_levelSelection live inWell, rfl, ?_⟩
  set t := selectionEvent s w q u first second with ht
  set r := deliveredRecord s w q u first second with hr
  set x := selectionOf s w first second with hx
  have wells : t.wells = s.wells.set w r := by rw [ht, selectionEvent_eq]
  have well : t.well w = r := by unfold State.well; rw [wells, PerWell.get_set, if_pos rfl]
  have form : r = _ := deliveredRecord_eq
  rw [selectedRecord_eq, ← hr, ← hx] at form
  have high : r.highFloat = if q = highFloatOf w then floatOf u else (s.well w).highFloat := by rw [form]
  have low : r.lowFloat = if q = lowFloatOf w then floatOf u else (s.well w).lowFloat := by rw [form]
  have level : r.level = x.level := by rw [form]
  have quality : r.quality = x.quality := by rw [form]
  have episode : r.episode = nextEpisode (s.well w).episode x.apart s.now := by rw [form]
  rw [well]
  refine ⟨?_, ?_, ?_, ?_, ?_, ?_, ?_, ?_, ?_, ?_, ?_, ?_, ?_, ?_, ?_, ?_⟩
  · intro v used value
    rw [high, low, floatOf_used used value]
    exact ⟨fun is => if_pos is, fun is => if_pos is⟩
  · intro lost
    rw [high, low, floatOf_unknown lost]
    exact ⟨fun is => if_pos is, fun is => if_pos is⟩
  · intro other; rw [high, if_neg other]
  · intro other; rw [low, if_neg other]
  · intro a b goodA valueA goodB valueB
    have row : x = _ := selectLevel_both (goodValue_of_good goodA valueA) (goodValue_of_good goodB valueB)
    rw [level, quality, episode, row]
    split
    · exact ⟨rfl, rfl, rfl⟩
    · exact ⟨rfl, rfl, nextEpisode_true _ _⟩
  · intro one two a which good value other
    have row : x = _ := selectLevel_one which (goodValue_of_good good value) (goodValue_of_not other)
    rw [level, quality, episode, row]
    exact ⟨rfl, rfl, rfl⟩
  · intro a b c d heldA valueA storedA heldB valueB storedB
    have row : x = _ := selectLevel_held (goodValue_of_not (by rw [heldA]; decide)) (goodValue_of_not (by rw [heldB]; decide))
      (heldValue_of_held heldA valueA) (heldValue_of_held heldB valueB)
    rw [storedA, storedB] at row
    rw [level, quality, episode, row]
    exact ⟨rfl, rfl, rfl⟩
  · intro one two a which held value other
    have row : x = _ := selectLevel_held_one which (goodValue_of_not (by rw [held]; decide))
      (goodValue_of_not (by rcases other with h | h <;> rw [h] <;> decide)) (heldValue_of_held held value)
      (heldValue_of_not (by rcases other with h | h <;> rw [h] <;> decide))
    rw [level, quality, episode, row]
    exact ⟨rfl, rfl, rfl⟩
  · intro lost lost'
    have row : x = _ := selectLevel_lost (goodValue_of_not (by rcases lost with h | h <;> rw [h] <;> decide))
      (goodValue_of_not (by rcases lost' with h | h <;> rw [h] <;> decide))
      (heldValue_of_not (by rcases lost with h | h <;> rw [h] <;> decide))
      (heldValue_of_not (by rcases lost' with h | h <;> rw [h] <;> decide))
    rw [level, quality, episode, row]
    exact ⟨rfl, rfl, rfl⟩
  · intro never
    have none_ : (selectedRecord s w q u first second).level = none := by
      rw [selectedRecord_eq]; rw [level] at never; exact never
    rw [hr, deliveredRecord, none_, if_neg (by simp), selectedRecord_eq]
    rw [level] at never
    simp only [← hx, never, and_self]
  · intro some_
    have isSome : (selectedRecord s w q u first second).level.isSome = true := by
      rw [selectedRecord_eq]; rw [level] at some_; exact Option.isSome_iff_ne_none.mpr some_
    have now : r = integrated (selecting s w q u first second) w := by rw [hr, deliveredRecord, if_pos isSome]
    have base : (selecting s w q u first second).well w = selectedRecord s w q u first second := by
      unfold selecting; rw [State.well_setWell, if_pos rfl]
    obtain ⟨timed, untimed⟩ := addPumped_litres (selectedRecord s w q u first second) s.now
    have litres : r.pumpedLitres = (addPumped (selectedRecord s w q u first second) s.now).pumpedLitres := by
      rw [now, integrated, base]; rfl
    have remainder : r.remainder = (addPumped (selectedRecord s w q u first second) s.now).remainder := by
      rw [now, integrated, base]; rfl
    rw [litres, remainder]
    rw [selectedRecord_eq] at timed untimed ⊢
    refine ⟨by rw [now]; rfl, timed, untimed, fun p => ?_⟩
    have flow : r.flowSet.get p = if s.wellOf p = some w ∧ countsRunning (s.pump p) = true then
        pumpFlow (wmuCurves s w) (headOf t w) p (speedUsed s p) else 0 := by
      rw [now]
      refine (newFlowSet_get (selecting s w q u first second) w p).trans ?_
      have curves : wmuCurves (selecting s w q u first second) w = wmuCurves s w := by
        unfold wmuCurves; rw [base, selectedRecord_eq]; rfl
      have head : headOf (selecting s w q u first second) w = headOf t w := by
        unfold headOf
        rw [base, well, level, selectedRecord_eq, ht, selectionEvent_eq]
        rfl
      rw [curves, head]
      rfl
    refine ⟨fun out => flow.trans (if_neg ?_), fun inside counts => flow.trans (if_pos ⟨inside, countsRunning_iff.mpr counts⟩)⟩
    rintro ⟨inside, counts⟩
    exact out.elim (· inside) (· (countsRunning_iff.mp counts))
  · rw [ht, selectionEvent_eq]
  · rw [form]
  · intro l at_
    rw [level] at at_
    have volume : r.volume = (wellVolume s w l).1 := by rw [form]; simp only [at_]
    have above : r.aboveTable = (wellVolume s w l).2 := by rw [form]; simp only [at_]
    rw [volume, above]
    have full : T.isEmpty = false → wellVolume s w l = volumeOn T.active l := by
      intro filled; unfold wellVolume; dsimp only; rw [← table, if_neg (by simp [filled])]
    refine ⟨fun empty => ?_, fun filled below => ?_, fun filled beyond => ?_, fun i f filled at' small inside => ?_, ?_⟩
    · unfold wellVolume; dsimp only; rw [← table, if_pos empty]; exact ⟨rfl, rfl⟩
    · rw [full filled, volumeOn, if_pos below]; exact ⟨rfl, rfl⟩
    · have notBelow : ¬l < T.active.base := by omega
      rw [full filled, volumeOn, if_neg notBelow, if_pos beyond]; exact ⟨rfl, rfl⟩
    · rw [full filled, volumeOn_between at' small inside]; exact ⟨rfl, rfl⟩
    · have check : contradicted s.setup w (selectedRecord s w q u first second) = true ↔ r.quality = .good
          ∧ (r.highFloat = .on ∧ l < s.setup.highFloat.get w - 150 ∨ r.lowFloat = .on ∧ s.setup.lowFloat.get w + 150 < l) := by
        rw [contradicted_iff (level := l) (by rw [selectedRecord_eq]; exact at_), high, low, quality, selectedRecord_eq]
      have raised : t.raised = _ := selectionEvent_raised
      rw [contradictionEvent_eq] at raised
      split
      · next now => rw [if_pos (check.mpr now)] at raised; exact raised
      · next quiet => rw [if_neg (mt check.mp quiet), List.append_nil] at raised; exact raised
  · intro never
    rw [level] at never
    have quiet : contradicted s.setup w (selectedRecord s w q u first second) = false :=
      contradicted_of_none (by rw [selectedRecord_eq]; exact never)
    have raised : t.raised = _ := selectionEvent_raised
    rw [quiet, if_neg (by decide), List.append_nil] at raised
    exact raised
  · intro v other
    unfold State.well
    rw [wells, PerWell.get_set, if_neg other]

end Sys2Proof.Machine
end


section
/-! PROOF. Wells: the balance. -/

namespace Sys2Proof.Machine

section Balance

variable {s t u : State} {w v : Well}

theorem PerWell.set_set {α : Type} (f : PerWell α) (w : Well) (x y : α) : (f.set w x).set w y = f.set w y := by
  cases w <;> rfl

/-- What a balance expiry of a well changes beside its record, the tables, the store write and the events. -/
structure Weighs (s t : State) (w : Well) : Prop where
  now : t.now = s.now
  channels : t.channels = s.channels
  pumps : t.pumps = s.pumps
  setup : t.setup = s.setup
  other : ∀ v, v ≠ w → t.well v = s.well v

theorem Weighs.refl : Weighs s s w := ⟨rfl, rfl, rfl, rfl, fun _ _ => rfl⟩
theorem Weighs.trans (h : Weighs s t w) (h' : Weighs t u w) : Weighs s u w :=
  ⟨h'.now.trans h.now, h'.channels.trans h.channels, h'.pumps.trans h.pumps, h'.setup.trans h.setup,
    fun v ne => (h'.other v ne).trans (h.other v ne)⟩

theorem setWell_weighs (r : WellRecord) : Weighs s (s.setWell w r) w :=
  ⟨rfl, rfl, rfl, rfl, fun v ne => by rw [State.well_setWell, if_neg ne]⟩

theorem completeCommit_weighs (id : TableId) (notSetup : id ≠ .stationSetup) : Weighs s (completeCommit s id) w := by
  unfold completeCommit
  split
  · refine ⟨rfl, rfl, rfl, ?_, fun v _ => rfl⟩
    unfold State.setup exchangeTable
    cases id with
    | stationSetup => exact absurd rfl notSetup
    | _ => rfl
  · exact .refl

theorem completeCommit_well (id : TableId) : (completeCommit s id).well v = s.well v := by
  unfold completeCommit; split <;> rfl
theorem completeCommit_raised (id : TableId) : (completeCommit s id).raised = s.raised := by
  unfold completeCommit; split <;> rfl

/-! ## The level-volume switch (R27) -/

/-- The balance volume after a level-volume switch. -/
def switchedBalance (r : WellRecord) (T : LevelVolume) : Option Nat :=
  match r.pendingLevelVolume, r.established, r.balanceLevel with
  | true, true, some b => some (volumeOn T b).1
  | _, _, _ => r.balanceVolume

/-- The volume after a level-volume switch. -/
def switchedVolume (r : WellRecord) (T : LevelVolume) : Nat :=
  match r.pendingLevelVolume, r.level with
  | true, some level => (volumeOn T level).1
  | _, _ => r.volume

/-- The banks after a level-volume switch. -/
def switchedBanks (s : State) (w : Well) : Banks LevelVolume :=
  if (s.well w).pendingLevelVolume then exchange (s.tables.levelVolume.get w) else s.tables.levelVolume.get w

theorem recomputeBalance_well : recomputeBalance s w = s.setWell w { s.well w with
    balanceVolume := match (s.well w).established, (s.well w).balanceLevel with
      | true, some level => some (wellVolume s w level).1
      | _, _ => (s.well w).balanceVolume } := by
  have self : s.setWell w (s.well w) = s := by
    unfold State.setWell State.well; rw [show s.wells.set w (s.wells.get w) = s.wells by cases w <;> rfl]
  unfold recomputeBalance
  cases (s.well w).established with
  | false => exact self.symm
  | true =>
    cases (s.well w).balanceLevel with
    | none => exact self.symm
    | some level => rfl

theorem recomputeVolume_well : recomputeVolume s w = s.setWell w { s.well w with
    volume := match (s.well w).level with | some level => (wellVolume s w level).1 | none => (s.well w).volume
    aboveTable := match (s.well w).level with | some level => (wellVolume s w level).2 | none => (s.well w).aboveTable } := by
  have self : s.setWell w (s.well w) = s := by
    unfold State.setWell State.well; rw [show s.wells.set w (s.wells.get w) = s.wells by cases w <;> rfl]
  unfold recomputeVolume
  cases (s.well w).level with
  | none => exact self.symm
  | some level => rfl

theorem takeLevelVolume_spec {h : ReqHead} {T : Banks LevelVolume} (banks : T = switchedBanks s w)
    (arranged : (s.well w).pendingLevelVolume = true → s.mu.commit = .scheduled (.levelVolume w) h) :
    Weighs s (takeLevelVolume s w) w ∧ (takeLevelVolume s w).raised = s.raised
    ∧ (takeLevelVolume s w).well w = { s.well w with
        pendingLevelVolume := false, volume := switchedVolume (s.well w) T.active
        aboveTable := ((takeLevelVolume s w).well w).aboveTable, balanceVolume := switchedBalance (s.well w) T.active }
    ∧ (takeLevelVolume s w).tables.levelVolume.get w = T
    ∧ ((s.well w).pendingLevelVolume = true → Switched s (takeLevelVolume s w) (.levelVolume w) h)
    ∧ ((s.well w).pendingLevelVolume = false → takeLevelVolume s w = s) := by
  cases pending : (s.well w).pendingLevelVolume with
  | false =>
    have still : takeLevelVolume s w = s := by unfold takeLevelVolume; rw [pending, if_neg (by decide)]
    rw [still]
    refine ⟨.refl, rfl, ?_, ?_, fun now => Bool.noConfusion now, fun _ => rfl⟩
    · unfold switchedVolume switchedBalance
      simp only [pending]
      rw [← pending]
    · rw [banks, switchedBanks, pending, if_neg (by decide)]
  | true =>
    set a := s.setWell w { s.well w with pendingLevelVolume := false } with ha
    have commit : a.mu.commit = .scheduled (.levelVolume w) h := arranged pending
    have switched := completeCommit_switched commit
    set b := completeCommit a (.levelVolume w) with hb
    have taken : takeLevelVolume s w = recomputeVolume (recomputeBalance b w) w := by
      unfold takeLevelVolume; rw [pending, if_pos rfl]
    have banksB : b.tables.levelVolume.get w = T := by
      rw [switched.tables, banks, switchedBanks, pending, if_pos rfl]
      simp [exchangeTable, ha]
    have filled : T.isEmpty = false := by rw [banks, switchedBanks, pending, if_pos rfl]; rfl
    have onTable : ∀ {x : State} (level : Int), x.tables.levelVolume.get w = T →
        wellVolume x w level = volumeOn T.active level := by
      intro x level is
      unfold wellVolume
      dsimp only
      rw [is, filled, if_neg (by decide)]
    have well : b.well w = { s.well w with pendingLevelVolume := false } := by
      rw [hb, completeCommit_well, ha, State.well_setWell, if_pos rfl]
    rw [taken, recomputeVolume_well, recomputeBalance_well]
    refine ⟨?_, ?_, ?_, ?_, fun _ => ⟨?_, ?_⟩, fun now => Bool.noConfusion now⟩
    · exact (((setWell_weighs _).trans (completeCommit_weighs _ (by simp))).trans (setWell_weighs _)).trans (setWell_weighs _)
    · exact completeCommit_raised _
    · rw [State.well_setWell, if_pos rfl, State.well_setWell, if_pos rfl, well]
      unfold switchedVolume switchedBalance
      dsimp only
      simp only [pending]
      congr 1
      · cases (s.well w).level with
        | none => rfl
        | some level => exact congrArg Prod.fst (onTable level banksB)
      · cases (s.well w).established with
        | false => rfl
        | true =>
          cases (s.well w).balanceLevel with
          | none => rfl
          | some level => exact congrArg (fun x => some x.1) (onTable level banksB)
    · exact banksB
    · exact switched.tables
    · exact switched.mu

/-! ## The integration and the curve switch (R33, R40) -/

/-- The litres that an integration event adds. -/
def litresSince (r : WellRecord) (now : Ms) : Nat :=
  match r.level, r.integratedAt with
  | some _, some d => (r.remainder + flowSum r.flowSet * (now - d)) / 1000
  | _, _ => 0

theorem integrate_weighs : Weighs s (integrate s w) w := by
  rw [integrate_eq]
  split
  · exact setWell_weighs _
  · exact .refl

theorem integrate_record : (integrate s w).well w = { s.well w with
    pumpedLitres := (s.well w).pumpedLitres + litresSince (s.well w) s.now
    remainder := ((integrate s w).well w).remainder, flowSet := ((integrate s w).well w).flowSet
    integratedAt := ((integrate s w).well w).integratedAt } := by
  rw [integrate_well]
  unfold litresSince
  cases level : (s.well w).level with
  | none => rw [if_neg (by simp)]; dsimp only; rw [Nat.add_zero]
  | some l =>
    rw [if_pos (by simp)]
    unfold integrated addPumped
    cases timed : (s.well w).integratedAt with
    | none => simp [level]
    | some d => simp [level]

theorem headOf_congr {x y : State} (level : (x.well w).level = (y.well w).level) (channels : x.channels = y.channels)
    (setup : x.setup = y.setup) : headOf x w = headOf y w := by
  unfold headOf riverLevel State.chan
  rw [level, channels, setup]

/-- The state of a well that has taken the new curves, its flow set taken afresh. -/
def newCurves (s : State) (w : Well) : State :=
  (s.setWell w { s.well w with pendingCurves := false }).setWell w
    { s.well w with pendingCurves := false
                    flowSet := newFlowSet (s.setWell w { s.well w with pendingCurves := false }) w }

theorem takeCurves_eq (pending : (s.well w).pendingCurves = true) : takeCurves s w =
    if curvesTaken ((newCurves s w).raise (.curveSwitchNotice w)) = true
    then completeCommit ((newCurves s w).raise (.curveSwitchNotice w)) .pumpCurves
    else (newCurves s w).raise (.curveSwitchNotice w) := by
  unfold takeCurves
  rw [if_pos pending]
  dsimp only
  rw [State.well_setWell, if_pos rfl]
  rfl

theorem newCurves_well : (newCurves s w).well w = { s.well w with
    pendingCurves := false, flowSet := ((newCurves s w).well w).flowSet } := by
  unfold newCurves
  rw [State.well_setWell, if_pos rfl]

theorem newCurves_weighs : Weighs s ((newCurves s w).raise (.curveSwitchNotice w)) w :=
  ((setWell_weighs _).trans (setWell_weighs _)).trans ⟨rfl, rfl, rfl, rfl, fun _ _ => rfl⟩

/-- What a balance expiry does with pending pump curves. -/
theorem takeCurves_spec : Weighs s (takeCurves s w) w
    ∧ (takeCurves s w).raised = s.raised ++ (if (s.well w).pendingCurves then [.curveSwitchNotice w] else [])
    ∧ (takeCurves s w).well w = { s.well w with
        pendingCurves := false, flowSet := ((takeCurves s w).well w).flowSet }
    ∧ (takeCurves s w).tables.levelVolume = s.tables.levelVolume := by
  cases pending : (s.well w).pendingCurves with
  | false =>
    have still : takeCurves s w = s := by unfold takeCurves; rw [pending, if_neg (by decide)]
    rw [still]
    exact ⟨.refl, by simp, by rw [← pending], rfl⟩
  | true =>
    rw [takeCurves_eq pending]
    split
    · refine ⟨newCurves_weighs.trans (completeCommit_weighs _ (by simp)), completeCommit_raised _, ?_, ?_⟩
      · rw [completeCommit_well]; exact newCurves_well
      · unfold completeCommit; split <;> rfl
    · exact ⟨newCurves_weighs, rfl, newCurves_well, rfl⟩

/-- The new flow set, and the completion of the switch by the last well. -/
theorem takeCurves_switches {x : ReqHead} (pending : (s.well w).pendingCurves = true)
    (arranged : s.mu.commit = .scheduled .pumpCurves x) :
    (∀ p, ((takeCurves s w).well w).flowSet.get p = if s.wellOf p = some w ∧ countsRunning (s.pump p) = true then
        pumpFlow (some s.tables.pumpCurves.inactive) (headOf s w) p (speedUsed s p) else 0)
    ∧ ((∃ v, v ≠ w ∧ (s.well v).pendingCurves = true) →
        (takeCurves s w).tables = s.tables ∧ (takeCurves s w).mu = s.mu)
    ∧ ((∀ v, v ≠ w → (s.well v).pendingCurves = false) → Switched s (takeCurves s w) .pumpCurves x) := by
  set a := s.setWell w { s.well w with pendingCurves := false } with ha
  have curves : wmuCurves a w = some s.tables.pumpCurves.inactive := by
    have scheduled : curvesScheduled a = true := by
      unfold curvesScheduled; rw [show a.mu.commit = .scheduled .pumpCurves x from arranged]
    have took : (a.well w).pendingCurves = false := by rw [ha, State.well_setWell, if_pos rfl]
    unfold wmuCurves curvesBank
    rw [scheduled, took]
    rfl
  have head : headOf a w = headOf s w := headOf_congr (by rw [ha, State.well_setWell, if_pos rfl]) rfl rfl
  have flows : ∀ p, ((newCurves s w).well w).flowSet.get p =
      if s.wellOf p = some w ∧ countsRunning (s.pump p) = true then
        pumpFlow (some s.tables.pumpCurves.inactive) (headOf s w) p (speedUsed s p) else 0 := by
    intro p
    have set_ : ((newCurves s w).well w).flowSet = newFlowSet a w := by
      unfold newCurves; rw [State.well_setWell, if_pos rfl]
    rw [set_, newFlowSet_get, curves, head]
    rfl
  have taken : curvesTaken ((newCurves s w).raise (.curveSwitchNotice w)) = true ↔
      ∀ v, v ≠ w → (s.well v).pendingCurves = false := by
    have here : ((newCurves s w).well w).pendingCurves = false := by rw [newCurves_well]
    have away : ∀ v, v ≠ w → ((newCurves s w).well v).pendingCurves = (s.well v).pendingCurves := by
      intro v ne; rw [show (newCurves s w).well v = s.well v from newCurves_weighs.other v ne]
    have both : curvesTaken ((newCurves s w).raise (.curveSwitchNotice w)) = true ↔
        ((newCurves s w).well .a).pendingCurves = false ∧ ((newCurves s w).well .b).pendingCurves = false := by
      unfold curvesTaken; rw [Bool.and_eq_true, Bool.not_eq_true', Bool.not_eq_true']; rfl
    rw [both]
    refine ⟨fun ⟨ha, hb⟩ v ne => ?_, fun all => ⟨?_, ?_⟩⟩
    · rw [← away v ne]; cases v
      · exact ha
      · exact hb
    · cases w
      · exact here
      · rw [away _ (by decide)]; exact all _ (by decide)
    · cases w
      · rw [away _ (by decide)]; exact all _ (by decide)
      · exact here
  rw [takeCurves_eq pending]
  refine ⟨fun p => ?_, fun ⟨v, ne, waits⟩ => ?_, fun all => ?_⟩
  · rw [← flows p]
    split
    · rw [completeCommit_well]; rfl
    · rfl
  · rw [if_neg (fun h => by rw [taken.mp h v ne] at waits; exact Bool.noConfusion waits)]
    exact ⟨rfl, rfl⟩
  · rw [if_pos (taken.mpr all)]
    have switched := completeCommit_switched (s := (newCurves s w).raise (.curveSwitchNotice w)) (id := .pumpCurves)
      (h := x) arranged
    exact ⟨switched.tables, switched.mu⟩

/-- Without a pending pump-curve switch arranged, nothing is exchanged. -/
theorem takeCurves_still (free : ∀ x, s.mu.commit ≠ .scheduled .pumpCurves x) :
    (takeCurves s w).tables = s.tables ∧ (takeCurves s w).mu = s.mu := by
  cases pending : (s.well w).pendingCurves with
  | false =>
    have still : takeCurves s w = s := by unfold takeCurves; rw [pending, if_neg (by decide)]
    rw [still]
    exact ⟨rfl, rfl⟩
  | true =>
    rw [takeCurves_eq pending]
    split
    · have none_ : scheduledReq ((newCurves s w).raise (.curveSwitchNotice w)) .pumpCurves = none := by
        unfold scheduledReq
        change (match s.mu.commit with | .scheduled t' req => if t' = .pumpCurves then some req else none | _ => none) = none
        split
        · next id req is =>
          rw [if_neg]
          rintro rfl
          exact free req is
        · rfl
      unfold completeCommit
      rw [none_]
      exact ⟨rfl, rfl⟩
    · exact ⟨rfl, rfl⟩

theorem takeCurves_idle (idle : (s.well w).pendingCurves = false) : takeCurves s w = s := by
  unfold takeCurves; rw [idle, if_neg (by decide)]

/-! ## The balance (R35 to R37, R41) -/

/-- The record after step 4 of R34. -/
def balanced (s : State) (w : Well) : WellRecord :=
  if (s.tables.levelVolume.get w).isEmpty = true then s.well w
  else match (s.well w).quality, (s.well w).established with
    | .good, false => establishBalance (s.well w) s.now
    | .good, true => computeBalance (s.well w) s.now (s.setup.smoothing.get w).toNat
    | _, _ => { s.well w with inflowGood := false }

theorem balanceStep_eq : balanceStep s w = s.setWell w (balanced s w) := by
  have self : s.setWell w (s.well w) = s := by
    unfold State.setWell State.well; rw [show s.wells.set w (s.wells.get w) = s.wells by cases w <;> rfl]
  unfold balanceStep balanced
  dsimp only
  split
  · exact self.symm
  · cases (s.well w).quality <;> cases (s.well w).established <;> rfl

/-- The state of a balance expiry before its step 4. -/
def weighed (s : State) (w : Well) : State := takeCurves (integrate (takeLevelVolume s w) w) w

theorem balanceEvent_eq : balanceEvent s w = { weighed s w with
    wells := (weighed s w).wells.set w { balanced (weighed s w) w with
      balanceAt := some ((weighed s w).now + balanceMs (weighed s w) w) }
    raised := (weighed s w).raised ++ deliveries w (balanced (weighed s w) w) } := by
  unfold balanceEvent
  dsimp only
  rw [balanceStep_eq]
  change State.setWell (deliverWell ((weighed s w).setWell w (balanced (weighed s w) w)) w) w _ = _
  have record : ((weighed s w).setWell w (balanced (weighed s w) w)).well w = balanced (weighed s w) w := by
    rw [State.well_setWell, if_pos rfl]
  unfold deliverWell
  dsimp only
  rw [record]
  simp only [State.setWell, State.raiseAll, State.well, PerWell.set_set, PerWell.get_set, ↓reduceIte, deliveries]
  rfl

/-- What stands before step 4 of R34. -/
theorem weighed_spec {h : ReqHead} {T : Banks LevelVolume} (banks : T = switchedBanks s w)
    (arranged : (s.well w).pendingLevelVolume = true → s.mu.commit = .scheduled (.levelVolume w) h) :
    Weighs s (weighed s w) w
    ∧ (weighed s w).raised = s.raised ++ (if (s.well w).pendingCurves then [.curveSwitchNotice w] else [])
    ∧ (weighed s w).tables.levelVolume.get w = T
    ∧ (weighed s w).well w = { s.well w with
        pendingLevelVolume := false, pendingCurves := false
        volume := switchedVolume (s.well w) T.active, aboveTable := ((weighed s w).well w).aboveTable
        balanceVolume := switchedBalance (s.well w) T.active
        pumpedLitres := (s.well w).pumpedLitres + litresSince (s.well w) s.now
        remainder := ((weighed s w).well w).remainder, flowSet := ((weighed s w).well w).flowSet
        integratedAt := ((weighed s w).well w).integratedAt } := by
  obtain ⟨first, raised, record, table, -, -⟩ := takeLevelVolume_spec banks arranged
  set a := takeLevelVolume s w
  have second := integrate_weighs (s := a) (w := w)
  have record' := integrate_record (s := a) (w := w)
  obtain ⟨third, raised', record'', table'⟩ := takeCurves_spec (s := integrate a w) (w := w)
  have frame := integrate_frame a w
  have sameRaised : (integrate a w).raised = a.raised := by rw [frame]
  have sameTables : (integrate a w).tables = a.tables := by rw [frame]
  have pending : ((integrate a w).well w).pendingCurves = (s.well w).pendingCurves := by rw [record', record]
  have litres : litresSince (a.well w) a.now = litresSince (s.well w) s.now := by
    rw [record, first.now]; rfl
  refine ⟨(first.trans second).trans third, ?_, ?_, ?_⟩
  · change (takeCurves (integrate a w) w).raised = _
    rw [raised', sameRaised, raised, pending]
  · change (takeCurves (integrate a w) w).tables.levelVolume.get w = T
    rw [table', sameTables, table]
  · rw [record', litres, record] at record''
    change (weighed s w).well w = _ at record''
    rw [record'']

/-- The tables and the store write of a balance expiry with a level-volume switch. -/
theorem weighed_switched {h : ReqHead} {T : Banks LevelVolume} (banks : T = switchedBanks s w)
    (arranged : (s.well w).pendingLevelVolume = true → s.mu.commit = .scheduled (.levelVolume w) h)
    (pending : (s.well w).pendingLevelVolume = true) : Switched s (weighed s w) (.levelVolume w) h := by
  obtain ⟨-, -, -, -, switched, -⟩ := takeLevelVolume_spec banks arranged
  obtain ⟨tables, d, mu, early, late⟩ := switched pending
  have frame := integrate_frame (takeLevelVolume s w) w
  have mu' : (integrate (takeLevelVolume s w) w).mu = { s.mu with commit := .storing (.levelVolume w) h d } := by
    rw [frame]; exact mu
  obtain ⟨tables', mu''⟩ := takeCurves_still (s := integrate (takeLevelVolume s w) w) (w := w) (fun x is => by
    rw [mu'] at is; cases is)
  refine ⟨?_, d, mu''.trans mu', early, late⟩
  refine tables'.trans ?_
  rw [frame]
  exact tables

/-- The curve switch of a balance expiry. -/
theorem weighed_curves {h x : ReqHead} {T : Banks LevelVolume} (banks : T = switchedBanks s w)
    (arranged : (s.well w).pendingLevelVolume = true → s.mu.commit = .scheduled (.levelVolume w) h)
    (pending : (s.well w).pendingCurves = true) (scheduled : s.mu.commit = .scheduled .pumpCurves x) :
    (∀ p, ((weighed s w).well w).flowSet.get p = if s.wellOf p = some w ∧ countsRunning (s.pump p) = true then
        pumpFlow (some s.tables.pumpCurves.inactive) (headOf s w) p (speedUsed s p) else 0)
    ∧ ((∃ v, v ≠ w ∧ (s.well v).pendingCurves = true) → (weighed s w).tables = s.tables ∧ (weighed s w).mu = s.mu)
    ∧ ((∀ v, v ≠ w → (s.well v).pendingCurves = false) → Switched s (weighed s w) .pumpCurves x) := by
  have idle : (s.well w).pendingLevelVolume = false := by
    rw [← Bool.not_eq_true]
    intro both
    rw [arranged both] at scheduled
    cases scheduled
  obtain ⟨-, -, -, -, -, still⟩ := takeLevelVolume_spec banks arranged
  have weighedIs : weighed s w = takeCurves (integrate s w) w := by unfold weighed; rw [still idle]
  have frame := integrate_frame s w
  have mu : (integrate s w).mu = s.mu := by rw [frame]
  have tables : (integrate s w).tables = s.tables := by rw [frame]
  have pumps : (integrate s w).pumps = s.pumps := by rw [frame]
  have now : (integrate s w).now = s.now := by rw [frame]
  have record := integrate_record (s := s) (w := w)
  obtain ⟨flows, waits, done⟩ := takeCurves_switches (s := integrate s w) (w := w) (x := x)
    (by rw [record]; exact pending) (by rw [mu]; exact scheduled)
  have others : ∀ v, v ≠ w → (integrate s w).well v = s.well v := integrate_weighs.other
  rw [weighedIs]
  refine ⟨fun p => ?_, fun ⟨v, ne, is⟩ => ?_, fun all => ?_⟩
  · have head : headOf (integrate s w) w = headOf s w := headOf_congr (by rw [record]) (by rw [frame]) (by rw [frame]; rfl)
    have speed : speedUsed (integrate s w) p = speedUsed s p := by
      unfold speedUsed State.pump State.setup; rw [pumps, tables, now]
    rw [flows p, head, speed, tables]
    unfold State.wellOf State.setup State.pump
    rw [tables, pumps]
  · obtain ⟨sameTables, sameMu⟩ := waits ⟨v, ne, by rw [others v ne]; exact is⟩
    exact ⟨sameTables.trans tables, sameMu.trans mu⟩
  · obtain ⟨switchedTables, d, switchedMu, early, late⟩ := done (fun v ne => by rw [others v ne]; exact all v ne)
    exact ⟨switchedTables.trans (by rw [tables]), d, switchedMu.trans (by rw [mu]), by rw [← now]; exact early,
      by rw [← now]; exact late⟩

end Balance

/-- What step 4 of R34 leaves of a record. -/
theorem balanced_keeps (s : State) (w : Well) : let r := balanced s w
    r.volume = (s.well w).volume ∧ r.level = (s.well w).level ∧ r.pendingLevelVolume = (s.well w).pendingLevelVolume
    ∧ r.pendingCurves = (s.well w).pendingCurves ∧ r.flowSet = (s.well w).flowSet := by
  unfold balanced
  dsimp only
  split
  · exact ⟨rfl, rfl, rfl, rfl, rfl⟩
  · cases (s.well w).quality <;> cases (s.well w).established <;> exact ⟨rfl, rfl, rfl, rfl, rfl⟩

/-- Settles O26. -/
theorem balanceIsComputed : Obligations.BalanceIsComputed := by
  unfold Obligations.BalanceIsComputed
  intro w pumped volume T h s live ripe arranged tableIs volumeIs pumpedIs
  have tableIs : T = switchedBanks s w := tableIs
  have volumeIs : volume = switchedVolume (s.well w) T.active := volumeIs
  have pumpedIs : pumped = (s.well w).pumpedLitres + litresSince (s.well w) s.now := pumpedIs
  obtain ⟨same, raised, table, record⟩ := weighed_spec tableIs arranged
  rw [← volumeIs, ← pumpedIs] at record
  refine ⟨balanceEvent s w, ?_, ?_⟩
  · apply whenDue_next live ripe
    rfl
  have ms : balanceMs (weighed s w) w = (s.setup.balanceInterval.get w).toNat * 1000 := by
    unfold balanceMs; rw [same.setup]
  rw [balanceEvent_eq, ms, same.now]
  set m := weighed s w with hm
  set r := balanced m w with hr
  have well : ({ m with wells := m.wells.set w { r with
      balanceAt := some (s.now + (s.setup.balanceInterval.get w).toNat * 1000) }, raised := m.raised ++ deliveries w r }
      : State).well w = { r with balanceAt := some (s.now + (s.setup.balanceInterval.get w).toNat * 1000) } := by
    unfold State.well; rw [PerWell.get_set, if_pos rfl]
  rw [well]
  dsimp only
  obtain ⟨keepVolume, keepLevel, keepLevelVolume, keepCurves, keepFlows⟩ := balanced_keeps m w
  rw [record] at keepVolume keepLevel keepLevelVolume keepCurves
  have quality : (m.well w).quality = (s.well w).quality := by rw [record]
  have established : (m.well w).established = (s.well w).established := by rw [record]
  refine ⟨rfl, keepVolume, keepLevel, keepLevelVolume, keepCurves, table, ?_, ?_, ?_, ?_, ?_, ?_, ?_⟩
  · intro pending; exact (weighed_switched tableIs arranged pending).mu
  · intro x pending scheduled
    obtain ⟨flows, waits, done⟩ := weighed_curves tableIs arranged pending scheduled
    refine ⟨?_, fun p => by rw [keepFlows]; exact flows p, waits, fun all => ?_⟩
    · rw [raised, pending]; simp
    · exact ⟨(done all).tables, (done all).mu⟩
  · intro empty
    have still : r = m.well w := by rw [hr, balanced, table, if_pos empty]
    have idle : (s.well w).pendingLevelVolume = false := by
      rw [← Bool.not_eq_true]
      intro pending
      rw [tableIs, switchedBanks, if_pos pending] at empty
      cases empty
    have keepBalance : switchedBalance (s.well w) T.active = (s.well w).balanceVolume := by
      unfold switchedBalance; simp only [idle]
    rw [still, record, keepBalance]
    exact ⟨rfl, rfl, rfl, rfl, rfl, rfl, rfl, rfl, rfl⟩
  · intro filled good free
    have now : r = establishBalance (m.well w) m.now := by
      rw [hr, balanced, table, if_neg (by simp [filled]), quality, established, good, free]
    rw [now, record, same.now]
    exact ⟨rfl, rfl, rfl, rfl, rfl, rfl, rfl, rfl⟩
  · intro v d x filled good stands balance time raw
    have now : r = computeBalance (m.well w) s.now (s.setup.smoothing.get w).toNat := by
      rw [hr, balanced, table, if_neg (by simp [filled]), quality, established, good, stands, same.now, same.setup]
    have balanceVolume : (m.well w).balanceVolume = some v := by
      rw [record]
      dsimp only
      unfold switchedBalance
      rw [stands]
      revert balance
      cases (s.well w).pendingLevelVolume with
      | false => exact id
      | true =>
        cases (s.well w).balanceLevel with
        | none => exact fun balance => by cases balance
        | some b => exact id
    have balanceTime : (m.well w).balanceTime = some d := by rw [record]; exact time
    have inflow : rawInflowOf (m.well w) s.now = x := by
      unfold rawInflowOf
      rw [balanceVolume, balanceTime, raw, record]
      rfl
    have clamped : (0 : Int) ≤ clampInt 0 50000 x := by unfold clampInt; omega
    rw [now]
    unfold computeBalance
    dsimp only
    rw [inflow, record]
    refine ⟨Int.toNat_of_nonneg clamped, ?_, rfl, rfl, rfl, rfl, rfl, rfl⟩
    unfold smoothed
    rfl
  · intro filled bad
    have now : r = { m.well w with inflowGood := false } := by
      rw [hr, balanced, table, if_neg (by simp [filled]), quality]
      cases is : (s.well w).quality with
      | good => exact absurd is bad
      | held => rfl
      | lost => rfl
    rw [now, record]
    refine ⟨rfl, rfl, rfl, rfl, rfl, rfl, rfl, fun idle => ?_, fun b pending stands level => ?_⟩
    · unfold switchedBalance; simp only [idle]
    · unfold switchedBalance; simp only [pending, stands, level]
  · rw [raised]
    rfl

end Sys2Proof.Machine
end


section
/-! PROOF. Gates: what every action leaves of LP, and the gates of DC. -/

namespace Sys2Proof.Machine

/-! ## What no action of a gate touches of LP -/

/-- LP but for the queues it is handed commands in, and its own sequence. -/
def loopRest (s : State) : Loop := { s.lp with control := [], forward := [], ownSequence := 0 }

section LoopRest

variable {s t : State} {p : Pump} {k : Screen}

theorem loopRest_of_lp (same : t.lp = s.lp) : loopRest t = loopRest s := by unfold loopRest; rw [same]

@[simp] theorem setPump_loopRest (r : PumpRecord) : loopRest (s.setPump p r) = loopRest s := rfl
@[simp] theorem setScreen_loopRest (r : ScreenRecord) : loopRest (s.setScreen k r) = loopRest s := rfl
@[simp] theorem setChan_loopRest {q : Quantity} (r : ChannelRecord) : loopRest (s.setChan q r) = loopRest s := rfl
@[simp] theorem raise_loopRest (e : Instr) : loopRest (s.raise e) = loopRest s := rfl
@[simp] theorem raiseIf_loopRest (b : Bool) (e : Instr) : loopRest (s.raiseIf b e) = loopRest s := loopRest_of_lp (by simp)
@[simp] theorem enter_loopRest (st : PumpState) : loopRest (enter s p st) = loopRest s := rfl
@[simp] theorem enterOff_loopRest : loopRest (enterOff s p) = loopRest s := rfl
@[simp] theorem withdraw_loopRest : loopRest (withdraw s p) = loopRest s := rfl

theorem offerControl_loopRest {d : Addr} {a : Option (BitVec 6)} {x : OutPayload} (placed : offerControl s d a x = some t) :
    loopRest t = loopRest s := by
  unfold offerControl at placed
  split at placed
  · cases placed
    exact raiseIf_loopRest ..
  · cases placed

@[simp] theorem buildCommand_loopRest (b : Bool) : loopRest (buildCommand s p b) = loopRest s := by
  unfold buildCommand offerCommand
  split
  · split
    · next placed => simpa using offerControl_loopRest placed
    · split
      · rfl
      · rfl
  · rfl

@[simp] theorem stopPump_loopRest (send : Bool) : loopRest (stopPump s p send) = loopRest s := by
  have charge : loopRest (returnCharge s p) = loopRest s := loopRest_of_lp returnCharge_lp
  unfold stopPump
  dsimp only
  split
  · rw [buildCommand_loopRest, raiseIf_loopRest, setPump_loopRest, enter_loopRest, charge]
  · rw [raiseIf_loopRest, setPump_loopRest, enter_loopRest, charge]

theorem loopRest_settles : Settles fun s t => loopRest t = loopRest s where
  refl _ := rfl
  trans h k := k.trans h
  duty _ _ := rfl
  treat l s p := by
    unfold treat
    dsimp only
    split
    · rfl
    · split
      · split <;> rfl
      · split <;> rfl
      · split
        · rfl
        · split
          · exact stopPump_loopRest true
          · rfl
      · rfl
  judge s p := loopRest_of_lp judgeDeadHead_lp
  tick _ _ _ := rfl
  raise _ _ := rfl

theorem buildRake_loopRest (b : Bool) : loopRest (buildRake s k b) = loopRest s := by
  unfold buildRake
  split
  · split
    · next placed => simpa using offerControl_loopRest placed
    · split
      · rfl
      · rfl
  · rfl

theorem reblind_loopRest : loopRest (reblind s k) = loopRest s := by rw [reblind_eq]; rfl

theorem placeCadence_loopRest {node : Nat} {ref : Option Nat} (placed : placeCadence s node ref = some t) :
    loopRest t = loopRest s := by
  unfold placeCadence at placed
  cases offered : offerControl s node none (.cadence s.ssu.state ref) with
  | none => rw [offered] at placed; cases placed
  | some u =>
    rw [offered] at placed
    obtain rfl : cadencePlaced u node s.ssu.state = t := Option.some.inj placed
    have sameLp : (cadencePlaced u node s.ssu.state).lp = u.lp := by
      unfold cadencePlaced updateNode
      dsimp only
      split
      · split
        · exact (each_restale _ _ u).2.2.1
        · rfl
      · rfl
    exact (loopRest_of_lp sameLp).trans (offerControl_loopRest offered)

theorem requestReference_loopRest {q : Quantity} {e : SampleEntry} : loopRest (requestReference s q e) = loopRest s := by
  unfold requestReference
  cases placed : placeCadence s e.node (some e.channel) with
  | none => rfl
  | some u =>
    dsimp only
    exact (setChan_loopRest _).trans (placeCadence_loopRest placed)

end LoopRest

/-! ## The flags of a pump -/

/-- The flags that only a gate and a moisture trip set, and the attempts. -/
def flags (r : PumpRecord) : Bool × Bool × Nat := (r.lockout, r.disabled, r.attempts)

theorem stopPump_flags {s : State} {p : Pump} (send : Bool) : flags ((stopPump s p send).pump p) = flags (s.pump p) :=
  (of_bare flags (fun _ => rfl) (stopPump_bare send)).trans rfl

/-- What follows a change leaves the flags of a pump. -/
theorem flags_settles (p : Pump) : Settles fun s t => flags (t.pump p) = flags (s.pump p) where
  refl _ := rfl
  trans h k := k.trans h
  duty _ _ := rfl
  treat l s q := by
    by_cases same : p = q
    · subst same
      unfold treat
      dsimp only
      split
      · rfl
      · split
        · split
          · rw [show ((enter s p .startWait).raise (.startRequest (.pump p) .pump)).pump p = (enter s p .startWait).pump p from rfl,
              enter_pump]
            rfl
          · rfl
        · split
          · rfl
          · rw [enterOff_pump]; rfl
        · split
          · rw [State.pump_setPump, if_pos rfl]; rfl
          · split
            · exact stopPump_flags true
            · rw [State.pump_setPump, if_pos rfl]; rfl
        · rfl
    · rw [treat_other l s same]
  judge s q := of_still flags (fun _ => rfl) (judgeDeadHead_still s q p)
  tick s q x := by
    by_cases same : p = q
    · subst same; simp [flags]
    · simp [same]
  raise _ _ := rfl

/-! ## What an answer leaves -/

section Answer

variable {s : State} {h : ReqHead} {r : ResultCode} {d : RspData}

@[simp] theorem answered_pump (p : Pump) : (answered s h r d).pump p = s.pump p := by unfold answered; split <;> rfl
@[simp] theorem answered_screen (k : Screen) : (answered s h r d).screen k = s.screen k := by unfold answered; split <;> rfl
@[simp] theorem answered_chan (q : Quantity) : (answered s h r d).chan q = s.chan q := by unfold answered; split <;> rfl
@[simp] theorem answered_duty : (answered s h r d).duty = s.duty := by unfold answered; split <;> rfl
@[simp] theorem answered_ssu : (answered s h r d).ssu = s.ssu := by unfold answered; split <;> rfl
theorem mem_answered {e : Instr} (raised : e ∈ s.raised) : e ∈ (answered s h r d).raised := by
  unfold answered
  split
  · exact List.mem_append_left _ raised
  · exact raised

/-- An answer given after an action that leaves LP's answers alone. -/
theorem answered_after {x : State} (same : loopRest x = loopRest s) : Answered s (answered x h r d) h r d := by
  have fields : ∀ {α : Type} (g : Loop → α), (∀ l c f n, g { l with control := c, forward := f, ownSequence := n } = g l) →
      g x.lp = g s.lp := by
    intro α g blind
    exact (blind x.lp [] [] 0).symm.trans ((congrArg g same).trans (blind s.lp [] [] 0))
  have general := fields Loop.general (fun _ _ _ _ => rfl)
  have own := fields Loop.ownAddress (fun _ _ _ _ => rfl)
  have drops := fields Loop.responseDrops (fun _ _ _ _ => rfl)
  have answer := answered_answered x h r d
  unfold Answered at answer ⊢
  rwa [general, own, drops] at answer

end Answer

/-! ## The gates of DC (R184) -/

section Duty

variable {s : State} {p : Pump} {w : Well}

theorem dutyGate_of_not (x : State × Bool) (no : x.2 = false) : dutyGate s x = (s, false) := by
  unfold dutyGate; rw [no]; rfl
theorem dutyGate_of (x : State) : dutyGate s (x, true) = (settle s x, true) := rfl

theorem settle_flags {b a : State} : flags ((settle b a).pump p) = flags (a.pump p) := (flags_settles p).settle b a
theorem settle_loopRest {b a : State} : loopRest (settle b a) = loopRest a := loopRest_settles.settle b a

/-- A pump that a gate has enabled. -/
def enabled (s : State) (p : Pump) : State := s.setPump p { s.pump p with disabled := false }

/-- A pump whose lockout a gate has cleared. -/
def unlocked (s : State) (p : Pump) : State := s.setPump p { s.pump p with lockout := false, attempts := 0 }

/-- What enabling a pump does. -/
theorem pumpEnable_gate (disabled : (s.pump p).disabled = true) : ∃ t,
    applyGate s .pumpEnable (.pump p) = (t, true) ∧ loopRest t = loopRest s ∧ (t.pump p).disabled = false
    ∧ ((s.pump p).state = .unavailable .disabled → (s.pump p).lockout = true → (t.pump p).state = .lockedOut)
    ∧ ((s.pump p).state = .unavailable .disabled → (s.pump p).lockout = false →
        (t.pump p).state = .off ∨ (t.pump p).state = .startWait)
    ∧ ((s.pump p).state = .unavailable .disabled → (s.pump p).lockout = false → Quiet s → (t.pump p).state = .off)
    ∧ ((s.pump p).state ≠ .unavailable .disabled → Quiet s → (t.pump p).state = (s.pump p).state) := by
  have record : (enabled s p).pump p = { s.pump p with disabled := false } := by
    unfold enabled; rw [State.pump_setPump, if_pos rfl]
  have quiet : Quiet s → Quiet (enabled s p) := quiet_of_dc rfl
  by_cases away : (s.pump p).state = .unavailable .disabled
  · have gate : applyGate s .pumpEnable (.pump p) = (settle s (enterOff (enabled s p) p), true) := by
      unfold applyGate pumpEnable; dsimp only; rw [if_pos disabled, if_pos away]; rfl
    have goes := offTo_settle (b := s) (a := enterOff (enabled s p) p) (s := enabled s p) (p := p) rfl rfl
    rw [record] at goes
    refine ⟨_, gate, settle_loopRest, ?_, ?_, ?_, ?_, fun other => absurd away other⟩
    · have kept := congrArg (·.2.1) (settle_flags (p := p) (b := s) (a := enterOff (enabled s p) p))
      refine kept.trans ?_
      rw [enterOff_pump, record]
      rfl
    · exact fun _ lockout => (goes.locked lockout).1
    · exact fun _ free => goes.free free rfl
    · exact fun _ free still => (goes.quiet free rfl (quiet still)).1
  · have gate : applyGate s .pumpEnable (.pump p) = (settle s (enabled s p), true) := by
      unfold applyGate pumpEnable; dsimp only; rw [if_pos disabled, if_neg away]; rfl
    refine ⟨_, gate, settle_loopRest, ?_, fun h => absurd h away, fun h => absurd h away, fun h => absurd h away, ?_⟩
    · exact (congrArg (·.2.1) (settle_flags (p := p) (b := s) (a := enabled s p))).trans (by rw [record])
    · intro _ still
      rw [of_still (·.state) (fun _ => rfl) ((settle_quiet s (enabled s p) (quiet still)).1 p), record]

/-- What clearing a pump's lockout does. -/
theorem pumpClear_gate (lockout : (s.pump p).lockout = true) : ∃ t,
    applyGate s .pumpClear (.pump p) = (t, true) ∧ loopRest t = loopRest s
    ∧ (t.pump p).lockout = false ∧ (t.pump p).attempts = 0
    ∧ ((s.pump p).state = .lockedOut → (s.pump p).disabled = true → (t.pump p).state = .unavailable .disabled)
    ∧ ((s.pump p).state = .lockedOut → (s.pump p).disabled = false →
        (t.pump p).state = .off ∨ (t.pump p).state = .startWait)
    ∧ ((s.pump p).state = .lockedOut → (s.pump p).disabled = false → Quiet s → (t.pump p).state = .off)
    ∧ ((s.pump p).state ≠ .lockedOut → Quiet s → (t.pump p).state = (s.pump p).state) := by
  have record : (unlocked s p).pump p = { s.pump p with lockout := false, attempts := 0 } := by
    unfold unlocked; rw [State.pump_setPump, if_pos rfl]
  have quiet : Quiet s → Quiet (unlocked s p) := quiet_of_dc rfl
  by_cases away : (s.pump p).state = .lockedOut
  · have gate : applyGate s .pumpClear (.pump p) = (settle s (enterOff (unlocked s p) p), true) := by
      unfold applyGate pumpClear; dsimp only; rw [if_pos lockout, if_pos away]; rfl
    have goes := offTo_settle (b := s) (a := enterOff (unlocked s p) p) (s := unlocked s p) (p := p) rfl rfl
    rw [record] at goes
    have kept : flags ((settle s (enterOff (unlocked s p) p)).pump p) = (false, (s.pump p).disabled, 0) := by
      rw [settle_flags, enterOff_pump, record]; rfl
    obtain ⟨lock, -, attempts⟩ := (by simpa [flags] using kept :
      ((settle s (enterOff (unlocked s p) p)).pump p).lockout = false ∧ _ ∧ _)
    refine ⟨_, gate, settle_loopRest, lock, attempts, ?_, ?_, ?_, fun other => absurd away other⟩
    · exact fun _ disabled => (goes.disabled rfl disabled).1
    · exact fun _ free => goes.free rfl free
    · exact fun _ free still => (goes.quiet rfl free (quiet still)).1
  · have gate : applyGate s .pumpClear (.pump p) = (settle s (unlocked s p), true) := by
      unfold applyGate pumpClear; dsimp only; rw [if_pos lockout, if_neg away]; rfl
    have kept : flags ((settle s (unlocked s p)).pump p) = (false, (s.pump p).disabled, 0) := by
      rw [settle_flags, record]; rfl
    obtain ⟨lock, -, attempts⟩ := (by simpa [flags] using kept :
      ((settle s (unlocked s p)).pump p).lockout = false ∧ _ ∧ _)
    refine ⟨_, gate, settle_loopRest, lock, attempts, fun h => absurd h away, fun h => absurd h away, fun h => absurd h away, ?_⟩
    intro _ still
    rw [of_still (·.state) (fun _ => rfl) ((settle_quiet s (unlocked s p) (quiet still)).1 p), record]

/-- What releasing a pump from manual control does. -/
theorem pumpRelease_gate (manual : (s.pump p).owner = .manual) : ∃ t,
    applyGate s .pumpRelease (.pump p) = (t, true) ∧ loopRest t = loopRest s
    ∧ (t.pump p).state = .stopping ∧ (t.pump p).owner = .auto ∧ (t.pump p).stopAt = some (s.now + 30000) := by
  have gate : applyGate s .pumpRelease (.pump p) = (settle s (stopPump s p true), true) := by
    unfold applyGate pumpRelease; dsimp only; rw [if_pos manual]; rfl
  have stopped := stopPump_settle (s := s) (b := s) (p := p) true
  exact ⟨_, gate, settle_loopRest.trans (stopPump_loopRest true), stopped.state, stopped.owner, stopped.deadline⟩

/-- A pump that a gate has disabled. -/
def barred (s : State) (p : Pump) : State := s.setPump p { s.pump p with disabled := true }

/-- What disabling a pump does. -/
theorem pumpDisable_gate (free : (s.pump p).disabled = false) (fitted : (s.pump p).state ≠ .unavailable .notFitted) : ∃ t,
    applyGate s .pumpDisable (.pump p) = (t, true) ∧ loopRest t = loopRest s ∧ (t.pump p).disabled = true
    ∧ (match (s.pump p).state with
      | .startWait => .requestWithdrawal (.pump p) ∈ t.raised
          ∧ (t.pump p).state = if (s.pump p).lockout = true then .lockedOut else .unavailable .disabled
      | .starting | .running => (t.pump p).state = .stopping ∧ (t.pump p).stopAt = some (s.now + 30000)
      | .off | .resting | .backoff | .unavailable .skipped => (t.pump p).state = .unavailable .disabled
      | st => (t.pump p).state = st) := by
  have record : (barred s p).pump p = { s.pump p with disabled := true } := by
    unfold barred; rw [State.pump_setPump, if_pos rfl]
  have judged : ((s.pump p).disabled || (s.pump p).state == .unavailable .notFitted) = false := by simp [free, fitted]
  have left : ∀ a, flags (a.pump p) = flags ((barred s p).pump p) → ((settle s a).pump p).disabled = true := by
    intro a same
    have kept := congrArg (·.2.1) ((settle_flags (p := p) (b := s) (a := a)).trans same)
    exact kept.trans (by rw [record]; rfl)
  have kept : ∀ a st, (a.pump p).state = st → Held (a.pump p) → ((settle s a).pump p).state = st := by
    intro a st is held
    rw [of_bare (·.state) (fun _ => rfl) (settle_of_held (b := s) held), is]
  have gate : ∀ a, pumpDisable s p = (a, true) → applyGate s .pumpDisable (.pump p) = (settle s a, true) := by
    intro a is
    change dutyGate s (pumpDisable s p) = _
    rw [is]
    rfl
  have disable : pumpDisable s p = (match (s.pump p).state with
      | .startWait => (enterOff (withdraw (barred s p) p) p, true)
      | .starting | .running => (stopPump (barred s p) p true, true)
      | .off | .resting | .backoff | .unavailable .skipped => (enter (barred s p) p (.unavailable .disabled), true)
      | _ => (barred s p, true)) := by
    unfold pumpDisable
    dsimp only
    rw [judged]
    rfl
  have leaves : ∀ st, (s.pump p).state = st → pumpDisable s p = (barred s p, true) → Held ((barred s p).pump p) →
      ∃ t, applyGate s .pumpDisable (.pump p) = (t, true) ∧ loopRest t = loopRest s ∧ (t.pump p).disabled = true
        ∧ (t.pump p).state = st :=
    fun st is done held => ⟨_, gate _ done, settle_loopRest, left _ rfl, kept _ _ (by rw [record]; exact is) held⟩
  have enters : pumpDisable s p = (enter (barred s p) p (.unavailable .disabled), true) →
      ∃ t, applyGate s .pumpDisable (.pump p) = (t, true) ∧ loopRest t = loopRest s ∧ (t.pump p).disabled = true
        ∧ (t.pump p).state = .unavailable .disabled := by
    intro done
    have here : ((enter (barred s p) p (.unavailable .disabled)).pump p).state = .unavailable .disabled := by
      rw [enter_pump]; rfl
    exact ⟨_, gate _ done, settle_loopRest, left _ (by rw [enter_pump]; rfl), kept _ _ here (.inr (by rw [here]; simp))⟩
  have stops : pumpDisable s p = (stopPump (barred s p) p true, true) →
      ∃ t, applyGate s .pumpDisable (.pump p) = (t, true) ∧ loopRest t = loopRest s ∧ (t.pump p).disabled = true
        ∧ (t.pump p).state = .stopping ∧ (t.pump p).stopAt = some (s.now + 30000) := by
    intro done
    have stopped := stopPump_settle (s := barred s p) (b := s) (p := p) true
    exact ⟨_, gate _ done, settle_loopRest.trans (stopPump_loopRest true), left _ (stopPump_flags true), stopped.state,
      stopped.deadline⟩
  cases state : (s.pump p).state with
  | startWait =>
    rw [state] at disable
    set a := enterOff (withdraw (barred s p) p) p with ha
    have here : (a.pump p).state = if (s.pump p).lockout = true then .lockedOut else .unavailable .disabled := by
      rw [ha, enterOff_pump, show (withdraw (barred s p) p).pump p = (barred s p).pump p from rfl, record]
      rfl
    refine ⟨_, gate _ disable, settle_loopRest, left _ (by rw [ha, enterOff_pump]; rfl), ?_, kept _ _ here (.inr ?_)⟩
    · exact (grows_settles.settle s a).mem_raised (List.mem_append_right _ (List.mem_singleton_self _))
    · rw [here]; split <;> simp
  | starting => rw [state] at disable; exact stops disable
  | running => rw [state] at disable; exact stops disable
  | off => rw [state] at disable; exact enters disable
  | resting => rw [state] at disable; exact enters disable
  | backoff => rw [state] at disable; exact enters disable
  | stopping => rw [state] at disable; exact leaves _ state disable (.inr (by rw [record]; simp [state]))
  | lockedOut => rw [state] at disable; exact leaves _ state disable (.inr (by rw [record]; simp [state]))
  | float => rw [state] at disable; exact leaves _ state disable (.inr (by rw [record]; simp [state]))
  | unavailable why =>
    rw [state] at disable
    cases why with
    | skipped => exact enters disable
    | notFitted => exact absurd state fitted
    | disabled => exact leaves _ state disable (.inr (by rw [record]; simp [state]))
    | localHand => exact leaves _ state disable (.inr (by rw [record]; simp [state]))
    | noStatus => exact leaves _ state disable (.inr (by rw [record]; simp [state]))

/-! ### ROTATE -/

/-- A Rotation List that is not due to be rotated, in a part where nothing is evaluated. -/
structure Unmoved (s : State) (w : Well) (list : List Pump) (x : State) : Prop where
  mask : dcMask x = dcMask s
  due : x.duty.rotationDue.get w = false
  list : x.duty.rotation.get w = list

theorem Unmoved.of_duty {list : List Pump} {x y : State} (h : Unmoved s w list x) (mask : dcMask y = dcMask x)
    (duty : y.duty = x.duty) : Unmoved s w list y :=
  ⟨mask.trans h.mask, by rw [duty]; exact h.due, by rw [duty]; exact h.list⟩

theorem Unmoved.rotates {list : List Pump} {x : State} (h : Unmoved s w list x) (v : Well) :
    Unmoved s w list (Machine.rotateIfDue x v) := by
  unfold Machine.rotateIfDue
  split
  · next moves =>
    have ne : w ≠ v := by
      rintro rfl
      rw [h.due] at moves
      simp at moves
    exact ⟨h.mask, by simp only [PerWell.get_set, if_neg ne]; exact h.due, by simp only [PerWell.get_set, if_neg ne]; exact h.list⟩
  · exact h

theorem unmoved_standing (quiet : Quiet s) (list : List Pump) : Standing s (Unmoved s w list) where
  mask h := h.mask
  once v h := by
    have ssu := eq_of_mask dcMask State.ssu (fun _ => rfl) h.mask
    unfold evaluateOnce
    rw [if_pos (by rw [ssu]; exact quiet v)]
    exact h
  rotates v h := h.rotates v
  judge p h := h.of_duty (judgeDeadHead_dc _ _) judgeDeadHead_duty
  tick p y h := h.of_duty rfl rfl
  raise e h := h.of_duty rfl rfl

/-- A Rotation List rotated by a gate. -/
def rotated (s : State) (w : Well) : State :=
  { s with duty := { s.duty with
      rotation := s.duty.rotation.set w (rotate (s.duty.rotation.get w)), rotationDue := s.duty.rotationDue.set w false } }

theorem rotate_eq {α : Type} (list : List α) : rotate list = list.drop 1 ++ list.take 1 := by cases list <;> rfl

/-- What ROTATE does. -/
theorem rotate_gate (two : 2 ≤ (s.duty.rotation.get w).length) : ∃ t,
    applyGate s .rotate (.well w) = (t, true) ∧ loopRest t = loopRest s
    ∧ (Quiet s → t.duty.rotationDue.get w = false ∧ t.duty.rotation.get w =
        (s.duty.rotation.get w).drop 1 ++ (s.duty.rotation.get w).take 1) := by
  have gate : applyGate s .rotate (.well w) = (settle s (evaluateLive (rotated s w) w), true) := by
    change dutyGate s (rotateGate s w) = _
    unfold rotateGate
    dsimp only
    rw [if_pos two]
    rfl
  refine ⟨_, gate, ?_, fun quiet => ?_⟩
  · exact settle_loopRest.trans (loopRest_settles.evaluateLive (rotated s w) w)
  · have stands := unmoved_standing (w := w) (s := rotated s w) (quiet_of_dc (s := s) rfl quiet)
      (rotate (s.duty.rotation.get w))
    have start : Unmoved (rotated s w) w (rotate (s.duty.rotation.get w)) (rotated s w) :=
      ⟨rfl, by simp [rotated], by simp [rotated]⟩
    obtain ⟨-, due, list⟩ := stands.settle s (stands.evaluateLive w start)
    exact ⟨due, list.trans (rotate_eq _)⟩

end Duty

end Sys2Proof.Machine
end


section
/-! PROOF. Gates: the actions of SC, CU and SSU, and the judgement of a gate. -/

namespace Sys2Proof.Machine

section RakeGates

variable {s : State} {k : Screen}

theorem reblind_record : ∃ b, (reblind s k).screen k = { s.screen k with blinded := b } := by
  rw [reblind_eq, onRake_screen, if_pos rfl]
  exact ⟨_, rfl⟩

theorem reblind_grows {e : Instr} (raised : e ∈ s.raised) : e ∈ (reblind s k).raised := by
  rw [reblind_eq]
  exact List.mem_append_left _ raised

/-- What RAKE_RUN does. -/
theorem rakeRun_gate (parked : (s.screen k).state = .parked) (free : (s.screen k).localHold = false)
    (known : homeUnknown s k = false) : ∃ t, applyGate s .rakeRun (.screen k) = (t, true) ∧ loopRest t = loopRest s
    ∧ (t.screen k).state = .queued ∧ (t.screen k).consecutive = 0
    ∧ ∃ cls, (t.screen k).requestClass = some cls ∧ .startRequest (.rake k) cls ∈ t.raised := by
  have gate : applyGate s .rakeRun (.screen k) = (reblind (rakeTrigger s k) k, true) := by
    change rakeRun s k = _
    unfold rakeRun
    rw [if_neg (by simp [parked, free, known])]
    rfl
  refine ⟨_, gate, ?_, ?_⟩
  · rw [reblind_loopRest, rakeTrigger_eq_of_free free known]; rfl
  · obtain ⟨b, record⟩ := reblind_record (s := rakeTrigger s k) (k := k)
    rw [record]
    rw [rakeTrigger_eq_of_free free known, onRake_screen, if_pos rfl]
    exact ⟨rfl, rfl, _, rfl, reblind_grows (List.mem_append_right _ (List.mem_singleton_self _))⟩

/-- What RAKE_ENABLE does. -/
theorem rakeEnable_gate (out : (s.screen k).state = .outOfService) : ∃ t,
    applyGate s .rakeEnable (.screen k) = (t, true) ∧ loopRest t = loopRest s
    ∧ (t.screen k).state = .parked ∧ (t.screen k).outOfService = false ∧ (t.screen k).jams = 0
    ∧ (t.screen k).consecutive = 0 ∧ (t.screen k).intervalAt = some (s.now + intervalMs s.setup s.ssu.state) := by
  refine ⟨_, (if_pos out : rakeEnable s k = _), ?_, ?_⟩
  · unfold scStep
    rw [reblind_loopRest]
    dsimp only
    rw [restartInterval_eq, rakeEnter_eq]
    rfl
  · unfold scStep
    dsimp only
    obtain ⟨b, record⟩ := reblind_record (k := k) (s := (restartInterval (rakeEnter s k .parked) k).setScreen k
      { (restartInterval (rakeEnter s k .parked) k).screen k with outOfService := false, jams := 0, consecutive := 0 })
    rw [record, State.screen_setScreen, if_pos rfl, restartInterval_eq, onRake_screen, if_pos rfl, rakeEnter_eq, onRake_screen,
      if_pos rfl]
    exact ⟨rfl, rfl, rfl, rfl, rfl⟩

/-- What SCREEN_CLEAR does. -/
theorem screenClear_gate (still : (s.screen k).state = .parked ∨ (s.screen k).state = .jammed) : ∃ t,
    applyGate s .screenClear (.screen k) = (t, true) ∧ loopRest t = loopRest s
    ∧ (t.screen k).state = .parked ∧ (t.screen k).jams = 0 ∧ (t.screen k).baseline = none
    ∧ (t.screen k).baselineCount = 0 ∧ (t.screen k).slowRun = 0 ∧ (t.screen k).wearReported = false
    ∧ (t.screen k).intervalAt = some (s.now + intervalMs s.setup s.ssu.state) := by
  refine ⟨_, (if_pos still : screenClear s k = _), ?_, ?_⟩
  · unfold scStep
    rw [reblind_loopRest]
    dsimp only
    rw [restartInterval_eq, rakeEnter_eq]
    rfl
  · unfold scStep
    dsimp only
    obtain ⟨b, record⟩ := reblind_record (k := k) (s := (restartInterval (rakeEnter s k .parked) k).setScreen k
      { (restartInterval (rakeEnter s k .parked) k).screen k with
        jams := 0, baseline := none, baselineSum := 0, baselineCount := 0, slowRun := 0, wearReported := false })
    rw [record, State.screen_setScreen, if_pos rfl, restartInterval_eq, onRake_screen, if_pos rfl, rakeEnter_eq, onRake_screen,
      if_pos rfl]
    exact ⟨rfl, rfl, rfl, rfl, rfl, rfl, rfl⟩

/-- A rake on its way out of service, before its command. -/
def retiring (s : State) (k : Screen) : State := s.onRake k
  { s.screen k with
    outOfService := true, state := .outOfService, phase := none
    requestClass := if requesting (s.screen k).state then none else (s.screen k).requestClass } s.lp
  (if requesting (s.screen k).state then [.requestWithdrawal (.rake k)] else [])

/-- The command of a rake that leaves service. -/
def retired (s : State) (k : Screen) : State :=
  if rakeAction (s.screen k).state = .stop then retiring s k else buildRake (retiring s k) k true

theorem disableRake_eq : disableRake s k = if granted (s.screen k).state = true
    then clearCycle (rakeRelease (retired s k) k) k else retired s k := by
  unfold disableRake retired retiring
  dsimp only
  cases requesting (s.screen k).state
  · simp only [Bool.false_eq_true, ↓reduceIte, setScreen_onRake, rakeEnter_eq, onRake_onRake, onRake_screen, onRake_lp]
    rfl
  · simp only [↓reduceIte, setScreen_onRake, rakeEnter_eq, rakeWithdraw_eq, onRake_onRake, onRake_screen, onRake_lp]
    rfl

theorem retired_form : ∃ count refresh retry lp es, retired s k = (retiring s k).onRake k
    { (retiring s k).screen k with count := count, refreshAt := refresh, retryAt := retry } lp es := by
  unfold retired
  split
  · exact ⟨_, _, _, _, _, onRake_self.symm⟩
  · obtain ⟨count, refresh, retry, lp, es, form, -⟩ := buildRake_eq (s := retiring s k) (k := k) true
    exact ⟨count, refresh, retry, lp, es, form⟩

theorem retired_loopRest : loopRest (retired s k) = loopRest s := by
  unfold retired
  split
  · rfl
  · rw [buildRake_loopRest]; rfl

/-- What RAKE_DISABLE does. -/
theorem rakeDisable_gate (active : (s.screen k).state ≠ .outOfService) : ∃ t,
    applyGate s .rakeDisable (.screen k) = (t, true) ∧ loopRest t = loopRest s
    ∧ (t.screen k).state = .outOfService ∧ (t.screen k).outOfService = true
    ∧ ((s.screen k).state = .queued ∨ (s.screen k).state = .shed →
        (t.screen k).requestClass = none ∧ .requestWithdrawal (.rake k) ∈ t.raised)
    ∧ ((s.screen k).state = .cycling ∨ (s.screen k).state = .jamReverse ∨ (s.screen k).state = .jamPause →
        (t.screen k).charge = .none ∧ (t.screen k).leaveAt = none ∧ (t.screen k).cycleAt = none
        ∧ ((s.screen k).charge ≠ .none → .chargeRelease (.rake k) ∈ t.raised)) := by
  refine ⟨_, (if_neg active : rakeDisable s k = _), ?_, ?_⟩
  · unfold scStep
    rw [reblind_loopRest]
    dsimp only
    rw [disableRake_eq]
    split
    · rw [clearCycle_eq, rakeRelease_eq]; exact retired_loopRest
    · exact retired_loopRest
  · unfold scStep
    dsimp only
    obtain ⟨b, record⟩ := reblind_record (s := disableRake s k) (k := k)
    obtain ⟨count, refresh, retry, lp, es, form⟩ := retired_form (s := s) (k := k)
    rw [record, disableRake_eq, form]
    refine ⟨?_, ?_, fun waits => ?_, fun runs => ?_⟩
    · split <;> simp [clearCycle_eq, rakeRelease_eq, retiring]
    · split <;> simp [clearCycle_eq, rakeRelease_eq, retiring]
    · have idle : granted (s.screen k).state = false := by rcases waits with h | h <;> rw [h] <;> rfl
      have asks : requesting (s.screen k).state = true := by rcases waits with h | h <;> rw [h] <;> rfl
      rw [idle, if_neg (by decide)]
      refine ⟨by simp [retiring, asks], reblind_grows ?_⟩
      simp [retiring, asks]
    · have busy : granted (s.screen k).state = true := by rcases runs with h | h | h <;> rw [h] <;> rfl
      rw [busy, if_pos rfl]
      refine ⟨by simp [clearCycle_eq, rakeRelease_eq], by simp [clearCycle_eq], by simp [clearCycle_eq], fun charged => ?_⟩
      refine reblind_grows ?_
      simp [clearCycle_eq, rakeRelease_eq, retiring, charged]

end RakeGates

section ChannelGates

variable {s : State} {q : Quantity}

/-- What CHANNEL_CLEAR does. -/
theorem channelClear_gate {e : SampleEntry} (mapped : entryFor s q = some e) (suspect : (s.chan q).quality = .suspect) :
    ∃ t, applyGate s .channelClear (.quantity q) = (t, true) ∧ loopRest t = loopRest s
    ∧ (t.chan q).value = (s.chan q).value ∧ (t.chan q).rejects = 0 ∧ (t.chan q).recovery = 0
    ∧ (t.chan q).quality = (if (s.chan q).value = none then .lost
        else if due (s.chan q).staleAt s.now = true then .held else .good)
    ∧ ((t.chan q).quality = .held → (t.chan q).holdAt = some (s.now + holdLimitOf s q * 1000))
    ∧ ((t.chan q).quality = .good → .recordSubmission (.sensorRecovered q .suspect) ∈ t.raised) := by
  have gate : applyGate s .channelClear (.quantity q) = (leaveSuspect s q e.holdLimit, true) := by
    change channelClear s q = _
    unfold channelClear
    rw [mapped]
    exact if_pos suspect
  have limit : holdLimitOf s q = e.holdLimit := by unfold holdLimitOf; rw [mapped]
  refine ⟨_, gate, ?_⟩
  unfold leaveSuspect
  dsimp only
  simp only [setChan_onChan, deliver_onChan, submit_onChan, Option.isNone_iff_eq_none]
  by_cases none_ : (s.chan q).value = none
  · rw [if_pos none_, if_pos none_]
    rw [onChan_chan, if_pos rfl]
    exact ⟨rfl, rfl, rfl, rfl, rfl, fun h => (by cases h), fun h => (by cases h)⟩
  · rw [if_neg none_, if_neg none_]
    cases stale : due (s.chan q).staleAt s.now with
    | true =>
      rw [if_pos rfl, onChan_chan, if_pos rfl]
      exact ⟨rfl, rfl, rfl, rfl, rfl, fun _ => by rw [limit], fun h => (by cases h)⟩
    | false =>
      rw [if_neg (by decide), onChan_chan, if_pos rfl]
      exact ⟨rfl, rfl, rfl, rfl, rfl, fun h => (by cases h), fun _ => by simp⟩

/-- What REF_CHECK does. -/
theorem refCheck_gate {e : SampleEntry} (mapped : entryFor s q = some e) (has : e.expected ≠ none)
    (free : (s.chan q).awaiting = none) : ∃ t, applyGate s .refCheck (.quantity q) = (t, true) ∧ loopRest t = loopRest s
    ∧ if s.lp.control.length < 8 then (t.chan q).awaiting = some s.now else (t.chan q).referenceRetryAt ≠ none := by
  have gate : applyGate s .refCheck (.quantity q) = (requestReference s q e, true) := by
    change refCheck s q = _
    unfold refCheck
    rw [mapped]
    exact if_pos ⟨Option.isSome_iff_ne_none.mpr has, by rw [free]; rfl⟩
  refine ⟨_, gate, requestReference_loopRest, ?_⟩
  split
  · next room =>
    have asks := requestReference_asks (s := s) (q := q) (e := e)
    dsimp only at asks
    rw [if_pos room] at asks
    exact asks.2.2.1
  · next full =>
    unfold requestReference
    rw [placeCadence_of_full full]
    dsimp only
    rw [State.chan_setChan, if_pos rfl]
    unfold nextOffer
    split
    · split <;> exact fun h => by cases h
    · exact fun h => by cases h

end ChannelGates

section StationGates

variable {s : State} {target : GateTarget}

/-- What FORCE_STORM does. -/
theorem forceStorm_gate (free : s.ssu.forced = false) : ∃ t,
    applyGate s .forceStorm target = (t, true) ∧ loopRest t = loopRest s ∧ t.ssu.forced = true ∧ t.ssu.state = .storm := by
  have gate : applyGate s .forceStorm target = (evaluateStormLive { s with ssu := { s.ssu with forced := true } }, true) := by
    have apply_ : applyGate s .forceStorm target = forceStorm s := by cases target <;> rfl
    rw [apply_, forceStorm, free]
    rfl
  refine ⟨_, gate, ?_⟩
  have holds : stormHolds (stormConditions { s with ssu := { s.ssu with forced := true } } (deliveryOf s.wells.a)
      (deliveryOf s.wells.b)) = true := by simp [stormHolds, stormConditions]
  unfold evaluateStormLive evaluateStorm
  dsimp only
  rw [holds]
  cases state : s.ssu.state with
  | dry => exact ⟨rfl, rfl, rfl⟩
  | storm => exact ⟨rfl, rfl, rfl⟩

/-- The state of ALLOW_DRY in STORM, before the conditions are looked at. -/
def unforced (s : State) : State := { s with ssu := { s.ssu with forced := false, holdAt := none } }

theorem allowDry_eq (storm : s.ssu.state = .storm) : applyGate s .allowDry target =
    if stormHolds (stormConditions (unforced s) (deliveryOf s.wells.a) (deliveryOf s.wells.b)) = true
    then (unforced s, false) else (changeStation (unforced s) .dry .allowDry, true) := by
  have apply_ : applyGate s .allowDry target = allowDry s := by cases target <;> rfl
  rw [apply_]
  unfold allowDry
  rw [storm]
  rfl

/-- The conditions of STORM that are left when it is not forced. -/
theorem unforced_holds : stormHolds (stormConditions (unforced s) (deliveryOf s.wells.a) (deliveryOf s.wells.b)) = true ↔
    s.ssu.tideLock = true ∨ (∃ o, s.ssu.spillSeen.get o ≠ .dry)
      ∨ (∃ w level, (s.well w).quality ≠ .lost ∧ (s.well w).level = some level ∧ s.setup.stormLevel.get w ≤ level)
      ∨ ∃ w, s.setup.stormInflow.get w ≤ ((s.well w).smoothedInflow : Int) := by
  have conditions := stormHolds_iff (s := unforced s) s.setup (unforced s).ssu (fun w => deliveryOf (s.well w)) rfl rfl
  refine conditions.trans ?_
  have off : (unforced s).ssu.forced = false := rfl
  simp only [off, Bool.false_eq_true, false_or]
  exact Iff.rfl

end StationGates

/-! ## The judgement of a gate (R184) -/

theorem preconditionMet_iff {s : State} {x : Precondition} : PreconditionMet s (some x) ↔ preconditionHolds s x = true := by
  have compare : ∀ c v constant, Compares c v constant ↔ compares c v constant = true := by
    intro c v constant; cases c <;> simp [Compares, compares]
  unfold PreconditionMet preconditionHolds
  constructor
  · intro met
    obtain ⟨q, c, v, quantity, comparison, good, value, holds⟩ := met x rfl
    simp only [quantity, comparison, good, value]
    exact (compare _ _ _).mp holds
  · intro holds y is
    obtain rfl : x = y := Option.some.inj is
    split at holds
    · next q c quantity comparison =>
      split at holds
      · next v good value => exact ⟨q, c, v, quantity, comparison, good, value, (compare _ _ _).mpr holds⟩
      · cases holds
    · cases holds

section Invoke

variable {s : State} {h : ReqHead} {authority n : Nat} {g : GateEntry}

theorem invoke_passes (found : gateAt s n = some g) (on : g.enabled = .name true) (high : authority ≤ g.authority)
    (met : PreconditionMet s g.precondition) : invoke s h authority n = runGate s h g := by
  unfold invoke
  rw [found]
  dsimp only
  rw [if_neg (not_not_intro on), if_neg (Nat.not_lt.mpr high)]
  cases pre : g.precondition with
  | none => rfl
  | some x =>
    rw [pre] at met
    exact if_pos (preconditionMet_iff.mp met)

theorem runGate_of {action : GateAction} {x : State × Bool} (is : g.action = .name action)
    (applied : applyGate s action g.target = x) :
    runGate s h g = answered x.1 h (if x.2 then .ok else .conflict) .none := by
  unfold runGate
  rw [is]
  dsimp only
  rw [applied, respond_eq]

/-- A gate whose action applies. -/
theorem runGate_ok {action : GateAction} {x : State} (is : g.action = .name action)
    (applied : applyGate s action g.target = (x, true)) : runGate s h g = answered x h .ok .none := runGate_of is applied

/-- A gate whose action does not apply. -/
theorem runGate_conflict {action : GateAction} (is : g.action = .name action)
    (applied : applyGate s action g.target = (s, false)) : runGate s h g = answered s h .conflict .none :=
  runGate_of is applied

end Invoke

/-- Settles O59. -/
theorem gatesAct : Obligations.GatesAct := by
  unfold Obligations.GatesAct
  intro h n e s live entry manage small
  have effectiveIs : effective e h.authority = max h.authority e.ceiling := rfl
  have taken : exec (.invokeGate h (some n)) s = .next (invoke s h (effective e h.authority) n) := by
    apply whenLive_next live
    exact onRequest_taken (a := n) (need := .manage) entry manage (decide_eq_true small) rfl
  refine ⟨_, taken, fun none_ => ?_, fun g found => ⟨fun off => ?_, fun on low => ?_, fun on high unmet => ?_,
    fun on high met => ?_⟩⟩
  · unfold invoke; rw [none_]; exact respond_eq ..
  · unfold invoke; rw [found]; dsimp only; rw [if_pos off]; exact respond_eq ..
  · unfold invoke
    rw [found]
    dsimp only
    rw [if_neg (not_not_intro on), if_pos (effectiveIs ▸ low)]
    exact respond_eq ..
  · unfold invoke
    rw [found]
    dsimp only
    rw [if_neg (not_not_intro on), if_neg (Nat.not_lt.mpr (effectiveIs ▸ high))]
    cases pre : g.precondition with
    | none => rw [pre] at unmet; exact absurd (fun x is => by cases is) unmet
    | some x =>
      rw [pre] at unmet
      dsimp only
      rw [if_neg (mt preconditionMet_iff.mpr unmet)]
      exact respond_eq ..
  rw [invoke_passes found on (effectiveIs ▸ high) met]
  have ok : ∀ {a : GateAction} {target : GateTarget} {x : State}, g.action = .name a → g.target = target →
      applyGate s a target = (x, true) → runGate s h g = answered x h .ok .none := by
    rintro a target x action rfl applied; exact runGate_ok action applied
  have conflict : ∀ {a : GateAction} {target : GateTarget}, g.action = .name a → g.target = target →
      applyGate s a target = (s, false) → runGate s h g = answered s h .conflict .none := by
    rintro a target action rfl applied; exact runGate_conflict action applied
  have idle : ∀ {x : State × Bool}, x.2 = false → dutyGate s x = (s, false) := fun no => dutyGate_of_not _ no
  refine ⟨?_, ?_, ?_, ?_, ?_, ?_, ?_, ?_, ?_, ?_, ?_, ?_, ?_⟩
  · intro p action target
    split
    · next disabled =>
      obtain ⟨t, applied, rest, facts⟩ := pumpEnable_gate disabled
      rw [ok action target applied]
      simpa only [answered_pump, answered_after rest, true_and] using facts
    · next enabled =>
      refine conflict action target (idle ?_)
      unfold pumpEnable; dsimp only; rw [if_neg enabled]
  · intro p action target
    split
    · next barred =>
      refine conflict action target (idle ?_)
      unfold pumpDisable
      dsimp only
      rw [if_pos (by simpa using barred)]
    · next active =>
      rw [not_or, Bool.not_eq_true] at active
      obtain ⟨t, applied, rest, off, facts⟩ := pumpDisable_gate active.1 active.2
      rw [ok action target applied]
      refine ⟨answered_after rest, by rw [answered_pump]; exact off, ?_⟩
      simp only [answered_pump]
      revert facts
      cases (s.pump p).state with
      | startWait => exact fun ⟨withdrawn, state⟩ => ⟨mem_answered withdrawn, state⟩
      | unavailable why => cases why <;> exact id
      | _ => exact id
  · intro p action target
    split
    · next lockout =>
      obtain ⟨t, applied, rest, facts⟩ := pumpClear_gate lockout
      rw [ok action target applied]
      simpa only [answered_pump, answered_after rest, true_and] using facts
    · next free =>
      refine conflict action target (idle ?_)
      unfold pumpClear; dsimp only; rw [if_neg free]
  · intro p action target
    split
    · next manual =>
      obtain ⟨t, applied, rest, facts⟩ := pumpRelease_gate manual
      rw [ok action target applied]
      simpa only [answered_pump, answered_after rest, true_and] using facts
    · next auto =>
      refine conflict action target (idle ?_)
      unfold pumpRelease; rw [if_neg auto]
  · intro w action target
    split
    · next two =>
      obtain ⟨t, applied, rest, facts⟩ := rotate_gate two
      rw [ok action target applied]
      simpa only [answered_duty, answered_after rest, true_and] using facts
    · next few =>
      refine conflict action target (idle ?_)
      unfold rotateGate; dsimp only; rw [if_neg few]
  · intro k action target
    split
    · next ready =>
      obtain ⟨parked, free, known, mapped⟩ := ready
      obtain ⟨t, applied, rest, facts⟩ := rakeRun_gate parked free (homeUnknown_eq_false.mpr ⟨known, mapped⟩)
      rw [ok action target applied]
      obtain ⟨queued, consecutive, cls, request, raised⟩ := facts
      simp only [answered_screen]
      exact ⟨answered_after rest, queued, consecutive, cls, request, mem_answered raised⟩
    · next unready =>
      refine conflict action target (if_pos ?_ : rakeRun s k = _)
      by_contra ready
      simp only [not_or, not_not, Bool.not_eq_true] at ready
      obtain ⟨known, mapped⟩ := homeUnknown_eq_false.mp ready.2.2
      exact unready ⟨ready.1, ready.2.1, known, mapped⟩
  · intro k action target
    split
    · next out =>
      obtain ⟨t, applied, rest, facts⟩ := rakeEnable_gate out
      rw [ok action target applied]
      simpa only [answered_screen, answered_after rest, true_and] using facts
    · next active => exact conflict action target (if_neg active : rakeEnable s k = _)
  · intro k action target
    split
    · next out => exact conflict action target (if_pos out : rakeDisable s k = _)
    · next active =>
      obtain ⟨t, applied, rest, gone, flag, waits, runs⟩ := rakeDisable_gate active
      rw [ok action target applied]
      simp only [answered_screen]
      refine ⟨answered_after rest, gone, flag, fun st => ?_, fun st => ?_⟩
      · exact ⟨(waits st).1, mem_answered (waits st).2⟩
      · obtain ⟨charge, leave, cycle, released⟩ := runs st
        exact ⟨charge, leave, cycle, fun charged => mem_answered (released charged)⟩
  · intro k action target
    split
    · next still =>
      obtain ⟨t, applied, rest, facts⟩ := screenClear_gate still
      rw [ok action target applied]
      simpa only [answered_screen, answered_after rest, true_and] using facts
    · next busy => exact conflict action target (if_neg busy : screenClear s k = _)
  · intro q action target
    split
    · next ready =>
      obtain ⟨mapped, suspect⟩ := ready
      obtain ⟨x, mapped⟩ := Option.isSome_iff_exists.mp mapped
      obtain ⟨t, applied, rest, value, rejects, recovery, quality, hold, record⟩ := channelClear_gate mapped suspect
      rw [ok action target applied]
      simp only [answered_chan]
      exact ⟨answered_after rest, value, rejects, recovery, quality, hold, fun good => mem_answered (record good)⟩
    · next unready =>
      refine conflict action target ?_
      change channelClear s q = _
      unfold channelClear
      cases mapped : entryFor s q with
      | none => rfl
      | some x => exact if_neg (fun suspect => unready ⟨by rw [mapped]; rfl, suspect⟩)
  · intro q action target
    split
    · next ready =>
      obtain ⟨⟨x, mapped, has⟩, free⟩ := ready
      obtain ⟨t, applied, rest, facts⟩ := refCheck_gate mapped has free
      rw [ok action target applied]
      simpa only [answered_chan, answered_after rest, true_and] using facts
    · next unready =>
      refine conflict action target ?_
      change refCheck s q = _
      unfold refCheck
      cases mapped : entryFor s q with
      | none => rfl
      | some x =>
        refine if_neg (fun ready => unready ⟨⟨x, mapped, Option.isSome_iff_ne_none.mp ready.1⟩, ?_⟩)
        exact Option.isNone_iff_eq_none.mp ready.2
  · intro action
    by_cases forced : s.ssu.forced = true
    · have applied : applyGate s .forceStorm g.target = (s, false) := by
        have apply_ : applyGate s .forceStorm g.target = forceStorm s := by cases g.target <;> rfl
        rw [apply_]
        exact if_pos forced
      rw [conflict action rfl applied, if_pos forced]
      exact ⟨by rw [answered_ssu]; exact forced, rfl⟩
    · obtain ⟨t, applied, rest, on', storm⟩ := forceStorm_gate (target := g.target) (Bool.not_eq_true _ ▸ forced)
      rw [ok action rfl applied, if_neg forced, answered_ssu]
      exact ⟨on', answered_after rest, storm⟩
  · intro action
    refine ⟨fun dry => ?_, fun storm => ?_⟩
    · have applied : applyGate s .allowDry g.target = (s, false) := by
        have apply_ : applyGate s .allowDry g.target = allowDry s := by cases g.target <;> rfl
        rw [apply_, allowDry, dry]
      exact conflict action rfl applied
    · have form := allowDry_eq (target := g.target) storm
      have run := runGate_of (h := h) action form
      rw [run]
      by_cases holds : stormHolds (stormConditions (unforced s) (deliveryOf s.wells.a) (deliveryOf s.wells.b)) = true
      · rw [if_pos holds]
        refine ⟨by rw [answered_ssu]; rfl, by rw [answered_ssu]; rfl, fun _ => rfl, fun tide spill level inflow => ?_⟩
        rcases unforced_holds.mp holds with tide' | ⟨o, wet⟩ | ⟨w, l, known, at_, high⟩ | ⟨w, high⟩
        · rw [tide] at tide'; cases tide'
        · exact absurd (spill o) wet
        · exact absurd high (Int.not_le.mpr (level w l known at_))
        · exact absurd high (Int.not_le.mpr (inflow w))
      · rw [if_neg holds]
        refine ⟨by rw [answered_ssu]; rfl, by rw [answered_ssu]; rfl, fun cause => ?_, fun _ _ _ _ => ?_⟩
        · exact absurd (unforced_holds.mpr cause) holds
        · refine ⟨answered_after rfl, by rw [answered_ssu]; rfl, mem_answered ?_⟩
          exact List.mem_append_left _ (List.mem_append_right _ (List.mem_singleton_self _))

end Sys2Proof.Machine
end


section
/-! PROOF. A Sample Map switch that finds a cadence state of a node the old map did not name (R3, R11, R18). -/

namespace Sys2Proof.Machine

section LeftOver

/-- The one entry of the map to be switched to: LA1 at node 5. -/
def firstEntry : SampleEntry := ⟨5, 0, .name .la1, .analog, -500, 6000, 100, 4000, none, none, 30, false⟩

/-- A state without an active map that holds a cadence state of node 5 all the same, its class STORM recorded in DRY; the
inactive bank of the Sample Map names node 5. -/
def leftOver : State :=
  { State.reset with
    nodes := [⟨5, .storm, none, none⟩]
    tables := { State.reset.tables with sampleMap := ⟨[], [some firstEntry], true⟩ } }

/-- The request of the one source of the reset tables. -/
def firstSource : ReqHead := ⟨1, 0, 0, 0⟩

theorem permitted_firstSource : Permitted leftOver firstSource :=
  ⟨⟨1, 0, true, true, true⟩, by decide +kernel, rfl, by decide⟩

/-- The staleness deadline of LA1 after a command. -/
def staleAfter (o : Host.Outcome State Fault Refusal) : Option Ms :=
  match o with
  | .next t => (t.chan .la1).staleAt
  | _ => none

theorem staleAfter_next (t : State) : staleAfter (.next t) = (t.chan .la1).staleAt := rfl

/-- The CADENCE frame of the switch changes the class recorded for node 5, which gives LA1, reset just before, a staleness
deadline. -/
theorem leftOver_gets_deadline : staleAfter (exec (.tableCommit firstSource (some .sampleMap)) leftOver) = some 30000 := by
  decide +kernel

/-- Refutes O56: where a cadence state with another class stands for a node new to the map, its channels do not stay at their
reset values. -/
theorem not_switchesAreTaken : ¬ Obligations.SwitchesAreTaken := by
  intro holds
  obtain ⟨mapSwitch, -⟩ := holds firstSource leftOver rfl permitted_firstSource rfl
  obtain ⟨t, next, -, -, channels⟩ := mapSwitch [firstEntry] [5] (by decide +kernel) rfl (by decide +kernel)
  have deadline := leftOver_gets_deadline
  have noOld : entryFor leftOver .la1 = none := by decide +kernel
  have itsNew : [firstEntry].find? (fun e => e.quantity == .name .la1) = some firstEntry := by decide +kernel
  have atReset := channels .la1
  rw [noOld, itsNew] at atReset
  obtain ⟨reset, -⟩ := atReset
  rw [next, staleAfter_next, reset] at deadline
  cases deadline

end LeftOver

end Sys2Proof.Machine
end


section
/-! PROOF. The account and the queue at a fallback entry and exit (R92, R94, R95). -/

namespace Sys2Proof.Machine

section Account

variable {s : State} {w : Well} {names : PerPump (Option ExitName)} {p : Pump}

/-! ## An examination that may follow a change of the account -/

/-- A state before the examination of the head, or after it. -/
structure Examined (s t : State) : Prop where
  reserve : t.budget.reserve = s.budget.reserve
  queue : ∀ q ∈ t.budget.queue, q ∈ s.budget.queue
  entries : ∀ x, (∀ q ∈ s.budget.queue, q.requester ≠ x) → entryOfReq t.budget x = entryOfReq s.budget x

theorem Examined.refl (s : State) : Examined s s := ⟨rfl, fun _ => id, fun _ _ => rfl⟩

theorem examine_examined (s : State) : Examined s (examine s) := by
  obtain ⟨granted, waited, h⟩ := examine_requests s
  refine ⟨h.rest.2.1, fun q member => by rw [waited]; exact List.mem_append_right _ member, fun x free => ?_⟩
  rw [h.entries, if_neg]
  intro among
  obtain ⟨q, held, same⟩ := List.mem_map.mp among
  exact free q (by rw [waited]; exact List.mem_append_left _ held) same

theorem ite_examined (c : Prop) [Decidable c] (s : State) : Examined s (if c then examine s else s) := by
  split
  · exact examine_examined s
  · exact .refl s

/-! ## The entry (R92) -/

theorem clearPumps_entry (ps : List Pump) (b : Budget) (p : Pump) :
    entryOfReq (clearPumps b ps) (.pump p) = if p ∈ ps then .clear else entryOfReq b (.pump p) := by
  unfold clearPumps
  induction ps generalizing b with
  | nil => rfl
  | cons x xs ih =>
    rw [List.foldl_cons, ih, entryOfReq_setEntry]
    by_cases later : p ∈ xs
    · simp [later]
    · by_cases here : p = x
      · simp [here]
      · simp [later, here]

theorem requestOf_pump {ps : List Pump} {q : Request} (member : p ∈ ps) (his : q.requester = .pump p) : requestOf ps q = true := by
  unfold requestOf
  rw [his]
  exact List.contains_iff_mem.mpr member

/-- The account of a fallback entry, before its examination. -/
def left (s : State) (w : Well) : State :=
  { s with budget := { clearPumps s.budget (s.setup.pumpsOf w) with
      queue := s.budget.queue.filter fun q => !(requestOf (s.setup.pumpsOf w) q)
      reserve := s.budget.reserve.set w (reserveOf s.setup w) } }

theorem exec_fallbackEntrySb (live : s.live = true) :
    ∃ t, exec (.fallbackEntrySb w) s = .next t ∧ Examined (left s w) t := by
  refine ⟨_, ?_, ite_examined (headChanged s.budget.queue (left s w).budget.queue
    || decide (committed (left s w).budget < committed s.budget)) (left s w)⟩
  apply whenLive_next live
  rfl

/-- A fallback entry keeps a reserve for the well, whose pumps leave the account and the queue. -/
theorem entry_account (live : s.live = true) : ∃ t, exec (.fallbackEntrySb w) s = .next t
    ∧ t.budget.reserve = s.budget.reserve.set w (reserveOf s.setup w)
    ∧ ∀ p, s.wellOf p = some w → t.budget.pumps.get p = ⟨.none, 0, false⟩ ∧ ∀ q ∈ t.budget.queue, q.requester ≠ .pump p := by
  obtain ⟨t, next, h⟩ := exec_fallbackEntrySb (w := w) live
  refine ⟨t, next, h.reserve, fun p here => ?_⟩
  have member : p ∈ s.setup.pumpsOf w := (mem_pumpsOf _ _ _).mpr here
  have gone : ∀ q ∈ (left s w).budget.queue, q.requester ≠ .pump p := by
    intro q among his
    have kept := (List.mem_filter.mp among).2
    rw [requestOf_pump member his] at kept
    cases kept
  refine ⟨(h.entries (.pump p) gone).trans ?_, fun q among => gone q (h.queue q among)⟩
  exact (clearPumps_entry _ s.budget p).trans (if_pos member)

/-! ## The exit (R92) -/

/-- A state with an account, in which the well's reserve is given up. -/
def reserveless (s : State) (w : Well) (b : Budget) : State := { s with budget := { b with reserve := b.reserve.set w 0 } }

theorem reserveless_budget (b : Budget) : (reserveless s w b).budget = { b with reserve := b.reserve.set w 0 } := rfl

/-- The account with the charges of an exit notice. -/
def charged (s : State) (names : PerPump (Option ExitName)) : Budget := Pump.all.foldl (exitCharge s names) s.budget

/-- The account of a fallback exit, before its examination. -/
def rejoined (s : State) (w : Well) (names : PerPump (Option ExitName)) : State := reserveless s w (charged s names)

theorem exec_fallbackExitSb (live : s.live = true) :
    ∃ t, exec (.fallbackExitSb w names) s = .next t ∧ Examined (rejoined s w names) t := by
  refine ⟨_, ?_, ite_examined (committed (rejoined s w names).budget < committed s.budget) (rejoined s w names)⟩
  apply whenLive_next live
  rfl

theorem exitCharges_rest (ps : List Pump) (b : Budget) : (ps.foldl (exitCharge s names) b).reserve = b.reserve
    ∧ (ps.foldl (exitCharge s names) b).queue = b.queue := by
  induction ps generalizing b with
  | nil => exact ⟨rfl, rfl⟩
  | cons x xs ih =>
    have step : (exitCharge s names b x).reserve = b.reserve ∧ (exitCharge s names b x).queue = b.queue := by
      unfold exitCharge
      split
      · exact ⟨setEntry_reserve .., setEntry_queue ..⟩
      · exact ⟨rfl, rfl⟩
    rw [List.foldl_cons, (ih _).1, (ih _).2]
    exact step

theorem rejoined_reserve : (rejoined s w names).budget.reserve = s.budget.reserve.set w 0 := by
  have reserve : (charged s names).reserve = s.budget.reserve := (exitCharges_rest Pump.all s.budget).1
  rw [rejoined, reserveless_budget, reserve]

theorem rejoined_queue : (rejoined s w names).budget.queue = s.budget.queue := by
  have queue : (charged s names).queue = s.budget.queue := (exitCharges_rest Pump.all s.budget).2
  rw [rejoined, reserveless_budget, queue]

theorem rejoined_entry : (rejoined s w names).budget.pumps.get p =
    if (s.budget.pumps.get p).kind = .none ∧ exitKind (names.get p) ≠ .none then
      ⟨exitKind (names.get p), (s.setup.runWeight.get p).toNat, false⟩
    else s.budget.pumps.get p := by
  have entry := exitCharges_get s names s.budget p
  rw [rejoined, reserveless_budget]
  exact entry

/-- A fallback exit gives the reserve up and charges what its names record. -/
theorem exit_account (live : s.live = true) : ∃ t, exec (.fallbackExitSb w names) s = .next t
    ∧ t.budget.reserve = s.budget.reserve.set w 0
    ∧ ∀ p, (∀ q ∈ s.budget.queue, q.requester ≠ .pump p) → t.budget.pumps.get p =
        if (s.budget.pumps.get p).kind = .none ∧ exitKind (names.get p) ≠ .none then
          ⟨exitKind (names.get p), (s.setup.runWeight.get p).toNat, false⟩
        else s.budget.pumps.get p := by
  obtain ⟨t, next, h⟩ := exec_fallbackExitSb (w := w) (names := names) live
  refine ⟨t, next, h.reserve.trans rejoined_reserve, fun p free => ?_⟩
  rw [← rejoined_queue (w := w) (names := names)] at free
  rw [← rejoined_entry (w := w)]
  exact h.entries (.pump p) free

end Account

end Sys2Proof.Machine
end


section
/-! PROOF. DC at a fallback entry: every pump of the well passes to FLOAT (R49, R50, R144). -/

namespace Sys2Proof.Machine

section Entry

variable {s a b : State} {p q : Pump} {w : Well} {drive : Addr}

/-! ## One pump (R144) -/

/-- A pump in FLOAT without a charge, nothing that would run its drive waiting to leave, its command not yet built. -/
def floated (s : State) (p : Pump) : State :=
  let s := enter (removeRuns s (driveOf s p)) p .float
  s.setPump p { s.pump p with charge := .none }

theorem toFloat_eq (s : State) (p : Pump) : toFloat s p = buildCommand (floated s p) p true := rfl

theorem floated_pump : (floated s p).pump p = withCharge (inState (removeRuns s (driveOf s p)) (s.pump p) .float) .none := by
  unfold floated
  dsimp only
  rw [State.pump_setPump, if_pos rfl, enter_pump]
  rfl

theorem floated_state : ((floated s p).pump p).state = .float := by rw [floated_pump]; rfl

/-- What a pump is left with in FLOAT. -/
theorem toFloat_pump : ((toFloat s p).pump p).state = .float ∧ ((toFloat s p).pump p).owner = .float
    ∧ ((toFloat s p).pump p).charge = .none := by
  have fields := of_bare (fun r => (r.state, r.owner, r.charge)) (fun _ => rfl) (buildCommand_bare (s := floated s p) (p := p) (q := p) true)
  rw [floated_pump] at fields
  simp only [Prod.mk.injEq] at fields
  exact fields

theorem toFloat_other (apart : q ≠ p) : (toFloat s p).pump q = s.pump q := by
  rw [toFloat_eq, buildCommand_other _ _ apart]
  unfold floated
  dsimp only
  rw [State.pump_setPump, if_neg apart, enter_other _ apart]
  rfl

theorem toFloat_duty : (toFloat s p).duty = s.duty := buildCommand_duty true

theorem floated_runless : Runless (removeRuns s (driveOf s p)) (toFloat s p) := by
  rw [toFloat_eq]
  refine .trans (t := floated s p) (.of_lp rfl) (buildCommand_runless true ?_)
  rw [floated_state]
  simp [actionHeld]

theorem toFloat_noRunWaits (free : NoRunWaits s drive) : NoRunWaits (toFloat s p) drive :=
  floated_runless.noRunWaits (removeRuns_noRunWaits _ free)

theorem toFloat_free : NoRunWaits (toFloat s p) (driveOf s p) := floated_runless.noRunWaits (removeRuns_free _ _)

theorem driveOf_of_dc (mask : dcMask b = dcMask a) : driveOf b p = driveOf a p := by
  unfold driveOf
  rw [setup_of_dc mask]

/-! ## The well asks for no pump (R49, R50) -/

/-- A well in FALLBACK that asks for no pump. -/
structure Asleep (s : State) (w : Well) (x : State) : Prop where
  mask : dcMask x = dcMask s
  levelDemand : x.duty.levelDemand.get w = 0
  demand : x.duty.demand.get w = 0
  due : x.duty.rotationDue.get w = false

theorem Asleep.of_duty {x y : State} (h : Asleep s w x) (mask : dcMask y = dcMask x) (duty : y.duty = x.duty) : Asleep s w y :=
  ⟨mask.trans h.mask, by rw [duty]; exact h.levelDemand, by rw [duty]; exact h.demand, by rw [duty]; exact h.due⟩

theorem asleep_standing (fallback : s.ssu.well.get w = .fallback) : Standing s (Asleep s w) where
  mask h := h.mask
  once {x} v h := by
    by_cases here : v = w
    · subst here
      have ssu : x.ssu = s.ssu := eq_of_mask dcMask State.ssu (fun _ => rfl) h.mask
      unfold evaluateOnce
      rw [if_pos (by rw [ssu]; exact .inl fallback)]
      exact h
    · have apart : w ≠ v := Ne.symm here
      rcases evaluateOnce_cases x v (deliveryOf (s.well v)) with same | ⟨n, demand, due, evaluated⟩
      · rwa [same]
      · refine ⟨(evaluateOnce_dc x v _).trans h.mask, ?_, ?_, ?_⟩ <;> rw [evaluated, select_duty]
        · simpa [demanded, apart] using h.levelDemand
        · simpa [demanded, apart] using h.demand
        · simpa [demanded, apart] using h.due
  rotates {x} v h := by
    unfold rotateIfDue
    split
    · next moves =>
      have apart : w ≠ v := by
        rintro rfl
        rw [h.due] at moves
        simp at moves
      exact ⟨h.mask, h.levelDemand, h.demand, by simp only [PerWell.get_set, if_neg apart]; exact h.due⟩
    · exact h
  judge p h := h.of_duty (judgeDeadHead_dc _ _) judgeDeadHead_duty
  tick p y h := h.of_duty rfl rfl
  raise e h := h.of_duty rfl rfl

/-! ## The entry -/

/-- The demands of a well given up. -/
def undemanded (s : State) (w : Well) : State :=
  { s with duty := { s.duty with
      levelDemand := s.duty.levelDemand.set w 0
      demand := s.duty.demand.set w 0
      rotationDue := s.duty.rotationDue.set w false } }

theorem exec_fallbackEntryDc (live : s.live = true) : exec (.fallbackEntryDc w) s =
    .next (settle s (undemanded (State.each toFloat (s.setup.pumpsOf w) s) w)) := whenDc_next live

/-- What a fallback entry leaves of a well's pumps, of the frames for their drives and of its demands. -/
theorem entry_duty (live : s.live = true) (fallback : s.ssu.well.get w = .fallback) : ∃ t, exec (.fallbackEntryDc w) s = .next t
    ∧ (∀ p, s.wellOf p = some w →
        (t.pump p).state = .float ∧ (t.pump p).owner = .float ∧ (t.pump p).charge = .none ∧ NoRunWaits t (driveOf s p))
    ∧ t.duty.levelDemand.get w = 0 ∧ t.duty.demand.get w = 0 ∧ t.duty.rotationDue.get w = false := by
  refine ⟨_, exec_fallbackEntryDc live, fun p here => ?_, ?_⟩
  · have member : p ∈ s.setup.pumpsOf w := (mem_pumpsOf _ _ _).mpr here
    obtain ⟨u, -, -, -, reached⟩ := each_reaches (f := toFloat) (pumpsOf_nodup s.setup w) member (fun _ _ => toFloat_other)
      toFloat_dc (fun _ _ => toFloat_duty) s
    have free : NoRunWaits (State.each toFloat (s.setup.pumpsOf w) s) (driveOf s p) :=
      each_noRunWaits member toFloat_dc (fun x same => driveOf_of_dc (p := p) same ▸ toFloat_free) fun x q => toFloat_noRunWaits
    have record : (undemanded (State.each toFloat (s.setup.pumpsOf w) s) w).pump p = (toFloat u p).pump p := reached
    obtain ⟨state, owner, charge⟩ := toFloat_pump (s := u) (p := p)
    have held : Held ((undemanded (State.each toFloat (s.setup.pumpsOf w) s) w).pump p) := .inr (by rw [record, state]; simp)
    have same := of_still (fun r => (r.state, r.owner, r.charge)) (fun _ => rfl) (settle_held s _ p held)
    rw [record, state, owner, charge] at same
    simp only [Prod.mk.injEq] at same
    exact ⟨same.1, same.2.1, same.2.2, (runless_settles.settle s _).noRunWaits free⟩
  · have stands := asleep_standing fallback
    have start : Asleep s w (undemanded (State.each toFloat (s.setup.pumpsOf w) s) w) :=
      ⟨each_dc _ toFloat_dc _ s, by simp [undemanded], by simp [undemanded], by simp [undemanded]⟩
    obtain ⟨-, levels, demand, due⟩ := stands.settle s start
    exact ⟨levels, demand, due⟩

end Entry

end Sys2Proof.Machine
end


section
/-! PROOF. What an operation of DC on one pump leaves of the rest. -/

namespace Sys2Proof.Machine

section Alone

variable {s t u a b : State} {p q : Pump} {w : Well} {d : DriveReport} {names : PerPump (Option ExitName)}

/-! ## Operations on one pump -/

/-- Only one pump's record changes, no event on its way is lost, and no Rotation List changes. -/
structure Apart (p : Pump) (s t : State) : Prop where
  other : ∀ q, q ≠ p → t.pump q = s.pump q
  raised : ∀ e ∈ s.raised, e ∈ t.raised
  mask : dcMask t = dcMask s
  rotation : t.duty.rotation = s.duty.rotation

theorem Apart.refl (s : State) : Apart p s s := ⟨fun _ _ => rfl, fun _ => id, rfl, rfl⟩

theorem Apart.trans (h : Apart p s t) (k : Apart p t u) : Apart p s u where
  other q ne := (k.other q ne).trans (h.other q ne)
  raised e member := k.raised e (h.raised e member)
  mask := k.mask.trans h.mask
  rotation := k.rotation.trans h.rotation

/-- An operation on one pump that lets no RUN or REVERSE join a queue, and takes no frame out of the CONTROL queue. -/
structure Mild (p : Pump) (s t : State) : Prop extends Apart p s t where
  runless : Runless s t
  control : ∀ f ∈ s.lp.control, f ∈ t.lp.control

theorem Mild.refl (s : State) : Mild p s s := ⟨.refl s, .refl s, fun _ => id⟩
theorem Mild.trans (h : Mild p s t) (k : Mild p t u) : Mild p s u :=
  ⟨h.toApart.trans k.toApart, h.runless.trans k.runless, fun f member => k.control f (h.control f member)⟩

/-- A change of the pump's record and of what SB, LP's queues and the lists do not see. -/
theorem Mild.of_fields (other : ∀ q, q ≠ p → t.pump q = s.pump q) (raised : ∀ e ∈ s.raised, e ∈ t.raised)
    (mask : dcMask t = dcMask s) (rotation : t.duty.rotation = s.duty.rotation) (lp : t.lp = s.lp) : Mild p s t :=
  ⟨⟨other, raised, mask, rotation⟩, .of_lp lp, fun f member => by rw [lp]; exact member⟩

theorem setPump_mild (s : State) (p : Pump) (r : PumpRecord) : Mild p s (s.setPump p r) :=
  .of_fields (fun q ne => by rw [State.pump_setPump, if_neg ne]) (fun _ => id) rfl rfl rfl

theorem raise_mild (s : State) (p : Pump) (e : Instr) : Mild p s (s.raise e) :=
  .of_fields (fun _ _ => rfl) (fun _ => List.mem_append_left _) rfl rfl rfl

theorem raiseIf_mild (s : State) (p : Pump) (c : Bool) (e : Instr) : Mild p s (s.raiseIf c e) := by
  cases c
  · exact .refl s
  · exact raise_mild s p e

theorem raiseAll_mild (s : State) (p : Pump) (es : List Instr) : Mild p s (s.raiseAll es) :=
  .of_fields (fun _ _ => rfl) (fun _ => List.mem_append_left _) rfl rfl rfl

theorem submit_mild (s : State) (p : Pump) (b : RecordBody) : Mild p s (s.submit b) := raise_mild s p _

theorem enter_mild (s : State) (p : Pump) (st : PumpState) : Mild p s (enter s p st) := setPump_mild s p _
theorem enterOff_mild (s : State) (p : Pump) : Mild p s (enterOff s p) := enter_mild s p _

theorem lockOut_mild (s : State) (p : Pump) : Mild p s (lockOut s p) :=
  ((enter_mild s p _).trans (setPump_mild _ p _)).trans (submit_mild _ p _)

theorem releaseCharge_mild (s : State) (p : Pump) : Mild p s (releaseCharge s p) := by
  rw [releaseCharge_eq]
  exact (setPump_mild s p _).trans (raiseIf_mild _ p _ _)

theorem returnCharge_mild (s : State) (p : Pump) : Mild p s (returnCharge s p) := by
  rw [returnCharge_eq]
  exact (setPump_mild s p _).trans (raiseIf_mild _ p _ _)

theorem chargeExternal_mild (s : State) (p : Pump) : Mild p s (chargeExternal s p) := by
  rw [chargeExternal_eq]
  exact (setPump_mild s p _).trans (raiseIf_mild _ p _ _)

theorem notifySurge_mild (s : State) (p : Pump) : Mild p s (notifySurge s p) := by
  rw [notifySurge_eq]
  exact raiseAll_mild s p _

/-- The offer of a command changes its pump's record and the CONTROL queue. -/
theorem offerCommand_apart (s : State) (p : Pump) (command : Option (DriveAction × Nat)) (change : Bool) :
    Apart p s (offerCommand s p command change) := by
  refine ⟨fun q ne => offerCommand_other s command change ne, fun e => (offerCommand_grows s p command change).mem_raised, ?_, ?_⟩
  · exact offerCommand_dc s p command change
  · rw [offerCommand_duty]

theorem buildCommand_mild (held : actionHeld (s.pump p).state ≠ some .run) (change : Bool) :
    Mild p s (buildCommand s p change) :=
  ⟨offerCommand_apart s p _ change, buildCommand_runless change held, fun _ => (buildCommand_grows s p change).mem_control⟩

theorem stopPump_mild (s : State) (p : Pump) (send : Bool) : Mild p s (stopPump s p send) := by
  refine ⟨⟨fun q ne => stopPump_other s send ne, fun e => (stopPump_grows s p send).mem_raised, stopPump_dc s p send, ?_⟩,
    stopPump_runless send, fun _ => (stopPump_grows s p send).mem_control⟩
  rw [stopPump_duty]

/-! ## Reports (R59 to R62) -/

theorem drawBackoff_mild (s : State) (p : Pump) : Mild p s (drawBackoff s) :=
  .of_fields (fun _ _ => rfl) (fun _ => id) rfl rfl rfl

theorem enterBackoff_mild (s : State) (p : Pump) : Mild p s (enterBackoff s p) :=
  ((drawBackoff_mild s p).trans (enter_mild _ p _)).trans (setPump_mild _ p _)

theorem afterAttempt_mild (s : State) (p : Pump) : Mild p s (afterAttempt s p) := by
  unfold afterAttempt
  split
  · unfold exhaust
    dsimp only
    split
    · exact ((enter_mild s p _).trans (setPump_mild _ p _)).trans (submit_mild _ p _)
    · exact ((submit_mild s p _).trans (enterBackoff_mild _ p)).trans (setPump_mild _ p _)
    · exact lockOut_mild s p
  · exact enterBackoff_mild s p

/-- A failed attempt and the STOP that is built. -/
theorem attempt_mild (s : State) (p : Pump) : Mild p s (buildCommand (afterAttempt s p) p true) := by
  refine (afterAttempt_mild s p).trans (buildCommand_mild ?_ true)
  rw [(afterAttempt_attempted s p).1.stops]
  simp

theorem confirmStart_mild (s : State) (p : Pump) : Mild p s (confirmStart s p) := by
  have noted : Mild p s (noticed s p) := by
    rw [noticed_eq]
    exact (((setPump_mild s p _).trans (raiseIf_mild _ p _ _)).trans (raiseAll_mild _ p _)).trans (raise_mild _ p _)
  rw [confirmStart_eq]
  exact (noted.trans (enter_mild _ p _)).trans (setPump_mild _ p _)

theorem confirmStop_mild (s : State) (p : Pump) : Mild p s (confirmStop s p) := by
  rw [confirmStop_eq]
  exact (((releaseCharge_mild s p).trans (notifySurge_mild _ p)).trans (enter_mild _ p _)).trans (setPump_mild _ p _)

theorem lockMoist_mild (s : State) (p : Pump) : Mild p s (lockMoist s p) := by
  have quits : Mild p s (quitted s p) := by
    unfold quitted
    split
    · exact raise_mild s p _
    · exact (notifySurge_mild s p).trans (releaseCharge_mild _ p)
    · exact releaseCharge_mild s p
  rw [lockMoist_eq]
  exact quits.trans (lockOut_mild _ p)

theorem takeTripped_mild (s : State) (p : Pump) (d : DriveReport) : Mild p s (takeTripped s p d) := by
  have trip : Mild p s (tripped s p d) := setPump_mild s p _
  rw [takeTripped_eq]
  split
  · split
    · exact trip
    · exact trip.trans (setPump_mild _ p _)
    · exact trip.trans (setPump_mild _ p _)
    · exact trip.trans (setPump_mild _ p _)
    · exact trip.trans (setPump_mild _ p _)
    · exact trip.trans (lockMoist_mild _ p)
  · split
    · rw [failStart_eq]
      exact (trip.trans ((returnCharge_mild _ p).trans (setPump_mild _ p _))).trans (attempt_mild _ p)
    · rw [tripRunning_eq]
      exact (trip.trans (((((notifySurge_mild _ p).trans (raise_mild _ p _)).trans (releaseCharge_mild _ p)).trans
        (submit_mild _ p _)).trans (setPump_mild _ p _))).trans (attempt_mild _ p)
    · exact trip.trans (confirmStop_mild _ p)
    · exact trip.trans ((raise_mild _ p _).trans (enterOff_mild _ p))
    · exact trip

theorem takeLocal_mild (s : State) (p : Pump) (d : DriveReport) : Mild p s (takeLocal s p d) := by
  have hands : Mild p s (handed s p) := by
    unfold handed
    split
    · exact raise_mild s p _
    · exact returnCharge_mild s p
    · exact .refl s
  rw [takeLocal_eq]
  refine (hands.trans (enter_mild _ p (.unavailable .localHand))).trans ?_
  unfold chargeLocal
  split
  · exact chargeExternal_mild _ p
  · exact releaseCharge_mild _ p

theorem leaveLocal_mild (s : State) (p : Pump) (d : DriveReport) : Mild p s (leaveLocal s p d) := by
  unfold leaveLocal
  split
  · exact ((setPump_mild s p _).trans (releaseCharge_mild _ p)).trans (enterOff_mild _ p)
  · split
    · exact stopPump_mild s p true
    · exact (releaseCharge_mild s p).trans (enterOff_mild _ p)

theorem takeReport_mild (s : State) (p : Pump) (d : DriveReport) : Mild p s (takeReport s p d) := by
  unfold takeReport
  split
  · refine Mild.trans (t := if d.state = .tripped then takeTripped s p d else s) ?_ (raise_mild _ p _)
    split
    · exact takeTripped_mild s p d
    · exact .refl s
  · exact .refl s
  · split
    · exact takeLocal_mild s p d
    · exact leaveLocal_mild s p d
  · split
    · exact takeLocal_mild s p d
    · exact leaveLocal_mild s p d
  · split
    · exact takeLocal_mild s p d
    · exact takeTripped_mild s p d
    · exact confirmStart_mild s p
    · exact confirmStop_mild s p
    · exact .refl s

/-! ## The stages of an exit (R146, R147) -/

/-- A pump taken as running at an exit, its speeds not yet set. -/
def resumed (s : State) (p : Pump) : State :=
  let s := enter s p .running
  s.setPump p { s.pump p with
    owner := .auto, manualSource := none, manual := none
    runStart := some s.now, charge := .running, history := adoptHistory s p }

/-- The staged speed of a resumed pump, where the well's level is known. -/
def respeeded (w : Well) (s : State) (p : Pump) : State :=
  match (s.well w).level with
  | some level => restage w level s p
  | none => s

/-- An adopted pump before its RUN is offered. -/
def readied (w : Well) (s : State) (p : Pump) : State :=
  let s := respeeded w (resumed s p) p
  s.setPump p { s.pump p with applied := adoptedSpeed s p }

theorem adopt_eq (w : Well) (s : State) (p : Pump) :
    adopt w s p = offerCommand (readied w s p) p (heldCommand (readied w s p) p) true := rfl

theorem respeeded_mild (w : Well) (s : State) (p : Pump) : Mild p s (respeeded w s p) := by
  unfold respeeded
  split
  · exact setPump_mild s p _
  · exact .refl s

theorem readied_mild (w : Well) (s : State) (p : Pump) : Mild p s (readied w s p) :=
  (((enter_mild s p .running).trans (setPump_mild _ p _)).trans (respeeded_mild w (resumed s p) p)).trans (setPump_mild _ p _)

theorem adopt_apart (w : Well) (s : State) (p : Pump) : Apart p s (adopt w s p) := by
  rw [adopt_eq]
  exact (readied_mild w s p).toApart.trans (offerCommand_apart _ p _ true)

theorem takeExitName_apart (w : Well) (names : PerPump (Option ExitName)) (s : State) (p : Pump) :
    Apart p s (takeExitName w names s p) := by
  unfold takeExitName
  split
  · exact adopt_apart w s p
  · exact ((enter_mild s p _).trans (setPump_mild _ p _)).toApart
  · exact ((enter_mild s p _).trans (setPump_mild _ p _)).toApart
  · exact (enterOff_mild s p).toApart.trans (offerCommand_apart _ p _ true)
  · exact .refl s

theorem stopUnfit_mild (names : PerPump (Option ExitName)) (s : State) (p : Pump) : Mild p s (stopUnfit names s p) := by
  unfold stopUnfit
  split
  · exact stopPump_mild s p true
  · exact .refl s

theorem stopExcess_mild (names : PerPump (Option ExitName)) (w : Well) (s : State) (p : Pump) : Mild p s (stopExcess names w s p) := by
  unfold stopExcess
  split
  · exact stopPump_mild s p true
  · exact .refl s

theorem withdrawExcess_mild (w : Well) (s : State) (p : Pump) : Mild p s (withdrawExcess w s p) := by
  unfold withdrawExcess
  split
  · exact (raise_mild s p _).trans (enterOff_mild _ p)
  · exact .refl s

theorem takeLateReport_mild (names : PerPump (Option ExitName)) (s : State) (p : Pump) : Mild p s (takeLateReport names s p) := by
  unfold takeLateReport
  split
  · exact takeReport_mild s p _
  · exact .refl s

theorem removeRuns_apart (s : State) (p : Pump) (drive : Addr) : Apart p s (removeRuns s drive) :=
  ⟨fun _ _ => rfl, fun _ => id, rfl, rfl⟩

theorem evalInterlock_apart (d : WellDelivery) (s : State) (p : Pump) : Apart p s (evalInterlock d s p) := by
  have set : Apart p s (locked s p d) := (setPump_mild s p _).toApart
  rw [evalInterlock_eq]
  split
  · refine set.trans ?_
    unfold interlockPump
    dsimp only
    refine (removeRuns_apart _ p (driveOf (locked s p d) p)).trans (Mild.toApart ?_)
    split
    · exact (raise_mild _ p _).trans (enterOff_mild _ p)
    · exact stopPump_mild _ p true
    · exact stopPump_mild _ p true
    · exact .refl _
  · exact set

theorem returnMoved_apart (w : Well) (names : PerPump (Option ExitName)) (s : State) (p : Pump) :
    Apart q s (returnMoved w names s p) := (raiseIf_mild s q _ _).toApart

/-! ## One pump after another -/

/-- What one pump after another leaves of the events on their way and the lists. -/
structure Grown (s t : State) : Prop where
  raised : ∀ e ∈ s.raised, e ∈ t.raised
  mask : dcMask t = dcMask s
  rotation : t.duty.rotation = s.duty.rotation

theorem Apart.grown (h : Apart p s t) : Grown s t := ⟨h.raised, h.mask, h.rotation⟩

theorem each_grown {f : State → Pump → State} (step : ∀ s q, Apart q s (f s q)) (xs : List Pump) (s : State) :
    Grown s (State.each f xs s) := by
  induction xs generalizing s with
  | nil => exact ⟨fun _ => id, rfl, rfl⟩
  | cons x xs ih =>
    have later := ih (f s x)
    have first := step s x
    exact ⟨fun e member => later.raised e (first.raised e member), later.mask.trans first.mask, later.rotation.trans first.rotation⟩

/-- What an operation on one pump after another does to a pump it comes to once. -/
theorem each_comes {f : State → Pump → State} {xs : List Pump} (step : ∀ s q, Apart q s (f s q)) (once : xs.Nodup)
    (member : p ∈ xs) (s : State) : ∃ u, u.pump p = s.pump p ∧ Grown s u ∧ (State.each f xs s).pump p = (f u p).pump p
      ∧ Grown (f u p) (State.each f xs s) := by
  induction xs generalizing s with
  | nil => cases member
  | cons y ys ih =>
    obtain ⟨fresh, once⟩ := List.nodup_cons.mp once
    by_cases here : p = y
    · subst here
      refine ⟨s, rfl, ⟨fun _ => id, rfl, rfl⟩, ?_, each_grown step ys (f s p)⟩
      exact each_away (fun s x ne => (step s x).other p ne) fresh (f s p)
    · have later := (List.mem_cons.mp member).resolve_left here
      have first := step s y
      obtain ⟨u, record, grown, reached, rest⟩ := ih once later (f s y)
      exact ⟨u, record.trans (first.other p here), ⟨fun e among => grown.raised e (first.raised e among),
        grown.mask.trans first.mask, grown.rotation.trans first.rotation⟩, reached, rest⟩

end Alone

end Sys2Proof.Machine
end


section
/-! PROOF. A fallback exit leaves the pumps that are not of the well (R146, R147). -/

namespace Sys2Proof.Machine

section Spared

variable {s t x y b : State} {p q : Pump} {w v : Well} {d : WellDelivery} {names : PerPump (Option ExitName)}

/-- The pumps that are not of a well are as they stood, and each Rotation List holds the pumps of its well. -/
structure Spared (s : State) (w : Well) (x : State) : Prop where
  mask : dcMask x = dcMask s
  others : ∀ q, s.wellOf q ≠ some w → x.pump q = s.pump q
  lists : ∀ v q, q ∈ x.duty.rotation.get v ↔ s.wellOf q = some v

theorem Spared.of_running (law : RunningLaw s) : Spared s w s := ⟨rfl, fun _ _ => rfl, law.lists⟩

theorem Spared.apart (h : Spared s w x) (here : s.wellOf p = some w) (k : Apart p x y) : Spared s w y where
  mask := k.mask.trans h.mask
  others q away := by
    have ne : q ≠ p := fun same => away (same ▸ here)
    rw [k.other q ne, h.others q away]
  lists u q := by rw [k.rotation]; exact h.lists u q

theorem Spared.each {f : State → Pump → State} (step : ∀ s q, Apart q s (f s q)) {xs : List Pump}
    (inside : ∀ q ∈ xs, s.wellOf q = some w) (h : Spared s w x) : Spared s w (State.each f xs x) := by
  induction xs generalizing x with
  | nil => exact h
  | cons q qs ih =>
    exact ih (fun r member => inside r (.tail _ member)) (h.apart (inside q (.head _)) (step x q))

/-- A state in which nothing of the pumps, and of the lists their members alone, has changed. -/
theorem Spared.of_pumps (h : Spared s w x) (mask : dcMask y = dcMask x) (pumps : y.pumps = x.pumps)
    (lists : ∀ v q, q ∈ y.duty.rotation.get v ↔ q ∈ x.duty.rotation.get v) : Spared s w y :=
  ⟨mask.trans h.mask, fun q away => (congrArg (·.get q) pumps).trans (h.others q away), fun v q => (lists v q).trans (h.lists v q)⟩

/-! ## Evaluations of the well -/

theorem treat_mild (chosen : List Pump) (s : State) (p : Pump) : Mild p s (treat chosen s p) := by
  unfold treat
  dsimp only
  split
  · exact .refl s
  · split
    · split
      · exact (enter_mild s p _).trans (raise_mild _ p _)
      · exact .refl s
    · split
      · exact .refl s
      · exact (raise_mild s p _).trans (enterOff_mild _ p)
    · split
      · exact setPump_mild s p _
      · split
        · exact stopPump_mild s p true
        · exact setPump_mild s p _
    · exact .refl s

theorem Spared.rotates (h : Spared s w x) (v : Well) : Spared s w (rotateIfDue x v) := by
  refine h.of_pumps (rotateIfDue_dc x v) (rotateIfDue_pumps x v) fun u q => ?_
  unfold rotateIfDue
  split
  · dsimp only
    rw [PerWell.get_set]
    split
    · next same =>
      subst same
      rw [rotate_eq]
      conv_rhs => rw [← List.take_append_drop 1 (x.duty.rotation.get u)]
      rw [List.mem_append, List.mem_append]
      exact or_comm
    · rfl
  · rfl

theorem Spared.once (h : Spared s w x) : Spared s w (evaluateOnce x w d) := by
  rcases evaluateOnce_cases x w d with same | ⟨n, demand, due, evaluated⟩
  · rwa [same]
  · rw [evaluated]
    have before : Spared s w (demanded x w n demand due) := h.of_pumps rfl rfl fun _ _ => Iff.rfl
    exact before.each (fun s q => (treat_mild _ s q).toApart) fun q member => (h.lists w q).mp member

theorem Spared.evaluateFuel (n : Nat) (h : Spared s w x) : Spared s w (evaluateFuel n x w d) := by
  induction n generalizing x with
  | zero => exact h
  | succ n ih =>
    unfold Machine.evaluateFuel
    dsimp only
    split
    · exact ih (h.once.rotates w)
    · exact h.once.rotates w

theorem Spared.evaluateLive (h : Spared s w x) : Spared s w (evaluateLive x w) := (h.rotates w).evaluateFuel 8

theorem Spared.evaluateWithin (h : Spared s w x) : Spared s w (evaluateWithin x w) := by
  have evaluated := h.evaluateLive
  refine evaluated.each (fun s q => (withdrawExcess_mild w s q).toApart) fun q member => ?_
  exact (evaluated.lists w q).mp (List.mem_reverse.mp member)

/-! ## What follows -/

theorem Spared.evaluateChanged (h : Spared s w x) (v : Well) : Spared s w (evaluateChanged s x v) := by
  by_cases here : v = w
  · subst here
    unfold Machine.evaluateChanged
    split
    · exact h.evaluateLive
    · exact h
  · have none : wellChanged s x v = false := by
      unfold wellChanged
      rw [List.any_eq_false]
      intro q member
      have away : s.wellOf q ≠ some w := by
        rw [(h.lists v q).mp member]
        simpa using here
      rw [h.others q away]
      simp
    unfold Machine.evaluateChanged
    rwa [none]

theorem judgeDeadHead_mild (s : State) (p : Pump) : Mild p s (judgeDeadHead s p) :=
  .of_fields (fun _ ne => judgeDeadHead_other ne) (fun _ => (judgeDeadHead_grows s p).mem_raised) (judgeDeadHead_dc s p)
    (by rw [judgeDeadHead_duty]) judgeDeadHead_lp

theorem Spared.judgeChanged (h : Spared s w x) (p : Pump) : Spared s w (judgeChanged s x p) := by
  unfold Machine.judgeChanged
  split
  · exact h
  · next moved =>
    by_cases here : s.wellOf p = some w
    · exact h.apart here (judgeDeadHead_mild x p).toApart
    · rw [h.others p here] at moved
      exact absurd ⟨rfl, rfl⟩ moved

theorem Spared.noticeFlow (h : Spared s w x) (p : Pump) : Spared s w (noticeFlow s x p) := by
  have tick : Spared s w (runTick s x p) := by
    unfold runTick
    split
    · exact h
    · next moved =>
      by_cases here : s.wellOf p = some w
      · exact h.apart here (setPump_mild x p _).toApart
      · rw [h.others p here] at moved
        exact absurd rfl moved
  unfold Machine.noticeFlow
  dsimp only
  exact tick.of_pumps (State.raiseIf_dc _ _ _) (State.raiseIf_pumps ..) fun v q => by rw [State.raiseIf_duty]

theorem Spared.settle (h : Spared s w x) : Spared s w (settle s x) := by
  have each {α : Type} {f : State → α → State} (step : ∀ y i, Spared s w y → Spared s w (f y i)) (xs : List α) {y : State}
      (k : Spared s w y) : Spared s w (State.each f xs y) := by
    induction xs generalizing y with
    | nil => exact k
    | cons i is ih => exact ih (step y i k)
  unfold Machine.settle
  exact each (fun _ p k => k.noticeFlow p) _ (each (fun _ p k => k.judgeChanged p) _
    (each (fun _ v k => k.rotates v) _ (each (fun _ v k => k.evaluateChanged v) _ h)))

/-! ## The exit -/

/-- The exit before what follows it, the excess over max running having been stopped. -/
def exitStopped (s : State) (w : Well) (names : PerPump (Option ExitName)) : State :=
  State.each (stopExcess names w) ((exitNamed s w names).duty.rotation.get w).reverse (exitNamed s w names)

/-- The exit with the reports that came behind it, before what follows. -/
def exitEnded (s : State) (w : Well) (names : PerPump (Option ExitName)) : State :=
  State.each (takeLateReport names) ((exitStopped s w names).setup.pumpsOf w) (evaluateWithin (exitStopped s w names) w)

theorem exec_fallbackExitDc (live : s.live = true) :
    exec (.fallbackExitDc w names) s = .next (settle s (exitEnded s w names)) := whenDc_next live

theorem returnMoved_spared (h : Spared s w x) (xs : List Pump) : Spared s w (State.each (returnMoved w names) xs x) := by
  have grown := each_grown (f := returnMoved w names) (fun s q => returnMoved_apart w names s q) xs x
  exact h.of_pumps grown.mask (returnMoved_pumps w names xs x) fun v q => by rw [grown.rotation]

theorem Spared.inside (h : Spared s w x) : ∀ q ∈ x.setup.pumpsOf w, s.wellOf q = some w := by
  intro q member
  rw [setup_of_dc h.mask] at member
  exact (mem_pumpsOf _ _ _).mp member

theorem exitNamed_spared (law : RunningLaw s) : Spared s w (exitNamed s w names) := by
  have k0 : Spared s w (State.each (returnMoved w names) Pump.all s) := returnMoved_spared (.of_running law) _
  have k1 := k0.each (takeExitName_apart w names) k0.inside
  have k2 := k1.each (fun s q => (stopUnfit_mild names s q).toApart) k1.inside
  exact k2.each (evalInterlock_apart _) k2.inside

/-- A fallback exit leaves the pumps that are not of the well. -/
theorem exit_spared (law : RunningLaw s) : Spared s w (settle s (exitEnded s w names)) := by
  have k3 : Spared s w (exitNamed s w names) := exitNamed_spared law
  have k4 : Spared s w (exitStopped s w names) :=
    k3.each (fun s q => (stopExcess_mild names w s q).toApart) fun q member => (k3.lists w q).mp (List.mem_reverse.mp member)
  exact ((k4.evaluateWithin).each (fun s q => (takeLateReport_mild names s q).toApart) k4.inside).settle

end Spared

end Sys2Proof.Machine
end


section
/-! PROOF. What a fallback exit does to one pump of the well, stage by stage (R146, R147). -/

namespace Sys2Proof.Machine

section Stages

variable {s t x y u a b : State} {p q : Pump} {w : Well} {d : WellDelivery} {names : PerPump (Option ExitName)}
  {R : PumpRecord → Prop}

/-! ## Events on their way -/

theorem Grown.refl (s : State) : Grown s s := ⟨fun _ => id, rfl, rfl⟩

theorem Grown.trans (h : Grown s t) (k : Grown t u) : Grown s u :=
  ⟨fun e member => k.raised e (h.raised e member), k.mask.trans h.mask, k.rotation.trans h.rotation⟩

theorem evaluateWithin_raised : ∀ e ∈ s.raised, e ∈ (evaluateWithin s w).raised := fun e member =>
  (each_grown (fun s q => (withdrawExcess_mild w s q).toApart) _ _).raised e ((grows_settles.evaluateLive s w).mem_raised member)

/-- The pumps that are named after all that was moved away since. -/
def movedBack (s : State) (w : Well) (names : PerPump (Option ExitName)) : State := State.each (returnMoved w names) Pump.all s

/-- The pumps of the well as their names have them. -/
def nameTaken (s : State) (w : Well) (names : PerPump (Option ExitName)) : State :=
  State.each (takeExitName w names) (s.setup.pumpsOf w) (movedBack s w names)

theorem movedBack_grown : Grown s (movedBack s w names) := each_grown (fun s q => returnMoved_apart w names s q) _ s

theorem movedBack_pump (p : Pump) : (movedBack s w names).pump p = s.pump p :=
  congrArg (·.get p) (returnMoved_pumps w names Pump.all s)

theorem nameTaken_grown : Grown (movedBack s w names) (nameTaken s w names) := each_grown (takeExitName_apart w names) _ _

/-- The pumps of the well fitted to their lockouts, disabled flags and interlocks. -/
def refitted (w : Well) (names : PerPump (Option ExitName)) (s : State) : State :=
  let s := State.each (stopUnfit names) (s.setup.pumpsOf w) s
  State.each (evalInterlock (deliveryOf (s.well w))) (s.setup.pumpsOf w) s

theorem refitted_eq (mask : dcMask x = dcMask s) : refitted w names x =
    State.each (evalInterlock (deliveryOf (s.well w))) (s.setup.pumpsOf w) (State.each (stopUnfit names) (s.setup.pumpsOf w) x) := by
  have mask' : dcMask (State.each (stopUnfit names) (s.setup.pumpsOf w) x) = dcMask s :=
    (each_grown (fun s q => (stopUnfit_mild names s q).toApart) _ _).mask.trans mask
  have well : (State.each (stopUnfit names) (s.setup.pumpsOf w) x).well w = s.well w :=
    congrArg (·.get w) (eq_of_mask dcMask State.wells (fun _ => rfl) mask')
  unfold refitted
  dsimp only
  rw [setup_of_dc mask, well, setup_of_dc mask']

theorem exitNamed_eq : exitNamed s w names = State.each (evalInterlock (deliveryOf (s.well w))) (s.setup.pumpsOf w)
    (State.each (stopUnfit names) (s.setup.pumpsOf w) (nameTaken s w names)) := by
  have mask : dcMask (nameTaken s w names) = dcMask s := nameTaken_grown.mask.trans movedBack_grown.mask
  have taken : State.each (takeExitName w names) ((movedBack s w names).setup.pumpsOf w) (movedBack s w names)
      = nameTaken s w names := by
    rw [setup_of_dc movedBack_grown.mask]
    rfl
  exact (congrArg (refitted w names) taken).trans (refitted_eq mask)

theorem exitNamed_grown : Grown (nameTaken s w names) (exitNamed s w names) := by
  rw [exitNamed_eq]
  exact (each_grown (fun s q => (stopUnfit_mild names s q).toApart) _ _).trans (each_grown (evalInterlock_apart _) _ _)

theorem exitStopped_grown : Grown (exitNamed s w names) (exitStopped s w names) :=
  each_grown (fun s q => (stopExcess_mild names w s q).toApart) _ _

theorem exitStopped_mask : dcMask (exitStopped s w names) = dcMask s :=
  exitStopped_grown.mask.trans (exitNamed_grown.mask.trans (nameTaken_grown.mask.trans movedBack_grown.mask))

/-- The exit but for the reports that came behind it. -/
def exitWithin (s : State) (w : Well) (names : PerPump (Option ExitName)) : State := evaluateWithin (exitStopped s w names) w

theorem exitWithin_mask : dcMask (exitWithin s w names) = dcMask s := (evaluateWithin_dc _ w).trans exitStopped_mask

theorem exitEnded_eq : exitEnded s w names = State.each (takeLateReport names) (s.setup.pumpsOf w) (exitWithin s w names) := by
  unfold exitEnded
  rw [setup_of_dc exitStopped_mask]
  rfl

theorem exitEnded_grown : Grown (exitWithin s w names) (exitEnded s w names) := by
  rw [exitEnded_eq]
  exact each_grown (fun s q => (takeLateReport_mild names s q).toApart) _ _

theorem exitEnded_mask : dcMask (exitEnded s w names) = dcMask s := exitEnded_grown.mask.trans exitWithin_mask

/-- A charge that an exit notice records for a pump moved away is given back. -/
theorem moved_released (away : s.wellOf p ≠ some w) (free : (s.pump p).charge = .none)
    (recorded : exitKind (names.get p) ≠ .none) : .chargeRelease (.pump p) ∈ (settle s (exitEnded s w names)).raised := by
  have all : p ∈ Pump.all := by cases p <;> decide
  obtain ⟨u, record, grown, -, rest⟩ := each_comes (f := returnMoved w names) (p := p) (fun s q => returnMoved_apart w names s q)
    (by decide) all s
  have well : u.wellOf p = s.wellOf p := by
    unfold State.wellOf
    rw [setup_of_dc grown.mask]
  have raised : .chargeRelease (.pump p) ∈ (returnMoved w names u p).raised := by
    refine mem_raiseIf _ ?_
    rw [well, record, free]
    simp [away, recorded]
  refine (settle_grows s _).mem_raised (exitEnded_grown.raised _ (evaluateWithin_raised _ (exitStopped_grown.raised _
    (exitNamed_grown.raised _ (nameTaken_grown.raised _ (rest.raised _ raised))))))

/-! ## What a pump is named as stays to the end of the exit -/

theorem nameTaken_pump (here : s.wellOf p = some w) : ∃ u, u.pump p = s.pump p ∧ dcMask u = dcMask s
    ∧ (nameTaken s w names).pump p = (takeExitName w names u p).pump p := by
  obtain ⟨u, record, grown, reached, -⟩ := each_comes (f := takeExitName w names) (takeExitName_apart w names)
    (pumpsOf_nodup s.setup w) ((mem_pumpsOf _ _ _).mpr here) (movedBack s w names)
  exact ⟨u, record.trans (movedBack_pump p), grown.mask.trans movedBack_grown.mask, reached⟩

/-- A property of a pump's record that an operation on this pump keeps stays through that operation on one pump after another. -/
theorem each_stays {f : State → Pump → State} (other : ∀ s q, p ≠ q → (f s q).pump p = s.pump p)
    (own : ∀ x, R (x.pump p) → R ((f x p).pump p)) (xs : List Pump) (h : R (x.pump p)) : R ((State.each f xs x).pump p) := by
  induction xs generalizing x with
  | nil => exact h
  | cons q qs ih =>
    refine ih ?_
    by_cases here : p = q
    · subst here; exact own x h
    · rwa [other x q here]

theorem fitted_stays (stop : ∀ x, R (x.pump p) → (x.pump p).state = .running → R ((stopPump x p true).pump p))
    (lock : ∀ x d, R (x.pump p) → R ((evalInterlock d x p).pump p)) (h : R ((nameTaken s w names).pump p)) :
    R ((exitNamed s w names).pump p) := by
  rw [exitNamed_eq]
  refine each_stays (fun _ _ => evalInterlock_other _) (fun x => lock x _) _ ?_
  refine each_stays (fun _ _ => stopUnfit_other names) (fun x k => ?_) _ h
  unfold stopUnfit
  split
  · next unfit =>
    refine stop x k ?_
    simp only [Bool.and_eq_true, beq_iff_eq] at unfit
    exact unfit.1.2
  · exact k

theorem withdrawExcess_other (apart : p ≠ q) : (withdrawExcess w s q).pump p = s.pump p := (withdrawExcess_mild w s q).other p apart

theorem within_stays (stop : ∀ x, R (x.pump p) → (x.pump p).state = .running → R ((stopPump x p true).pump p))
    (follow : Following fun s t => R (s.pump p) → R (t.pump p))
    (off : ∀ x, R (x.pump p) → (x.pump p).state = .startWait → R ((enterOff (withdraw x p) p).pump p))
    (h : R ((exitNamed s w names).pump p)) : R ((exitWithin s w names).pump p) := by
  unfold exitWithin evaluateWithin
  refine each_stays (fun _ _ => withdrawExcess_other) (fun x k => ?_) _ (follow.evaluateLive _ w ?_)
  · unfold withdrawExcess
    split
    · next waits => exact off x k waits.1
    · exact k
  · refine each_stays (fun s q ne => (stopExcess_mild names w s q).other p ne) (fun x k => ?_) _ h
    unfold stopExcess
    split
    · next excess =>
      refine stop x k ?_
      simp only [Bool.and_eq_true, beq_iff_eq] at excess
      exact excess.1.2
    · exact k

theorem Following.weaken {R' R'' : State → State → Prop} (h : Following R') (imp : ∀ {s t}, R' s t → R'' s t)
    (refl : ∀ s, R'' s s) (trans : ∀ {s t u}, R'' s t → R'' t u → R'' s u) : Following R'' where
  refl := refl
  trans := trans
  once s w d := imp (h.once s w d)
  rotates s w := imp (h.rotates s w)
  judge s p := imp (h.judge s p)
  tick s p x := imp (h.tick s p x)
  raise s e := imp (h.raise s e)

theorem Following.and {R' R'' : State → State → Prop} (h : Following R') (k : Following R'') :
    Following fun s t => R' s t ∧ R'' s t where
  refl s := ⟨h.refl s, k.refl s⟩
  trans x y := ⟨h.trans x.1 y.1, k.trans x.2 y.2⟩
  once s w d := ⟨h.once s w d, k.once s w d⟩
  rotates s w := ⟨h.rotates s w, k.rotates s w⟩
  judge s p := ⟨h.judge s p, k.judge s p⟩
  tick s p x := ⟨h.tick s p x, k.tick s p x⟩
  raise s e := ⟨h.raise s e, k.raise s e⟩

/-! ## A pump that neither waits, starts nor runs, nor may be asked for -/

/-- A state that no stage after the names moves a pump out of. -/
def Rests (st : PumpState) : Prop := st ≠ .off ∧ st ≠ .startWait ∧ st ≠ .starting ∧ st ≠ .running

/-- A record with an interlock. -/
def withLock (r : PumpRecord) (i : Bool) : PumpRecord := { r with interlock := i }

/-- A record as it was but for its interlock and what judgements leave. -/
def AsNamed (r r' : PumpRecord) : Prop := ∃ i, still r' = still (withLock r i)

theorem asNamed_refl (r : PumpRecord) : AsNamed r r := ⟨r.interlock, rfl⟩

theorem AsNamed.of {α : Type} {r r' : PumpRecord} (h : AsNamed r r') (g : PumpRecord → α) (blind : ∀ r, g (still r) = g r)
    (unlocked : ∀ r i, g (withLock r i) = g r) : g r' = g r := by
  obtain ⟨i, same⟩ := h
  rw [of_still g blind same, unlocked]

theorem AsNamed.state {r r' : PumpRecord} (h : AsNamed r r') : r'.state = r.state := h.of (·.state) (fun _ => rfl) fun _ _ => rfl

theorem AsNamed.lock {r r' : PumpRecord} (h : AsNamed r r') (j : Bool) : AsNamed r (withLock r' j) := by
  obtain ⟨i, same⟩ := h
  exact ⟨j, congrArg (withLock · j) same⟩

theorem AsNamed.still {r r' r'' : PumpRecord} (h : AsNamed r r') (same : still r'' = still r') : AsNamed r r'' := by
  obtain ⟨i, as⟩ := h
  exact ⟨i, same.trans as⟩

theorem Rests.held {r : PumpRecord} (h : Rests r.state) : Held r := .inr ⟨h.1, h.2.1, h.2.2.2⟩

theorem evalInterlock_asNamed {r : PumpRecord} (rests : Rests r.state) (h : AsNamed r (s.pump p)) :
    AsNamed r ((evalInterlock d s p).pump p) := by
  have set : AsNamed r ((locked s p d).pump p) := by
    rw [locked_pump]
    exact h.lock _
  obtain ⟨-, waits, starts, runs⟩ := rests
  rw [evalInterlock_eq]
  split
  · rcases interlockPump_cases (locked s p d) p with ⟨st, -⟩ | ⟨st, -⟩ | ⟨-, -, -, same⟩
    · exact absurd (set.state.symm.trans st) waits
    · rcases st with st | st
      · exact absurd (set.state.symm.trans st) starts
      · exact absurd (set.state.symm.trans st) runs
    · rw [same]
      exact set
  · exact set

theorem asNamed_following {r : PumpRecord} (rests : Rests r.state) (p : Pump) :
    Following fun s t => AsNamed r (s.pump p) → AsNamed r (t.pump p) :=
  (held_settles p).following.weaken
    (fun same h => h.still (same (Rests.held (by rw [h.state]; exact rests)))) (fun _ => id) (fun h k => k ∘ h)

/-- A pump named into a state at rest is found there before the late reports. -/
theorem rests_within (rests : Rests ((nameTaken s w names).pump p).state) :
    AsNamed ((nameTaken s w names).pump p) ((exitWithin s w names).pump p) := by
  have stop (x : State) (h : AsNamed ((nameTaken s w names).pump p) (x.pump p)) (runs : (x.pump p).state = .running) :
      AsNamed ((nameTaken s w names).pump p) ((stopPump x p true).pump p) :=
    absurd (h.state.symm.trans runs) rests.2.2.2
  have fitted : AsNamed ((nameTaken s w names).pump p) ((exitNamed s w names).pump p) :=
    fitted_stays stop (fun x d h => evalInterlock_asNamed rests h) (asNamed_refl _)
  exact within_stays stop (asNamed_following rests p) (fun x h waits => absurd (h.state.symm.trans waits) rests.2.1) fitted

/-! ## A pump that may be asked for -/

theorem evalInterlock_keeps_free (h : Free (s.pump p)) : Free ((evalInterlock d s p).pump p) := by
  have set : Free ((locked s p d).pump p) := by
    rw [locked_pump]
    exact h
  rw [evalInterlock_eq]
  split
  · rcases interlockPump_cases (locked s p d) p with ⟨-, same⟩ | ⟨st, -⟩ | ⟨-, -, -, same⟩
    · have off := Free.enterOff set
      have fields := of_bare (fun r => (r.lockout, r.disabled, r.state)) (fun _ => rfl) same
      simp only [Prod.mk.injEq] at fields
      obtain ⟨lockout, disabled, state⟩ := fields
      unfold Free
      rw [lockout, disabled, state]
      exact off
    · obtain ⟨-, -, off | waits⟩ := set
      · rcases st with st | st <;> rw [off] at st <;> cases st
      · rcases st with st | st <;> rw [waits] at st <;> cases st
    · rw [same]
      exact set
  · exact set

/-- A pump named into OFF is found in OFF or START_WAIT before the late reports. -/
theorem free_within (h : Free ((nameTaken s w names).pump p)) : Free ((exitWithin s w names).pump p) := by
  have stop (x : State) (h : Free (x.pump p)) (runs : (x.pump p).state = .running) : Free ((stopPump x p true).pump p) := by
    obtain ⟨-, -, off | waits⟩ := h
    · rw [off] at runs; cases runs
    · rw [waits] at runs; cases runs
  exact within_stays stop (free_settles p).following (fun x h _ => Free.enterOff (s := withdraw x p) h)
    (fitted_stays stop (fun x d h => evalInterlock_keeps_free h) h)

/-! ## An adopted pump -/

/-- A pump adopted at a time: charged, under AUTO, running or sent to stop. -/
structure Adopted (now : Ms) (r : PumpRecord) : Prop where
  charge : r.charge = .running
  owner : r.owner = .auto
  history : now ∈ r.history
  spins : Spinning r

theorem Adopted.stop {now : Ms} (h : Adopted now (s.pump p)) : Adopted now ((stopPump s p true).pump p) := by
  have fields := of_bare (fun r => (r.charge, r.owner, r.history, r.state)) (fun _ => rfl) (stopPump_bare (s := s) (p := p) true)
  simp only [Prod.mk.injEq] at fields
  obtain ⟨charge, owner, history, state⟩ := fields
  refine ⟨charge.trans ?_, owner, history ▸ h.history, .inr state⟩
  show returned (s.pump p).charge = _
  rw [h.charge]
  rfl

theorem Adopted.of_bare {now : Ms} {r r' : PumpRecord} (same : bare r' = bare r) (h : Adopted now r) : Adopted now r' := by
  have fields := Machine.of_bare (fun r => (r.charge, r.owner, r.history, r.state)) (fun _ => rfl) same
  simp only [Prod.mk.injEq] at fields
  obtain ⟨charge, owner, history, state⟩ := fields
  refine ⟨charge.trans h.charge, owner.trans h.owner, history ▸ h.history, ?_⟩
  unfold Spinning
  rw [state]
  exact h.spins

theorem evalInterlock_adopted {now : Ms} (h : Adopted now (s.pump p)) : Adopted now ((evalInterlock d s p).pump p) := by
  have set : Adopted now ((locked s p d).pump p) := by
    rw [locked_pump]
    exact ⟨h.charge, h.owner, h.history, h.spins⟩
  rw [evalInterlock_eq]
  split
  · rcases interlockPump_cases (locked s p d) p with ⟨waits, -⟩ | ⟨-, same⟩ | ⟨-, -, -, same⟩
    · rcases set.spins with st | st <;> rw [waits] at st <;> cases st
    · exact (set.stop.of_bare (stopPump_bare true).symm).of_bare same
    · rw [same]
      exact set
  · exact set

theorem adopted_following (now : Ms) (p : Pump) : Following fun s t => Adopted now (s.pump p) → Adopted now (t.pump p) :=
  ((spinning_settles p).following.and (steady_settles p).following).weaken
    (fun both h => ⟨(both.2.charge (by rw [h.charge]; simp)).trans h.charge, both.2.owner.trans h.owner,
      both.2.history ▸ h.history, both.1 h.spins⟩) (fun _ => id) (fun h k => k ∘ h)

/-- A pump named adopted is found so before the late reports. -/
theorem adopted_within {now : Ms} (h : Adopted now ((nameTaken s w names).pump p)) :
    Adopted now ((exitWithin s w names).pump p) := by
  have stop (x : State) (h : Adopted now (x.pump p)) (_ : (x.pump p).state = .running) :
      Adopted now ((stopPump x p true).pump p) := h.stop
  refine within_stays stop (adopted_following now p) (fun x h waits => ?_) (fitted_stays stop (fun x d h => evalInterlock_adopted h) h)
  rcases h.spins with st | st <;> rw [waits] at st <;> cases st

/-! ## A pump whose interlock is set -/

theorem parked_following (p : Pump) : Following fun s t => Parked (s.pump p) → Parked (t.pump p) :=
  ((held_settles p).following.and (unasked_following p)).weaken
    (fun {s t} both h => by
      have same := Parked.stays h both.1 both.2
      have fields := of_still (fun r => (r.interlock, r.state)) (fun _ => rfl) same
      obtain ⟨locked, state⟩ := Prod.mk.inj fields
      unfold Parked
      rw [locked, state]
      exact h) (fun _ => id) (fun h k => k ∘ h)

/-- A parked pump stays so before the late reports. -/
theorem parked_within (h : Parked ((exitNamed s w names).pump p)) : Parked ((exitWithin s w names).pump p) :=
  within_stays (fun _ h runs => absurd runs h.2.2.2) (parked_following p) (fun _ h waits => absurd waits h.2.1) h

theorem lock_within (i : Bool) (h : ((exitNamed s w names).pump p).interlock = i) :
    ((exitWithin s w names).pump p).interlock = i := by
  refine within_stays (R := fun r => r.interlock = i) (fun x h _ => ?_) ?_ (fun x h _ => ?_) h
  · exact (of_bare (·.interlock) (fun _ => rfl) (stopPump_bare true)).trans h
  · exact (steady_settles p).following.weaken (fun steady h => steady.interlock.trans h) (fun _ => id) (fun h k => k ∘ h)
  · rw [enterOff_pump]
    exact h

end Stages

end Sys2Proof.Machine
end


section
/-! PROOF. How a pump that an exit notice names is found after all that follows (R60, R61, R146, R147). -/

namespace Sys2Proof.Machine

section Named

variable {s t x y u a b : State} {p q : Pump} {w : Well} {d : DriveReport} {at_ : Ms} {names : PerPump (Option ExitName)}
  {turning : Bool}

/-! ## The names (R146) -/

/-- The charge of a pump whose motor turns without its command, or does not turn. -/
def turningCharge (turning : Bool) : ChargeKind := if turning then .external else .none

theorem named_local (name : names.get p = some (.localHand turning)) : (takeExitName w names x p).pump p =
    withCharge (inState x (x.pump p) (.unavailable .localHand)) (turningCharge turning) := by
  unfold takeExitName
  simp only [name]
  rw [State.pump_setPump, if_pos rfl, enter_pump]
  rfl

/-- The record of a pump named silent. -/
def silentNamed (s : State) (r : PumpRecord) (turning : Bool) : PumpRecord :=
  { withCharge (inState s r (.unavailable .noStatus)) (turningCharge turning) with silentRunning := turning }

theorem named_silent (name : names.get p = some (.silent turning)) :
    (takeExitName w names x p).pump p = silentNamed x (x.pump p) turning := by
  unfold takeExitName
  simp only [name]
  rw [State.pump_setPump, if_pos rfl, enter_pump]
  rfl

theorem named_stopped (name : names.get p = some .stopped) :
    bare ((takeExitName w names x p).pump p) = bare ((enterOff x p).pump p) := by
  unfold takeExitName
  simp only [name]
  exact buildCommand_bare true

theorem mem_appendStart (h : List Ms) (now : Ms) : now ∈ appendStart h now := by
  unfold appendStart
  split
  · next newest => exact List.mem_of_getLast? newest
  · simp

theorem mem_adoptHistory (s : State) (p : Pump) : s.now ∈ adoptHistory s p := by
  unfold adoptHistory
  dsimp only
  split <;> exact mem_appendStart _ _

theorem readied_adopted : Adopted x.now ((readied w x p).pump p) ∧ ((readied w x p).pump p).state = .running
    ∧ ((readied w x p).pump p).count = (x.pump p).count := by
  have start : Adopted x.now ((resumed x p).pump p) ∧ ((resumed x p).pump p).state = .running
      ∧ ((resumed x p).pump p).count = (x.pump p).count := by
    unfold resumed
    dsimp only
    rw [State.pump_setPump, if_pos rfl, enter_pump]
    exact ⟨⟨rfl, rfl, mem_adoptHistory (enter x p .running) p, .inl rfl⟩, rfl, rfl⟩
  have speeds : Adopted x.now ((respeeded w (resumed x p) p).pump p)
      ∧ ((respeeded w (resumed x p) p).pump p).state = .running
      ∧ ((respeeded w (resumed x p) p).pump p).count = (x.pump p).count := by
    obtain ⟨adopted, state, count⟩ := start
    unfold respeeded
    split
    · unfold restage
      dsimp only
      rw [State.pump_setPump, if_pos rfl]
      exact ⟨⟨adopted.charge, adopted.owner, adopted.history, adopted.spins⟩, state, count⟩
    · exact ⟨adopted, state, count⟩
  obtain ⟨adopted, state, count⟩ := speeds
  unfold readied
  dsimp only
  rw [State.pump_setPump, if_pos rfl]
  exact ⟨⟨adopted.charge, adopted.owner, adopted.history, adopted.spins⟩, state, count⟩

theorem named_adopted (name : names.get p = some .adopted) : Adopted x.now ((takeExitName w names x p).pump p) := by
  have taken : takeExitName w names x p = adopt w x p := by
    unfold takeExitName
    simp only [name]
  rw [taken, adopt_eq]
  exact readied_adopted.1.of_bare (offerCommand_bare _ _)

/-! ## The late reports (R145) -/

theorem exitEnded_pump (here : s.wellOf p = some w) : ∃ u, u.pump p = (exitWithin s w names).pump p ∧ dcMask u = dcMask s
    ∧ (exitEnded s w names).pump p = (takeLateReport names u p).pump p
    ∧ ∀ e ∈ (takeLateReport names u p).raised, e ∈ (exitEnded s w names).raised := by
  obtain ⟨u, record, grown, reached, rest⟩ := each_comes (f := takeLateReport names) (fun s q => (takeLateReport_mild names s q).toApart)
    (pumpsOf_nodup s.setup w) ((mem_pumpsOf _ _ p).mpr here) (exitWithin s w names)
  rw [← exitEnded_eq] at reached rest
  exact ⟨u, record, grown.mask.trans exitWithin_mask, reached, rest.raised⟩

theorem takeLateReport_other (name : ∀ turning, names.get p ≠ some (.silent turning)) : takeLateReport names x p = x := by
  unfold takeLateReport
  split
  · next silent _ => exact absurd silent (name _)
  · rfl

theorem takeLateReport_unknown (drive : (x.pump p).drive = .unknown) : takeLateReport names x p = x := by
  unfold takeLateReport
  split
  · next known => rw [drive] at known; cases known
  · rfl

theorem takeLateReport_known (name : names.get p = some (.silent turning)) (drive : (x.pump p).drive = .known d at_) :
    takeLateReport names x p = takeReport x p d := by
  unfold takeLateReport
  simp only [name, drive]

/-- A pump that no late report reaches. -/
theorem exitEnded_pump_of_other (here : s.wellOf p = some w) (name : ∀ turning, names.get p ≠ some (.silent turning)) :
    (exitEnded s w names).pump p = (exitWithin s w names).pump p := by
  obtain ⟨u, record, -, reached, -⟩ := exitEnded_pump (names := names) here
  rw [reached, takeLateReport_other name, record]

/-- Where a pump sent to OFF goes, it neither waits nor starts nor runs. -/
theorem redirected_idle (l e : Bool) (st : PumpState) (h : st = if l then .lockedOut else if e then .unavailable .disabled else .off) :
    st ≠ .startWait ∧ st ≠ .starting ∧ st ≠ .running := by
  subst h
  cases l
  · cases e <;> simp
  · simp

/-- A pump at rest in silence keeps its interlock through a report, and stays at rest. -/
theorem away_parked (silent : (x.pump p).state = .unavailable .noStatus) :
    ((takeReport x p d).pump p).interlock = (x.pump p).interlock
    ∧ ((takeReport x p d).pump p).state ≠ .startWait ∧ ((takeReport x p d).pump p).state ≠ .starting
    ∧ ((takeReport x p d).pump p).state ≠ .running := by
  rw [takeReport_away (.inr silent)]
  split
  · rw [takeLocal_pump]
    exact ⟨rfl, by simp [withCharge], by simp [withCharge], by simp [withCharge]⟩
  · by_cases turns : turning d = true
    · rw [leaveLocal_turning turns]
      have fields := of_bare (fun r => (r.interlock, r.state)) (fun _ => rfl) (stopPump_bare (s := x) (p := p) true)
      obtain ⟨interlock, state⟩ := Prod.mk.inj fields
      rw [stopPump_state]
      exact ⟨interlock, by simp, by simp, by simp⟩
    · rw [leaveLocal_still (by simpa using turns), enterOff_pump, releaseCharge_pump, returning_pump]
      exact ⟨rfl, redirected_idle _ _ _ rfl⟩

/-! ## How each name is found -/

theorem still_settled (rests : Rests ((nameTaken s w names).pump p).state) (here : s.wellOf p = some w)
    (name : ∀ turning, names.get p ≠ some (.silent turning)) :
    AsNamed ((nameTaken s w names).pump p) ((settle s (exitEnded s w names)).pump p) := by
  have named := rests_within rests
  rw [← exitEnded_pump_of_other here name] at named
  exact named.still (settle_held s _ p (Rests.held (by rw [named.state]; exact rests)))

/-- A pump named adopted. -/
theorem adopted_settled (here : s.wellOf p = some w) (name : names.get p = some .adopted) :
    Adopted s.now ((settle s (exitEnded s w names)).pump p) := by
  obtain ⟨u, -, mask, reached⟩ := nameTaken_pump (names := names) here
  have first : Adopted s.now ((nameTaken s w names).pump p) := by
    rw [reached, ← now_of_dc mask]
    exact named_adopted name
  have within := adopted_within first
  rw [← exitEnded_pump_of_other here (by rw [name]; simp)] at within
  exact (adopted_following s.now p).settle s _ within

/-- A pump named local. -/
theorem local_settled (here : s.wellOf p = some w) (name : names.get p = some (.localHand turning)) :
    ((settle s (exitEnded s w names)).pump p).state = .unavailable .localHand
    ∧ ((settle s (exitEnded s w names)).pump p).charge = turningCharge turning := by
  obtain ⟨u, -, -, reached⟩ := nameTaken_pump (names := names) here
  rw [named_local name] at reached
  have rests : Rests ((nameTaken s w names).pump p).state := by
    rw [reached]
    simp [Rests, withCharge]
  have named := still_settled rests here (by rw [name]; simp)
  refine ⟨named.state.trans (by rw [reached]; rfl), ?_⟩
  rw [named.of (·.charge) (fun _ => rfl) fun _ _ => rfl, reached]
  rfl

/-- A pump named stopped. -/
theorem stopped_settled (here : s.wellOf p = some w) (name : names.get p = some .stopped) :
    ((s.pump p).lockout = true → ((settle s (exitEnded s w names)).pump p).state = .lockedOut)
    ∧ ((s.pump p).lockout = false → (s.pump p).disabled = true →
      ((settle s (exitEnded s w names)).pump p).state = .unavailable .disabled)
    ∧ ((s.pump p).lockout = false → (s.pump p).disabled = false →
      ((settle s (exitEnded s w names)).pump p).state = .off ∨ ((settle s (exitEnded s w names)).pump p).state = .startWait) := by
  obtain ⟨u, record, -, reached⟩ := nameTaken_pump (names := names) here
  have other : ∀ turning, names.get p ≠ some (.silent turning) := by rw [name]; simp
  have fields := of_bare (fun r => (r.state, r.lockout, r.disabled)) (fun _ => rfl) (named_stopped (w := w) (x := u) name)
  rw [← reached, enterOff_pump, record] at fields
  simp only [Prod.mk.injEq] at fields
  obtain ⟨state, lockout, disabled⟩ := fields
  have rest (st : PumpState) (named : ((nameTaken s w names).pump p).state = st) (rests : Rests st) :
      ((settle s (exitEnded s w names)).pump p).state = st :=
    (still_settled (by rw [named]; exact rests) here other).state.trans named
  refine ⟨fun locked => rest _ (state.trans (if_pos locked)) (by simp [Rests]), fun unlocked off => ?_, fun unlocked enabled => ?_⟩
  · refine rest _ (state.trans ?_) (by simp [Rests])
    rw [unlocked, off]
    rfl
  · have free : Free ((nameTaken s w names).pump p) := by
      rw [unlocked, enabled] at state
      exact ⟨lockout.trans unlocked, disabled.trans enabled, .inl state⟩
    have within := free_within free
    rw [← exitEnded_pump_of_other here other] at within
    exact settle_of_free within

/-! ## A pump named silent -/

/-- A pump named silent before the late reports. -/
structure Unheard (s x : State) (p : Pump) (turning : Bool) : Prop where
  mask : dcMask x = dcMask s
  state : (x.pump p).state = .unavailable .noStatus
  charge : (x.pump p).charge = turningCharge turning
  marked : (x.pump p).silentRunning = turning
  drive : (x.pump p).drive = (s.pump p).drive
  lockout : (x.pump p).lockout = (s.pump p).lockout
  disabled : (x.pump p).disabled = (s.pump p).disabled

/-- The late reports find a pump named silent in silence. -/
theorem silent_within (here : s.wellOf p = some w) (name : names.get p = some (.silent turning)) : ∃ u, Unheard s u p turning
    ∧ u.pump p = (exitWithin s w names).pump p
    ∧ (exitEnded s w names).pump p = (takeLateReport names u p).pump p
    ∧ ∀ e ∈ (takeLateReport names u p).raised, e ∈ (exitEnded s w names).raised := by
  obtain ⟨v, before, -, named⟩ := nameTaken_pump (names := names) here
  rw [named_silent name, before] at named
  have within : AsNamed ((nameTaken s w names).pump p) ((exitWithin s w names).pump p) := rests_within (by
    rw [named]
    simp [Rests, silentNamed, withCharge])
  rw [named] at within
  obtain ⟨u, record, mask, reached, raised⟩ := exitEnded_pump (names := names) here
  have fields := within.of (fun r => (r.state, r.charge, r.silentRunning, r.drive, r.lockout, r.disabled)) (fun _ => rfl) fun _ _ => rfl
  rw [← record] at fields
  simp only [Prod.mk.injEq] at fields
  obtain ⟨state, charge, marked, drive, lockout, disabled⟩ := fields
  exact ⟨u, ⟨mask, state, charge, marked, drive, lockout, disabled⟩, record, reached, raised⟩

/-- A silent pump whose drive has not reported since. -/
theorem unknown_settled (here : s.wellOf p = some w) (name : names.get p = some (.silent turning))
    (unknown : (s.pump p).drive = .unknown) : ((settle s (exitEnded s w names)).pump p).state = .unavailable .noStatus
    ∧ ((settle s (exitEnded s w names)).pump p).silentRunning = turning
    ∧ ((settle s (exitEnded s w names)).pump p).charge = turningCharge turning := by
  obtain ⟨u, h, -, reached, -⟩ := silent_within here name
  rw [takeLateReport_unknown (h.drive.trans unknown)] at reached
  have held : Held ((exitEnded s w names).pump p) := .inr (by rw [reached, h.state]; simp)
  have fields := of_still (fun r => (r.state, r.silentRunning, r.charge)) (fun _ => rfl) (settle_held s _ p held)
  rw [reached, h.state, h.marked, h.charge] at fields
  simp only [Prod.mk.injEq] at fields
  exact fields

/-- A silent pump whose late report says LOCAL. -/
theorem late_local (here : s.wellOf p = some w) (name : names.get p = some (.silent turning))
    (known : (s.pump p).drive = .known d at_) (hand : d.state = .localHand) :
    ((settle s (exitEnded s w names)).pump p).state = .unavailable .localHand
    ∧ ((settle s (exitEnded s w names)).pump p).charge = turningCharge d.floatRunning := by
  obtain ⟨u, h, -, reached, -⟩ := silent_within here name
  rw [takeLateReport_known name (h.drive.trans known), takeReport_away (.inr h.state), if_pos hand, takeLocal_pump] at reached
  have held : Held ((exitEnded s w names).pump p) := .inr (by rw [reached]; simp [withCharge])
  have fields := of_still (fun r => (r.state, r.charge)) (fun _ => rfl) (settle_held s _ p held)
  rw [reached] at fields
  simp only [Prod.mk.injEq] at fields
  refine ⟨fields.1, fields.2.trans ?_⟩
  have charge : handedCharge (u.pump p) = turningCharge turning := by
    unfold handedCharge
    rw [if_neg (by rw [h.state]; simp), h.charge]
  show localCharge d (handedCharge (u.pump p)) = _
  rw [charge]
  unfold localCharge turningCharge
  cases turning <;> rfl

/-- A silent pump whose late report shows a turning motor. -/
theorem late_turning (here : s.wellOf p = some w) (name : names.get p = some (.silent turning))
    (known : (s.pump p).drive = .known d at_) (away : d.state ≠ .localHand) (turns : Machine.turning d = true) :
    ((settle s (exitEnded s w names)).pump p).state = .stopping
    ∧ ((settle s (exitEnded s w names)).pump p).owner = .auto
    ∧ ((settle s (exitEnded s w names)).pump p).stopAt = some (s.now + 30000)
    ∧ ((settle s (exitEnded s w names)).pump p).charge = turningCharge turning
    ∧ (turning = true → .stopNotice p ∈ (settle s (exitEnded s w names)).raised) := by
  obtain ⟨u, h, -, reached, raised⟩ := silent_within here name
  rw [takeLateReport_known name (h.drive.trans known), takeReport_away (.inr h.state), if_neg away,
    leaveLocal_turning turns] at reached raised
  have record : bare ((exitEnded s w names).pump p) = bare (stopped u (u.pump p)) := by
    rw [reached]
    exact stopPump_bare true
  have held : Held ((exitEnded s w names).pump p) := .of_bare record (.inr (by simp [stopped]))
  have fields := of_bare (fun r => (r.state, r.owner, r.stopAt, r.charge)) (fun _ => rfl) ((settle_of_held (b := s) held).trans record)
  simp only [Prod.mk.injEq] at fields
  obtain ⟨state, owner, deadline, charge⟩ := fields
  refine ⟨state, owner, deadline.trans ?_, charge.trans ?_, fun marked => ?_⟩
  · show some (u.now + 30000) = _
    rw [now_of_dc h.mask]
  · show returned (u.pump p).charge = _
    rw [h.charge]
    cases turning <;> rfl
  · refine (settle_grows s _).mem_raised (raised _ (stopPump_notices (.inr ?_)))
    rw [h.charge, marked]
    rfl

/-- A silent pump whose late report shows no turning motor. -/
theorem late_still (here : s.wellOf p = some w) (name : names.get p = some (.silent turning))
    (known : (s.pump p).drive = .known d at_) (away : d.state ≠ .localHand) (rests : Machine.turning d = false)
    (t : State) (after : t = settle s (exitEnded s w names)) :
    (t.pump p).charge = .none ∧ (turning = true → .chargeRelease (.pump p) ∈ t.raised)
    ∧ ((t.pump p).lockout = true ↔ (s.pump p).lockout = true ∨ d.state = .tripped ∧ d.cause = .moisture)
    ∧ ((t.pump p).lockout = true → (t.pump p).state = .lockedOut)
    ∧ ((t.pump p).lockout = false → (s.pump p).disabled = true → (t.pump p).state = .unavailable .disabled)
    ∧ ((t.pump p).lockout = false → (s.pump p).disabled = false → (t.pump p).state = .off ∨ (t.pump p).state = .startWait) := by
  obtain ⟨u, h, -, reached, raised⟩ := silent_within here name
  rw [takeLateReport_known name (h.drive.trans known), takeReport_away (.inr h.state), if_neg away,
    leaveLocal_still rests] at reached raised
  have before : (releaseCharge (returning u p d) p).pump p = { u.pump p with
      charge := .none
      lastTrip := if d.state = .tripped then d.cause else (u.pump p).lastTrip
      lockout := (u.pump p).lockout || d.state == .tripped && d.cause == .moisture } := by
    rw [releaseCharge_pump, returning_pump]
    rfl
  have released : turning = true → .chargeRelease (.pump p) ∈ (releaseCharge (returning u p d) p).raised := by
    intro marked
    have charge : ((returning u p d).pump p).charge = .external := by
      rw [returning_pump]
      exact h.charge.trans (by rw [marked]; rfl)
    rw [releaseCharge_eq, charge]
    exact mem_raiseIf _ rfl
  have mask : dcMask (exitEnded s w names) = dcMask (releaseCharge (returning u p d) p) := by
    rw [exitEnded_mask, releaseCharge_dc, ← h.mask]
    unfold returning
    split <;> rfl
  have grown : ∀ e ∈ (releaseCharge (returning u p d) p).raised, e ∈ (settle s (exitEnded s w names)).raised := fun e member =>
    (settle_grows s _).mem_raised (raised e ((enterOff_mild _ p).raised e member))
  generalize releaseCharge (returning u p d) p = v at *
  obtain ⟨locked, off, free, -⟩ := offTo_settle (b := s) (s := v) (p := p) (congrArg bare reached) mask
  have steady := settle_steady s (exitEnded s w names) p
  rw [enterOff_pump, before] at reached
  have charge : ((exitEnded s w names).pump p).charge = .none := by
    rw [reached]
    rfl
  have lockout : ((settle s (exitEnded s w names)).pump p).lockout = (v.pump p).lockout := by
    rw [steady.lockout, reached, before]
    rfl
  have enabled : (v.pump p).disabled = (s.pump p).disabled := by
    rw [before]
    exact h.disabled
  rw [enabled] at off free
  rw [← lockout] at locked off free
  subst after
  refine ⟨?_, fun marked => grown _ (released marked), ?_, fun lock => (locked lock).1, fun un dis => (off un dis).1, free⟩
  · rw [steady.charge (by rw [charge]; simp), charge]
  · rw [lockout, before, h.lockout]
    simp

end Named

end Sys2Proof.Machine
end


section
/-! PROOF. The interlock, the RUN and the command count of a pump taken at a fallback exit (R54, R146, R147). -/

namespace Sys2Proof.Machine

section Frames

variable {s t x y u a b : State} {p q : Pump} {w : Well} {d : WellDelivery} {names : PerPump (Option ExitName)} {ps : List Pump}

/-! ## The interlock (R147, step 2) -/

theorem exitNamed_pump (here : s.wellOf p = some w) : ∃ u, dcMask u = dcMask s
    ∧ (exitNamed s w names).pump p = (evalInterlock (deliveryOf (s.well w)) u p).pump p := by
  obtain ⟨u, -, grown, reached, -⟩ := each_comes (f := evalInterlock (deliveryOf (s.well w))) (evalInterlock_apart _)
    (pumpsOf_nodup s.setup w) ((mem_pumpsOf _ _ p).mpr here) (State.each (stopUnfit names) (s.setup.pumpsOf w) (nameTaken s w names))
  rw [← exitNamed_eq] at reached
  refine ⟨u, grown.mask.trans ?_, reached⟩
  exact (each_grown (fun s q => (stopUnfit_mild names s q).toApart) _ _).mask.trans
    (nameTaken_grown.mask.trans movedBack_grown.mask)

/-- The interlock of a pump of the well on the record as it stands. -/
def holdsAt (s : State) (w : Well) (p : Pump) : Bool := interlockHolds s.setup p (deliveryOf (s.well w))

/-- What the late reports leave of a pump, or that they find it silent. -/
theorem ended_cases (here : s.wellOf p = some w) : (exitEnded s w names).pump p = (exitWithin s w names).pump p
    ∨ ∃ u d, u.pump p = (exitWithin s w names).pump p ∧ (u.pump p).state = .unavailable .noStatus
      ∧ (exitEnded s w names).pump p = (takeReport u p d).pump p := by
  by_cases silent : ∃ turning, names.get p = some (.silent turning)
  · obtain ⟨turning, name⟩ := silent
    obtain ⟨u, h, record, reached, -⟩ := silent_within (names := names) here name
    cases drive : (u.pump p).drive with
    | unknown =>
      rw [takeLateReport_unknown drive, record] at reached
      exact .inl reached
    | known d at_ =>
      rw [takeLateReport_known name drive] at reached
      exact .inr ⟨u, d, record, h.state, reached⟩
  · exact .inl (exitEnded_pump_of_other here fun turning name => silent ⟨turning, name⟩)

theorem interlock_settled (here : s.wellOf p = some w) :
    ((settle s (exitEnded s w names)).pump p).interlock = holdsAt s w p := by
  obtain ⟨v, mask, named⟩ := exitNamed_pump (names := names) here
  have fitted : ((exitNamed s w names).pump p).interlock = holdsAt s w p := by
    rw [named, evalInterlock_interlock, setup_of_dc mask]
    rfl
  have within := lock_within _ fitted
  rw [(settle_steady s _ p).interlock]
  rcases ended_cases (names := names) here with same | ⟨u, d, record, silent, same⟩
  · rw [same, within]
  · rw [same, (away_parked silent).1, record, within]

/-- A pump whose interlock is set at the exit is parked. -/
theorem parked_settled (here : s.wellOf p = some w) (holds : holdsAt s w p = true) :
    Parked ((settle s (exitEnded s w names)).pump p) := by
  obtain ⟨v, mask, named⟩ := exitNamed_pump (names := names) here
  have fitted : Parked ((exitNamed s w names).pump p) := by
    rw [named]
    exact evalInterlock_parked (by rw [setup_of_dc mask]; exact holds)
  have within := parked_within fitted
  refine (parked_following p).settle s _ ?_
  rcases ended_cases (names := names) here with same | ⟨u, d, record, silent, same⟩
  · rwa [same]
  · rw [same]
    obtain ⟨lock, idle⟩ := away_parked (d := d) silent
    exact ⟨lock.trans (by rw [record]; exact within.1), idle⟩

theorem each_mild {f : State → Pump → State} (step : ∀ s q, Mild q s (f s q)) (xs : List Pump) (s : State) :
    Runless s (State.each f xs s) ∧ ∀ g ∈ s.lp.control, g ∈ (State.each f xs s).lp.control := by
  induction xs generalizing s with
  | nil => exact ⟨.refl s, fun _ => id⟩
  | cons q qs ih =>
    obtain ⟨runless, control⟩ := ih (f s q)
    exact ⟨(step s q).runless.trans runless, fun g member => control g ((step s q).control g member)⟩

/-- After the interlocks no RUN joins a queue, and no frame leaves the CONTROL queue. -/
theorem settled_mild : Runless (exitNamed s w names) (settle s (exitEnded s w names))
    ∧ ∀ f ∈ (exitNamed s w names).lp.control, f ∈ (settle s (exitEnded s w names)).lp.control := by
  obtain ⟨excess, kept⟩ := each_mild (stopExcess_mild names w) ((exitNamed s w names).duty.rotation.get w).reverse (exitNamed s w names)
  obtain ⟨late, kept'⟩ := each_mild (takeLateReport_mild names) (s.setup.pumpsOf w) (exitWithin s w names)
  obtain ⟨withdrawn, kept''⟩ := each_mild (withdrawExcess_mild w)
    ((evaluateLive (exitStopped s w names) w).duty.rotation.get w).reverse (evaluateLive (exitStopped s w names) w)
  rw [← exitEnded_eq] at late kept'
  refine ⟨excess.trans ((evaluateWithin_runless _ w).trans (late.trans (runless_settles.settle s _))), fun f member => ?_⟩
  refine (settle_grows s _).mem_control (kept' f (kept'' f ?_))
  exact (grows_settles.evaluateLive (exitStopped s w names) w).mem_control (kept f member)

/-- No RUN waits for the drive of a pump whose interlock is set. -/
theorem free_settled (here : s.wellOf p = some w) (holds : holdsAt s w p = true) :
    NoRunWaits (settle s (exitEnded s w names)) (driveOf s p) := by
  refine settled_mild.1.noRunWaits ?_
  have mask : dcMask (State.each (stopUnfit names) (s.setup.pumpsOf w) (nameTaken s w names)) = dcMask s :=
    (each_grown (fun s q => (stopUnfit_mild names s q).toApart) _ _).mask.trans (nameTaken_grown.mask.trans movedBack_grown.mask)
  rw [exitNamed_eq]
  refine each_noRunWaits ((mem_pumpsOf _ _ _).mpr here) (evalInterlock_dc _) (fun y same => ?_) fun y q => evalInterlock_noRunWaits q
  have same := same.trans mask
  rw [← driveOf_of_dc (p := p) same]
  exact evalInterlock_free (by rw [setup_of_dc same]; exact holds)

/-! ## The CONTROL queue while the pumps are named -/

/-- A CONTROL queue with at most one frame more. -/
def OneMore (s t : State) : Prop := s.lp.control <+: t.lp.control ∧ t.lp.control.length ≤ s.lp.control.length + 1

theorem OneMore.of_lp (h : t.lp = s.lp) : OneMore s t := by
  unfold OneMore
  rw [h]
  exact ⟨List.prefix_refl _, by omega⟩

theorem offerCommand_oneMore (command : Option (DriveAction × Nat)) (change : Bool) :
    OneMore s (offerCommand s p command change) := by
  match command with
  | none => exact .of_lp rfl
  | some (act, speed) =>
    by_cases room : s.lp.control.length < 8
    · obtain ⟨lp, es, placed, control, -⟩ := offerCommand_of_room (p := p) (act := act) (speed := speed) (change := change) room
      have joined : (offerCommand s p (some (act, speed)) change).lp.control = s.lp.control ++ [pumpCommand s p act speed] := by
        rw [placed]
        exact control
      unfold OneMore
      rw [joined]
      exact ⟨List.prefix_append _ _, by simp⟩
    · rw [offerCommand_of_full room]
      exact .of_lp (by split <;> rfl)

theorem readied_lp : (readied w x p).lp = x.lp := by
  unfold readied respeeded
  dsimp only
  split <;> rfl

theorem takeExitName_oneMore : OneMore x (takeExitName w names x p) := by
  unfold takeExitName
  split
  · rw [adopt_eq]
    have offered := offerCommand_oneMore (s := readied w x p) (p := p) (heldCommand (readied w x p) p) true
    unfold OneMore at *
    rwa [readied_lp] at offered
  · exact .of_lp rfl
  · exact .of_lp rfl
  · exact offerCommand_oneMore (s := enterOff x p) _ true
  · exact .of_lp rfl

theorem each_named_control (xs : List Pump) (x : State) : x.lp.control <+: (State.each (takeExitName w names) xs x).lp.control
    ∧ (State.each (takeExitName w names) xs x).lp.control.length ≤ x.lp.control.length + xs.length := by
  induction xs generalizing x with
  | nil => exact ⟨List.prefix_refl _, Nat.le_refl _⟩
  | cons q qs ih =>
    obtain ⟨grows, few⟩ := ih (takeExitName w names x q)
    obtain ⟨grows', few'⟩ := takeExitName_oneMore (w := w) (names := names) (x := x) (p := q)
    refine ⟨grows'.trans grows, Nat.le_trans few ?_⟩
    rw [List.length_cons]
    omega

theorem movedBack_lp : (movedBack s w names).lp = s.lp :=
  each_lp (f := returnMoved w names) (fun _ _ => State.raiseIf_lp ..) _ s

/-- A RUN for the drive of a pump as the exit found it. -/
def IsRunOf (s : State) (p : Pump) (f : OutFrame) : Prop :=
  f.destination = driveOf s p ∧ ∃ speed, f.payload = .driveCmd .run speed (s.pump p).count

/-- An adopted pump runs, and where the queue has room its RUN waits and is counted. -/
theorem takeExitName_runs (name : names.get p = some .adopted) (room : x.lp.control.length < 8) :
    (∃ f ∈ (takeExitName w names x p).lp.control, IsRunOf x p f)
    ∧ ((takeExitName w names x p).pump p).state = .running
    ∧ ((takeExitName w names x p).pump p).count = (x.pump p).count + 1 := by
  obtain ⟨adopted, state, count⟩ := readied_adopted (w := w) (x := x) (p := p)
  have taken : takeExitName w names x p = adopt w x p := by
    unfold takeExitName
    simp only [name]
  obtain ⟨speed, command⟩ : ∃ speed, heldCommand (readied w x p) p = some (.run, speed) := by
    unfold heldCommand
    simp only [state, adopted.owner, actionHeld]
    exact ⟨_, rfl⟩
  rw [taken, adopt_eq, command]
  obtain ⟨lp, es, placed, control, -⟩ := offerCommand_of_room (s := readied w x p) (p := p) (act := .run) (speed := speed)
    (change := true) (by rw [readied_lp]; exact room)
  rw [placed]
  refine ⟨⟨pumpCommand (readied w x p) p .run speed, ?_, driveOf_of_dc (p := p) (readied_mild w x p).mask, speed, ?_⟩, ?_, ?_⟩
  · show _ ∈ lp.control
    rw [control]
    simp
  · show OutPayload.driveCmd .run speed ((readied w x p).pump p).count = _
    rw [count]
  · rw [State.pump_setPump, if_pos rfl]
    exact state
  · rw [State.pump_setPump, if_pos rfl]
    show ((readied w x p).pump p).count + 1 = _
    rw [count]

theorem nameTaken_runs (here : s.wellOf p = some w) (name : names.get p = some .adopted) (few : s.lp.control.length ≤ 1)
    (small : (s.setup.pumpsOf w).length ≤ 4) :
    (∃ f ∈ (nameTaken s w names).lp.control, IsRunOf s p f)
    ∧ ((nameTaken s w names).pump p).state = .running
    ∧ ((nameTaken s w names).pump p).count = (s.pump p).count + 1 := by
  obtain ⟨before, after, split⟩ := List.append_of_mem ((mem_pumpsOf s.setup w p).mpr here)
  have once : (before ++ p :: after).Nodup := split ▸ pumpsOf_nodup s.setup w
  obtain ⟨-, later, apart⟩ := List.nodup_append.mp once
  have fresh : p ∉ before := fun member => apart p member p (.head _) rfl
  have gone : p ∉ after := (List.nodup_cons.mp later).1
  let u := State.each (takeExitName w names) before (movedBack s w names)
  have named : nameTaken s w names = State.each (takeExitName w names) after (takeExitName w names u p) := by
    unfold nameTaken
    rw [split]
    exact each_append ..
  have record : u.pump p = s.pump p :=
    (each_away (fun _ _ ne => takeExitName_other names ne) fresh _).trans (movedBack_pump p)
  have mask : dcMask u = dcMask s := (each_grown (takeExitName_apart w names) before _).mask.trans movedBack_grown.mask
  have room : u.lp.control.length < 8 := by
    have bound := (each_named_control (w := w) (names := names) before (movedBack s w names)).2
    rw [movedBack_lp] at bound
    rw [split, List.length_append, List.length_cons] at small
    show (State.each (takeExitName w names) before (movedBack s w names)).lp.control.length < 8
    omega
  obtain ⟨⟨f, member, destination, speed, payload⟩, state, count⟩ := takeExitName_runs (w := w) name room
  have stays : (nameTaken s w names).pump p = (takeExitName w names u p).pump p := by
    rw [named]
    exact each_away (fun _ _ ne => takeExitName_other names ne) gone _
  rw [stays, ← record]
  refine ⟨⟨f, ?_, destination.trans (driveOf_of_dc mask), speed, ?_⟩, state, count⟩
  · rw [named]
    exact (each_named_control after _).1.subset member
  · rw [payload, record]

/-! ## The RUN of an adopted pump waits (R146) -/

theorem outIsRunFor_other {f : OutFrame} {drive : Addr} (apart : drive ≠ f.destination) : outIsRunFor drive f = false := by
  unfold outIsRunFor
  split
  · simp [Ne.symm apart]
  · rfl

theorem evalInterlock_keeps_run {f : OutFrame} (other : driveOf x q ≠ f.destination ∨ interlockHolds x.setup q d = false)
    (member : f ∈ x.lp.control) : f ∈ (evalInterlock d x q).lp.control := by
  rw [evalInterlock_eq]
  split
  · next holds =>
    rcases other with apart | free
    · have stays : f ∈ (removeRuns (locked x q d) (driveOf (locked x q d) q)).lp.control := by
        refine List.mem_filter.mpr ⟨member, ?_⟩
        have drive : driveOf (locked x q d) q = driveOf x q := rfl
        rw [drive, outIsRunFor_other apart]
        rfl
      unfold interlockPump
      dsimp only
      split
      · exact stays
      · exact (stopPump_mild _ q true).control f stays
      · exact (stopPump_mild _ q true).control f stays
      · exact stays
    · rw [holds] at free
      cases free
  · exact member

/-- An adopted pump that is found running has its RUN waiting. -/
theorem run_waits (here : s.wellOf p = some w) (name : names.get p = some .adopted) (few : s.lp.control.length ≤ 1)
    (small : (s.setup.pumpsOf w).length ≤ 4) (distinct : ∀ q, q ≠ p → driveOf s q ≠ driveOf s p)
    (runs : ((settle s (exitEnded s w names)).pump p).state = .running) :
    ∃ f ∈ (settle s (exitEnded s w names)).lp.control, IsRunOf s p f := by
  have free : interlockHolds s.setup p (deliveryOf (s.well w)) = false := by
    by_contra held
    exact (parked_settled (names := names) here (by simpa [holdsAt] using held)).2.2.2 runs
  obtain ⟨⟨f, member, isRun⟩, -, -⟩ := nameTaken_runs here name few small
  have fitted : f ∈ (exitNamed s w names).lp.control := by
    have mask : dcMask (State.each (stopUnfit names) (s.setup.pumpsOf w) (nameTaken s w names)) = dcMask s :=
      (each_grown (fun s q => (stopUnfit_mild names s q).toApart) _ _).mask.trans (nameTaken_grown.mask.trans movedBack_grown.mask)
    have before := (each_mild (stopUnfit_mild names) (s.setup.pumpsOf w) (nameTaken s w names)).2 f member
    rw [exitNamed_eq]
    generalize State.each (stopUnfit names) (s.setup.pumpsOf w) (nameTaken s w names) = x at mask before
    induction s.setup.pumpsOf w generalizing x with
    | nil => exact before
    | cons q qs ih =>
      refine ih _ ((evalInterlock_dc _ x q).trans mask) (evalInterlock_keeps_run ?_ before)
      by_cases same : q = p
      · subst same
        exact .inr (by rw [setup_of_dc mask]; exact free)
      · exact .inl (by rw [driveOf_of_dc mask, isRun.1]; exact distinct q same)
  exact ⟨f, settled_mild.2 f fitted, isRun⟩

/-! ## The count of a pump that is stopped at once (R54, R147) -/

/-- The pumps of a list that start or run. -/
def going (ps : List Pump) (x : State) : Nat := (ps.filter fun q => startingOrRunning (x.pump q).state).length

/-- The frames that wait and the pumps that may yet be stopped. -/
def burden (ps : List Pump) (x : State) : Nat := x.lp.control.length + going ps x

theorem going_le (fewer : ∀ q, startingOrRunning (y.pump q).state = true → startingOrRunning (x.pump q).state = true) :
    going ps y ≤ going ps x := by
  unfold going
  rw [← List.countP_eq_length_filter, ← List.countP_eq_length_filter]
  exact List.countP_mono_left fun q _ => fewer q

theorem going_lt (member : p ∈ ps) (other : ∀ q, q ≠ p → y.pump q = x.pump q)
    (ran : startingOrRunning (x.pump p).state = true) (rests : startingOrRunning (y.pump p).state = false) :
    going ps y + 1 ≤ going ps x := by
  have fewer (qs : List Pump) : going qs y ≤ going qs x := going_le fun q runs => by
    by_cases same : q = p
    · subst same
      exact ran
    · rwa [← other q same]
  obtain ⟨before, after, rfl⟩ := List.append_of_mem member
  have h1 := fewer before
  have h2 := fewer after
  unfold going at *
  simp only [List.filter_append, List.filter_cons, ran, rests, if_true, List.length_append, List.length_cons]
  simp only [Bool.false_eq_true, if_false]
  omega

/-- A stop as an offered command. -/
theorem stopPump_offers (x : State) (p : Pump) : ∃ a : State, stopPump x p true = buildCommand a p true ∧ a.lp = x.lp
    ∧ (a.pump p).state = .stopping ∧ (a.pump p).count = (x.pump p).count := by
  refine ⟨_, rfl, ?_, ?_, ?_⟩
  · simp [enter, returnCharge_lp]
  · simp [State.pump, enter, inState]
  · simp [State.pump, enter, inState, returnCharge_eq, withCharge]

theorem stopPump_counts (room : x.lp.control.length < 8) : ((stopPump x p true).pump p).count = (x.pump p).count + 1 := by
  obtain ⟨a, stop, lp, state, count⟩ := stopPump_offers x p
  rw [stop]
  unfold buildCommand
  rw [commandOf_stop (by rw [state]; rfl)]
  obtain ⟨lp', es, placed, -, -⟩ := offerCommand_of_room (s := a) (p := p) (act := .stop) (speed := 100) (change := true)
    (by rw [lp]; exact room)
  rw [placed, State.pump_setPump, if_pos rfl]
  show (a.pump p).count + 1 = _
  rw [count]

theorem stopPump_oneMore : OneMore x (stopPump x p true) := by
  obtain ⟨a, stop, lp, -, -⟩ := stopPump_offers x p
  have offered := offerCommand_oneMore (s := a) (p := p) (commandOf a p) true
  rw [stop]
  unfold OneMore buildCommand at *
  rwa [lp] at offered

/-- A stop adds a frame at most, and takes a pump off those that may yet be stopped. -/
theorem stopPump_burden (member : p ∈ ps) (runs : startingOrRunning (x.pump p).state = true) :
    burden ps (stopPump x p true) ≤ burden ps x
    ∧ (burden ps x ≤ 8 → ((stopPump x p true).pump p).count = (x.pump p).count + 1) := by
  have fewer := going_lt (y := stopPump x p true) member (fun q ne => stopPump_other x true ne) runs
    (by rw [stopPump_state]; rfl)
  have one := (stopPump_oneMore (x := x) (p := p)).2
  unfold burden
  exact ⟨by omega, fun light => stopPump_counts (by omega)⟩

theorem enterOff_idle : startingOrRunning ((enterOff x p).pump p).state = false := by
  rw [enterOff_pump]
  obtain ⟨-, starts, runs⟩ := redirected_idle (x.pump p).lockout (x.pump p).disabled _ rfl
  simp [startingOrRunning, starts, runs]

/-- A pump that runs with its RUN counted, or has been stopped with its STOP counted too. -/
def Counted (c : BitVec 8) (r : PumpRecord) : Prop :=
  r.state = .running ∧ r.count = c + 1 ∨ r.state = .stopping ∧ r.count = c + 2

/-- An exit under way with few frames and pumps that may yet be stopped, one of its pumps counted. -/
structure Light (s : State) (w : Well) (p : Pump) (c : BitVec 8) (x : State) : Prop where
  mask : dcMask x = dcMask s
  light : burden (s.setup.pumpsOf w) x ≤ 8
  counted : Counted c (x.pump p)

variable {c : BitVec 8}

theorem Light.stop (h : Light s w p c x) (here : s.wellOf q = some w) (runs : startingOrRunning (x.pump q).state = true) :
    Light s w p c (stopPump x q true) := by
  obtain ⟨less, counts⟩ := stopPump_burden ((mem_pumpsOf s.setup w q).mpr here) runs
  refine ⟨(stopPump_dc x q true).trans h.mask, Nat.le_trans less h.light, ?_⟩
  by_cases same : p = q
  · subst same
    have count := counts h.light
    rcases h.counted with ⟨-, counted⟩ | ⟨stops, -⟩
    · refine .inr ⟨stopPump_state x p true, count.trans ?_⟩
      rw [counted, BitVec.add_assoc]
      rfl
    · rw [stops] at runs
      cases runs
  · rw [stopPump_other x true same]
    exact h.counted

theorem Light.stopUnfit (h : Light s w p c x) (here : s.wellOf q = some w) : Light s w p c (stopUnfit names x q) := by
  unfold Machine.stopUnfit
  split
  · next unfit =>
    simp only [Bool.and_eq_true, beq_iff_eq] at unfit
    exact h.stop here (by rw [unfit.1.2]; rfl)
  · exact h

theorem Light.evalInterlock (h : Light s w p c x) (here : s.wellOf q = some w) : Light s w p c (evalInterlock d x q) := by
  have state (r : Pump) : ((locked x q d).pump r).state = (x.pump r).state ∧ ((locked x q d).pump r).count = (x.pump r).count := by
    by_cases same : r = q
    · subst same
      rw [locked_pump]
      exact ⟨rfl, rfl⟩
    · unfold locked
      rw [State.pump_setPump, if_neg same]
      exact ⟨rfl, rfl⟩
  have set : Light s w p c (locked x q d) := by
    refine ⟨h.mask, Nat.le_trans ?_ h.light, ?_⟩
    · exact Nat.add_le_add_left (going_le fun r runs => by rwa [(state r).1] at runs) _
    · unfold Counted
      rw [(state p).1, (state p).2]
      exact h.counted
  rw [evalInterlock_eq]
  split
  · have cut : Light s w p c (removeRuns (locked x q d) (driveOf (locked x q d) q)) :=
      ⟨set.mask, Nat.le_trans (Nat.add_le_add_right (List.length_filter_le _ _) _) set.light, set.counted⟩
    unfold interlockPump
    dsimp only
    split
    · next waits =>
      have other (r : Pump) (ne : r ≠ q) : (enterOff (withdraw (removeRuns (locked x q d) (driveOf (locked x q d) q)) q) q).pump r
          = (removeRuns (locked x q d) (driveOf (locked x q d) q)).pump r := enterOff_other ne
      refine ⟨cut.mask, Nat.le_trans (Nat.add_le_add_left (going_le fun r runs => ?_) _) cut.light, ?_⟩
      · by_cases same : r = q
        · subst same
          rw [enterOff_idle] at runs
          cases runs
        · rwa [other r same] at runs
      · have ne : p ≠ q := by
          rintro rfl
          rcases cut.counted with ⟨st, -⟩ | ⟨st, -⟩ <;> rw [waits] at st <;> cases st
        rw [other p ne]
        exact cut.counted
    · next starts => exact cut.stop here (by rw [starts]; rfl)
    · next turns => exact cut.stop here (by rw [turns]; rfl)
    · exact cut
  · exact set

theorem Light.each {f : State → Pump → State} (step : ∀ x q, Light s w p c x → s.wellOf q = some w → Light s w p c (f x q))
    {xs : List Pump} (inside : ∀ q ∈ xs, s.wellOf q = some w) (h : Light s w p c x) : Light s w p c (State.each f xs x) := by
  induction xs generalizing x with
  | nil => exact h
  | cons q qs ih => exact ih (fun r member => inside r (.tail _ member)) (step x q h (inside q (.head _)))

/-- An adopted pump whose interlock is set is stopped at once, both its commands counted. -/
theorem stopped_counted (here : s.wellOf p = some w) (name : names.get p = some .adopted) (holds : holdsAt s w p = true)
    (empty : s.lp.control = []) (small : (s.setup.pumpsOf w).length ≤ 4) :
    ((settle s (exitEnded s w names)).pump p).state = .stopping
    ∧ ((settle s (exitEnded s w names)).pump p).count = (s.pump p).count + 2 := by
  obtain ⟨-, runs, counted⟩ := nameTaken_runs here name (by rw [empty]; simp) small
  have start : Light s w p (s.pump p).count (nameTaken s w names) := by
    refine ⟨nameTaken_grown.mask.trans movedBack_grown.mask, ?_, .inl ⟨runs, counted⟩⟩
    have frames := (each_named_control (w := w) (names := names) (s.setup.pumpsOf w) (movedBack s w names)).2
    rw [movedBack_lp, empty] at frames
    have most : going (s.setup.pumpsOf w) (nameTaken s w names) ≤ (s.setup.pumpsOf w).length := List.length_filter_le _ _
    have frames : (nameTaken s w names).lp.control.length ≤ 0 + (s.setup.pumpsOf w).length := frames
    unfold burden
    omega
  have inside : ∀ q ∈ s.setup.pumpsOf w, s.wellOf q = some w := fun q => (mem_pumpsOf _ _ _).mp
  have fitted : Light s w p (s.pump p).count (exitNamed s w names) := by
    rw [exitNamed_eq]
    exact .each (fun _ _ h => h.evalInterlock) inside (.each (fun _ _ h => h.stopUnfit) inside start)
  obtain ⟨v, mask, named⟩ := exitNamed_pump (names := names) here
  have parked : Parked ((exitNamed s w names).pump p) := by
    rw [named]
    exact evalInterlock_parked (by rw [setup_of_dc mask]; exact holds)
  obtain ⟨state, count⟩ := fitted.counted.resolve_left fun running => parked.2.2.2 running.1
  have rests : Rests ((exitNamed s w names).pump p).state := by
    rw [state]
    simp [Rests]
  have within : AsNamed ((exitNamed s w names).pump p) ((exitWithin s w names).pump p) :=
    within_stays (fun x h turns => absurd (h.state.symm.trans turns) rests.2.2.2) (asNamed_following rests p)
      (fun x h waits => absurd (h.state.symm.trans waits) rests.2.1) (asNamed_refl _)
  rw [← exitEnded_pump_of_other here (by rw [name]; simp)] at within
  have ended := within.still (settle_held s _ p (Rests.held (by rw [within.state]; exact rests)))
  exact ⟨ended.state.trans state, (ended.of (·.count) (fun _ => rfl) fun _ _ => rfl).trans count⟩

/-! ## The obligation -/

theorem exitKind_charged (name : names.get p = some .adopted ∨ names.get p = some (.localHand true)
    ∨ names.get p = some (.silent true)) : exitKind (names.get p) ≠ .none := by
  rcases name with name | name | name <;> rw [name] <;> simp [exitKind]

theorem exitKind_none (name : names.get p = none ∨ names.get p = some .stopped ∨ names.get p = some (.localHand false)
    ∨ names.get p = some (.silent false)) : exitKind (names.get p) = .none := by
  rcases name with name | name | name | name <;> rw [name] <;> rfl

/-- Settles O37. -/
theorem fallbackMovesPumps : Obligations.FallbackMovesPumps := by
  intro w names s live
  refine ⟨entry_duty live, ⟨_, exec_fallbackExitDc live, fun p away => ?away, fun p here => ?here⟩, entry_account live, ?account⟩
  case away =>
    exact ⟨fun law => (exit_spared law).others p away, fun free name => moved_released away free (exitKind_charged name)⟩
  case account =>
    obtain ⟨t, next, reserve, entries⟩ := exit_account (w := w) (names := names) live
    refine ⟨t, next, reserve, fun p waits => ⟨fun free name => ?_, fun free name => ?_, fun kept => ?_⟩⟩
    · rw [entries p waits, if_pos ⟨free, exitKind_charged (.inl name)⟩, name]
      rfl
    · rw [entries p waits, if_pos ⟨free, exitKind_charged (.inr name)⟩]
      rcases name with name | name <;> rw [name] <;> rfl
    · rw [entries p waits, if_neg]
      rintro ⟨free, recorded⟩
      rcases kept with held | name
      · exact held free
      · exact recorded (exitKind_none name)
  case here =>
    refine ⟨fun set => ?_, fun name => ?_, fun turning name => local_settled here name,
      fun turning name => unknown_settled here name, fun turning d at_ name known => ⟨late_local here name known,
        fun turns => ?_, fun rests => ?_⟩, fun name => (stopped_settled here name).1,
      fun name => (stopped_settled here name).2.1, fun name => (stopped_settled here name).2.2⟩
    · have holds : holdsAt s w p = true := (interlock_settled here).symm.trans set
      exact ⟨free_settled here holds, (parked_settled here holds).2⟩
    · have adopted := adopted_settled here name
      refine ⟨adopted.charge, adopted.owner, adopted.spins, adopted.history, fun runs few small distinct => ?_,
        fun low empty small => ?_⟩
      · obtain ⟨f, member, destination, payload⟩ := run_waits here name few small distinct runs
        exact ⟨f, member, destination, payload⟩
      · exact stopped_counted here name (interlockHolds_iff.mpr (.inl low)) empty small
    · have away : d.state ≠ .localHand := by
        rcases turns with h | h | ⟨h, -⟩ <;> rw [h] <;> simp
      exact late_turning here name known away ((turning_iff away).mpr turns)
    · have away : d.state ≠ .localHand := by
        rcases rests with h | h | ⟨h, -⟩ <;> rw [h] <;> simp
      exact late_still here name known away (not_turning_of rests) _ rfl

end Frames

end Sys2Proof.Machine
end
